-- ==== Sys2Proof/Word.lean ====
section
/-! DEFINITION. The word types of the JH3 and their plainest arithmetic (R9, R10: little-endian fields). -/

namespace Sys2Proof

/-- One byte of memory. -/
abbrev Byte := BitVec 8

/-- One 64-bit register of BAR0. -/
abbrev Word := BitVec 64

/-- The bits of an FP32 value of the vector unit. -/
abbrev W32 := BitVec 32

end Sys2Proof
end

