-- ==== Sys2Proof/Message.lean ====
section
/-! DEFINITION. The messages and flits of Barox, the frames of the stream ports, and what leaves the package (R487, R499, R602, R646). -/

namespace Sys2Proof

/-- A Barox message with its fields (R499, R646). A flit that this package sends carries one message (log entry 10). -/
inductive Msg where
  /-- POSTED_WRITE; `e2e` is E2E_SEQ, `addr` is in the space 4 form; `add` marks an atomic add of a sync word (R460), `poison` a row write (R218) -/
  | postedWrite (ctx : Nat) (relaxed : Bool) (handle e2e addr : Nat) (add : Bool) (data : List Byte)
  /-- GRAD_RECORD: 64 FP32 values, BF16 ones widened; `first` is the COL_FIRST from which its segments count (log entry 21) -/
  | gradRecord (bf16 : Bool) (segment first ctx count row key : Nat) (vals : List W32)
  | closeNotice (ctx key count handle frame : Nat)
  | opBind (ctx handle tag frame : Nat)
  | e2eAck (vc next : Nat)
  /-- PARITY_DELTA; `e2e` is the sequence number that R645 asks for -/
  | parity (kind j part line sealNo count e2e : Nat) (data : List Byte)
  | collective (ctx group chunk part : Nat) (last : Bool) (data : List Byte)
  | readReq (ctx tag len addr : Nat)
  | rowReq (ctx tiers requester tag colFirst colCount row key version : Nat)
  /-- a row of a FUNCTION 1 toward its home (R250, R366); `tag` and `requester` name the answer with the old contents, `undo` marks a restore (R367) -/
  | rowWrite (ctx handle e2e requester tag key row : Nat) (undo : Bool) (data : List Byte)
  | readResp (status part tag homeAddr : Nat) (last : Bool) (data : List Byte)
  | tick (depth master : Nat) (staged : Bool) (frame masterTime : Nat) (correction : Int)
      (period stPeriod phase stPhase applyAt : Nat)
  | stretch (group frame : Nat)
  | barrier (index : Nat) (release partial_ : Bool) (generation group frame : Nat)
  /-- VERDICT: 0 commit, 1 tainted, 2 non-finite -/
  | verdict (group verdict frame : Nat)
  | lateError (ctx reason frame tag addr e2e : Nat)
  | watch (ctx submit frame : Nat)
  | wake
  /-- a message whose MSG code is reserved (R500) -/
  | reserved
  deriving DecidableEq, Repr, Inhabited

/-- A sequenced flit (R487). -/
structure Flit where
  vc : Nat
  dst : Nat
  src : Nat
  ttl : Nat
  seq : Nat
  /-- FRAME_TAG, 16 bits -/
  tag : Nat
  msg : Msg
  deriving DecidableEq, Repr, Inhabited

/-- The header of a flit as a strait receives it: strait, SEQ, SRC, DST, TTL, FRAME_TAG, the time of receipt, how it decoded: 0 well, 1 with corrected symbols, 2 not correctable, 3 with a link CRC that fails, 4 with a reserved TYPE, 5 well and with a reserved MSG code (R486–R488, R500), whether its sender is out of step (R69; log entry 50), for a tick message the time in ns until it is forwarded (R62), and the number of its message within a PACKED flit of several (R498). -/
structure Rx where
  strait : Nat
  seq : Nat
  src : Nat
  dst : Nat
  ttl : Nat
  tag : Nat
  at_ : Nat
  code : Nat
  out : Bool
  residence : Nat
  unit : Nat := 0
  deriving DecidableEq, Repr, Inhabited

/-- One virtual channel's part of a STATUS payload (R493). -/
structure VcStatus where
  next : Nat
  nak : Option Nat
  freed : Nat
  deriving DecidableEq, Repr, Inhabited

/-- A STATUS payload (R493); `lane` is LANE_REQ: fiber, wavelength, SWITCH_AT, ACCEPT. -/
structure StatusFlit where
  vcs : List VcStatus
  tTx : Nat
  tEcho : Nat
  tHold : Nat
  lane : Option (Nat × Nat × Nat × Bool)
  deriving DecidableEq, Repr, Inhabited

/-- Where a codeword stands in the symbol stream of a strait: its number since the link last trained, and the working logical lanes then (R484, R485). -/
structure WordAt where
  index : Nat
  lanes : List Nat
  deriving DecidableEq, Repr, Inhabited

/-- The header of a stream frame as a ferry receives it (R602): ferry, channel, ALIVE, END, STATUS, CHECK, ARG, TAG, receipt time, and how it decoded: 0 well, 1 with an HCRC that fails or a reserved TYPE, 2 in a codeword that cannot be corrected. -/
structure FRx where
  ferry : Nat
  channel : Nat
  alive : Nat
  end_ : Bool
  status : Nat
  check : Nat
  arg : Nat
  tag : Nat
  at_ : Nat
  code : Nat
  deriving DecidableEq, Repr, Inhabited

/-- A stream frame that the package sends (R602). -/
structure FFrame where
  typ : Nat
  channel : Nat
  alive : Nat
  check : Nat
  arg : Nat
  tag : Nat
  payload : List Byte
  deriving DecidableEq, Repr, Inhabited

/-- The header of a causeway cell as it arrives: DST, SRC, HOPS, SEQ, and whether its CRC passes (R685). -/
structure CellHdr where
  dst : Nat
  src : Nat
  hops : Nat
  seq : Nat
  crcOk : Bool
  deriving DecidableEq, Repr, Inhabited

/-- A register of the vector unit of a logical core (R12, R317). -/
structure VReg where
  core : Nat
  reg : Nat
  deriving DecidableEq, Repr, Inhabited

/-- What a read of a burst (key / 64) finds: in HBM the numbers of its erroneous 8-bit symbols, 0 to 63 its bytes and 64 to 67 its check bits, and the package channel and row whose contents came, where those are not its own (R398); in SRAM the numbers of its erroneous bits, in words of 64 bits with 8 check bits. -/
structure BurstErr where
  burst : Nat
  symbols : List Nat
  from_ : Option (Nat × Nat) := none
  deriving DecidableEq, Repr, Inhabited

/-- Which part of an operation a command asks for: its fetch, checks and admission, or its data effect once it has started (log entry 11). -/
inductive OpStep where
  | fetch
  | run
  deriving DecidableEq, Repr, Inhabited

/-- What leaves the package. -/
inductive Output where
  /-- an MSI-X message of a function -/
  | msix (fn vec : Nat)
  /-- data returned to a BAR4 read -/
  | bar4Data (off : Nat) (data : List Byte)
  /-- a value returned to a core by its sync port (R457, R464) -/
  | coreValue (core val : Nat)
  /-- a sequenced flit sent on a strait -/
  | flit (strait : Nat) (at_ : WordAt) (f : Flit)
  /-- a STATUS flit, to a peer -/
  | status (strait : Nat) (at_ : WordAt) (src peer : Nat) (p : StatusFlit)
  /-- a HELLO flit: version, package, strait, fiber length in cm (R517) -/
  | hello (strait : Nat) (at_ : WordAt) (version pkg port cm peer : Nat)
  /-- a stream frame, at a block of the port's frame stream, on so many lanes (R599–R601) -/
  | frame (ferry block lanes : Nat) (f : FFrame)
  /-- a causeway cell: TYPE, DST, SRC, HOPS, SEQ and PAYLOAD from byte 8 on (R685) -/
  | cell (typ dst src hops seq : Nat) (payload : List Byte)
  /-- an SPDM response code and its bytes (R595) -/
  | spdm (code : Nat) (data : List Byte)
  deriving DecidableEq, Repr, Inhabited

end Sys2Proof
end

