-- ==== Sys2Proof/Syntax.lean ====
section
/-! DEFINITION. The commands of the package: one constructor for each row of spec/opcode_table.json, with its operands. `at_` is the system time at which the command happens. -/

namespace Sys2Proof

/-- A command. Each docstring names the row and its rule. -/
inductive Instr where
  /-- POWER_GOOD (R665). -/
  | powerGood
  /-- RAIL_FAULT (R743). Operands: `vcsw`: the causeway supply has left its window too. -/
  | railFault (vcsw : Bool)
  /-- CRYSTAL_WINDOW (R671). Operands: crystal cycles counted in the window, whether an edge was missing, and the time. -/
  | crystalWindow (count : Nat) (gap : Bool) (at_ : Nat)
  /-- CLOCK_HOLDOVER_LIMIT (R674). -/
  | clockHoldoverLimit (at_ : Nat)
  /-- XTAL_RETURN (R675). -/
  | xtalReturn
  /-- PLL_RETUNE (R677). Operands: kind 0 core, 1 HBM, 2 optical port, and its unit. -/
  | pllRetune (kind unit : Nat)
  /-- PLL_FAIL (R677). Operands: as for a retune. -/
  | pllFail (kind unit at_ : Nat)
  /-- HARBOUR_MODE_OPEN (R667). Operands: results of self-test and training: per die 0 passed, 1 self-test failed, 2 HBM failed; failed physical cores; failed regions. -/
  | harbourModeOpen (dies cores regions : List Nat) (at_ : Nat)
  /-- FULL_SERVICE_OPEN (R670). Operands: the shells that have stayed without light for 10 s. -/
  | fullServiceOpen (dark : List Nat) (at_ : Nat)
  /-- FIRMWARE_UPDATE (R679). -/
  | firmwareUpdate
  /-- COMMIT_SVN (R680). -/
  | commitSvn
  /-- PACKAGE_RESET (R690). -/
  | packageReset
  /-- DIE_RESET (R690). Operands: how self-test and training went: STATUS 0 to 2, and the physical cores that failed. -/
  | dieReset (die stat : Nat) (cores : List Nat) (at_ : Nat)
  /-- SHELL_INSERTED (R695). Operands: shell 0 to 37 and its identity memory image. -/
  | shellInserted (shell : Nat) (image : List Byte) (at_ : Nat)
  /-- SHELL_REMOVED (R753). -/
  | shellRemoved (shell at_ : Nat)
  /-- ADDR_TOKEN (R687). Operands: CHASSIS, NEXT and the flags of the token. -/
  | addrToken (cell : CellHdr) (chassis nextPos : Nat) (conflict full : Bool)
  /-- STATUS_CELL (R691). Operands: package power as measured. -/
  | statusCell (power at_ : Nat)
  /-- REG_READ (R689). -/
  | regReadCell (cell : CellHdr) (off tag : Nat)
  /-- REG_WRITE (R689). -/
  | regWriteCell (cell : CellHdr) (off tag value : Nat)
  /-- RESET_CELL (R690). Operands: DOMAIN and INDEX; entries in the crossing of a port; how the self-test of a die went. -/
  | resetCell (cell : CellHdr) (domain index inFifo stat : Nat) (cores : List Nat) (at_ : Nat)
  /-- WAKE_CELL (R454). -/
  | wakeCell (cell : CellHdr) (at_ : Nat)
  /-- PKG_OFF (R692). -/
  | pkgOff (cell : CellHdr) (pkg at_ : Nat)
  /-- FLASH_WRITE (R689). -/
  | flashWriteCell (cell : CellHdr) (off : Nat) (data : List Byte)
  /-- RING_HEAD (R686). -/
  | ringHead
  /-- CAUSEWAY_RECEIVER_LOCK (R686). -/
  | receiverLock
  /-- TICK (R56). Operands: per die: the highest junction temperature of the ending frame in 0.125 °C, and its rail energy in nJ. -/
  | tick (temps energies : List Nat)
  /-- SET_UP_TICK (R736). Operands: as for a tick. -/
  | setUpTick (temps energies : List Nat)
  /-- STRETCH_LIMIT (R53). -/
  | stretchLimit (part at_ : Nat)
  /-- STEP_FRAME_LIMIT (R48). -/
  | stepFrameLimit (part at_ : Nat)
  /-- INTAKE_BOUNDARY (R30). -/
  | intakeBoundary (at_ : Nat)
  /-- WORK_BOUNDARY (R30). -/
  | workBoundary (at_ : Nat)
  /-- REDUCE_BOUNDARY (R34). -/
  | reduceBoundary (at_ : Nat)
  /-- COMMIT_BOUNDARY (R30). -/
  | commitBoundary (at_ : Nat)
  /-- SCHEDULER_TICK (R414). -/
  | schedulerTick (at_ : Nat)
  /-- TICK_MESSAGE (R67). Operands: the fields of TICK (R499). -/
  | tickMessage (rx : Rx) (depth master : Nat) (staged : Bool) (frame time : Nat) (correction : Int) (period stPeriod phase stPhase applyAt : Nat)
  /-- TICK_HOLDOVER (R71). -/
  | tickHoldover (at_ : Nat)
  /-- HOLDOVER_LIMIT (R71). -/
  | holdoverLimit (at_ : Nat)
  /-- BACKUP_MASTER (R638). -/
  | backupMaster (at_ : Nat)
  /-- STRETCH (R54). -/
  | stretch (rx : Rx) (group frame : Nat)
  /-- FRM_PERIOD (R38). Operands: the value written. -/
  | frmPeriod (v : Word)
  /-- FRM_PHASE (R38). Operands: the value written. -/
  | frmPhase (v : Word)
  /-- FRM_EPOCH (R56). Operands: the value written. -/
  | frmEpoch (v : Word)
  /-- FRAMES_ENABLE (R76). -/
  | framesEnable
  /-- FRAMES_DISABLE (R77). -/
  | framesDisable
  /-- NOP (R100). -/
  | nop (step : OpStep) (ctx : Nat)
  /-- INGEST (R618). -/
  | ingest (step : OpStep) (ctx : Nat)
  /-- SAMPLE (R166). -/
  | sample (step : OpStep) (ctx : Nat)
  /-- GATHER (R175). -/
  | gather (step : OpStep) (ctx : Nat)
  /-- AGGREGATE (R310). -/
  | aggregate (step : OpStep) (ctx : Nat)
  /-- DENSE (R302). -/
  | dense (step : OpStep) (ctx : Nat)
  /-- EPILOGUE (R315). -/
  | epilogue (step : OpStep) (ctx : Nat)
  /-- LOSS (R97). -/
  | loss (step : OpStep) (ctx : Nat)
  /-- SCATTER (R194). -/
  | scatter (step : OpStep) (ctx : Nat)
  /-- UPDATE (R357). -/
  | update (step : OpStep) (ctx : Nat)
  /-- UPDATE_TABLE (R357). -/
  | updateTable (step : OpStep) (ctx : Nat)
  /-- EXCHANGE (R546). -/
  | exchange (step : OpStep) (ctx : Nat)
  /-- REDUCE (R540). -/
  | reduce (step : OpStep) (ctx : Nat)
  /-- PREDICT (R343). -/
  | predict (step : OpStep) (ctx : Nat)
  /-- COPY_PLAIN (R336). -/
  | copyPlain (step : OpStep) (ctx : Nat)
  /-- COPY_COMPRESS (R337). -/
  | copyCompress (step : OpStep) (ctx : Nat)
  /-- COPY_EXPAND (R336). -/
  | copyExpand (step : OpStep) (ctx : Nat)
  /-- COPY_GROUP (R340). -/
  | copyGroup (step : OpStep) (ctx : Nat)
  /-- VERSION_SWITCH (R243). -/
  | versionSwitch (step : OpStep) (ctx : Nat)
  /-- ROW_BY_ROW_REPLACE (R250). -/
  | rowReplace (step : OpStep) (ctx : Nat)
  /-- MIGRATE_ROWS (R266). -/
  | migrateRows (step : OpStep) (ctx : Nat)
  /-- HOT_SET_REFRESH (R256). -/
  | hotSetRefresh (step : OpStep) (ctx : Nat)
  /-- SKETCH_READ (R264). -/
  | sketchRead (step : OpStep) (ctx : Nat)
  /-- FENCE (R105). -/
  | fence (step : OpStep) (ctx : Nat)
  /-- COMMIT (R368). -/
  | commit (step : OpStep) (ctx : Nat)
  /-- SIGNAL_WRITE (R457). -/
  | signalWrite (step : OpStep) (ctx : Nat)
  /-- SIGNAL_ATOMIC_ADD (R457). -/
  | signalAdd (step : OpStep) (ctx : Nat)
  /-- SIGNAL_VECTOR (R589). -/
  | signalVector (step : OpStep) (ctx : Nat)
  /-- POOL_ALLOCATE (R758). -/
  | poolAllocate (step : OpStep) (ctx : Nat)
  /-- POOL_FREE (R123). -/
  | poolFree (step : OpStep) (ctx : Nat)
  /-- RANDOM_STREAM_REWIND (R386). -/
  | streamRewind (step : OpStep) (ctx : Nat)
  /-- STRAGGLER_POLICY (R375). -/
  | stragglerPolicy (step : OpStep) (ctx : Nat)
  /-- GROUP_DEFINE (R524). -/
  | groupDefine (step : OpStep) (ctx : Nat)
  /-- CHART_RELEASE (R190). -/
  | chartRelease (step : OpStep) (ctx : Nat)
  /-- DEDUP_BLOCK_OPEN (R172). Operands: the cluster that waits, and the one whose block closes. -/
  | dedupBlockOpen (cluster closing : Nat)
  /-- REGION_MERGE_EMIT (R198). -/
  | regionMergeEmit (ctx region : Nat)
  /-- REDUCE_PIECE_COMBINE (R542). -/
  | reducePieceCombine (ctx piece : Nat)
  /-- ABORT_RESTORE (R367). -/
  | abortRestore (part : Nat)
  /-- PRIMARY_OPERATION_START (R101). -/
  | primaryStart (part : Nat)
  /-- SECONDARY_OPERATION_START (R102). -/
  | secondaryStart (ctx : Nat)
  /-- TASK_DISPATCH (R434). Operands: the logical core that is free. -/
  | taskDispatch (core at_ : Nat)
  /-- TASK_FINISH (R305). -/
  | taskFinish (core at_ : Nat)
  /-- COMPLETION_WRITE (R117). -/
  | completionWrite (part : Nat)
  /-- CREDIT_WAIT_STEP_DOWN (R438). -/
  | creditWaitStepDown (region : Nat)
  /-- CREDIT_STEP_UP (R439). -/
  | creditStepUp (region : Nat)
  /-- LAG_ALARM (R442). -/
  | lagAlarm (ctx at_ : Nat)
  /-- ALIAS_REBUILD (R151). -/
  | aliasRebuild
  /-- ROW_MOVE_COPY (R258). -/
  | rowMoveCopy
  /-- SKETCH_DECAY (R262). -/
  | sketchDecay
  /-- MOV (R318). -/
  | mov (d : VReg) (a : Nat)
  /-- CONST (R318). Operands: IMM, 16 bits. -/
  | const (d : VReg) (imm : Nat)
  /-- CONSTLO (R318). Operands: IMM, 16 bits. -/
  | constLo (d : VReg) (imm : Nat)
  /-- LDAUX (R316). Operands: MOD: slot and broadcast mode. -/
  | ldaux (d : VReg) (mod : Nat)
  /-- LDIDX (R318). Operands: MOD: 0 row, 1 column. -/
  | ldidx (d : VReg) (mod : Nat)
  /-- ADD (R318). -/
  | add (d : VReg) (a b : Nat)
  /-- SUB (R318). -/
  | sub (d : VReg) (a b : Nat)
  /-- MUL (R318). -/
  | mul (d : VReg) (a b : Nat)
  /-- DIV (R318). -/
  | div (d : VReg) (a b : Nat)
  /-- MAX (R295). -/
  | max (d : VReg) (a b : Nat)
  /-- MIN (R295). -/
  | min (d : VReg) (a b : Nat)
  /-- LEAKY (R318). -/
  | leaky (d : VReg) (a b : Nat)
  /-- CMPGT (R318). -/
  | cmpGt (d : VReg) (a b : Nat)
  /-- CMPGE (R318). -/
  | cmpGe (d : VReg) (a b : Nat)
  /-- CMPEQ (R318). -/
  | cmpEq (d : VReg) (a b : Nat)
  /-- FMA (R318). -/
  | fma (d : VReg) (a b c : Nat)
  /-- CLAMP (R318). -/
  | clamp (d : VReg) (a b c : Nat)
  /-- SEL (R318). -/
  | sel (d : VReg) (a b c : Nat)
  /-- RCP (R318). -/
  | rcp (d : VReg) (a : Nat)
  /-- SQRT (R318). -/
  | sqrt (d : VReg) (a : Nat)
  /-- RSQRT (R318). -/
  | rsqrt (d : VReg) (a : Nat)
  /-- ABS (R318). -/
  | abs (d : VReg) (a : Nat)
  /-- NEG (R318). -/
  | neg (d : VReg) (a : Nat)
  /-- RELU (R318). -/
  | relu (d : VReg) (a : Nat)
  /-- ISFIN (R318). -/
  | isFin (d : VReg) (a : Nat)
  /-- FLOOR (R318). -/
  | floor (d : VReg) (a : Nat)
  /-- ROUNDI (R318). -/
  | roundI (d : VReg) (a : Nat)
  /-- EXP (R319). -/
  | exp (d : VReg) (a : Nat)
  /-- LOG (R319). -/
  | log (d : VReg) (a : Nat)
  /-- TANH (R319). -/
  | tanh (d : VReg) (a : Nat)
  /-- SIGMOID (R319). -/
  | sigmoid (d : VReg) (a : Nat)
  /-- ERF (R319). -/
  | erf (d : VReg) (a : Nat)
  /-- COS (R319). -/
  | cos (d : VReg) (a : Nat)
  /-- GELU (R319). -/
  | gelu (d : VReg) (a : Nat)
  /-- SILU (R319). -/
  | silu (d : VReg) (a : Nat)
  /-- SOFTPLUS (R319). -/
  | softplus (d : VReg) (a : Nat)
  /-- RNDFMT (R318). Operands: MOD: the format. -/
  | rndFmt (d : VReg) (a mod : Nat)
  /-- RSUM (R321). -/
  | rsum (d : VReg) (a : Nat)
  /-- RMAX (R321). -/
  | rmax (d : VReg) (a : Nat)
  /-- RMIN (R321). -/
  | rmin (d : VReg) (a : Nat)
  /-- RDOT (R321). -/
  | rdot (d : VReg) (a b : Nat)
  /-- RAND (R321). -/
  | rand (d : VReg)
  /-- OUT (R318). -/
  | out (a : VReg)
  /-- LOAD (R457). -/
  | syncLoad (core ctx addr : Nat)
  /-- STORE (R457). -/
  | syncStore (core ctx addr value : Nat)
  /-- SYNC_ADD (R457). -/
  | syncAdd (core ctx addr value : Nat)
  /-- ARM (R462). Operands: monitor 0 to 3, offset in the core's SRAM, compare value, condition. -/
  | arm (core mon off cmp cond : Nat)
  /-- DISARM (R463). -/
  | disarm (core mon : Nat)
  /-- WAIT (R464). Operands: the limit L in cycles. -/
  | wait (core limit at_ : Nat)
  /-- WAIT_LIMIT_EXPIRY (R464). -/
  | waitLimitExpiry (core at_ : Nat)
  /-- ARRIVE (R471). Operands: barrier 0 to 15 of the core's partition. -/
  | arrive (core bar : Nat)
  /-- BARRIER_RELEASE (R473). Operands: the instance: cluster, region, die or package. -/
  | barrierRelease (part bar unit : Nat)
  /-- BARRIER (R476). Operands: RELEASE and PARTIAL of the message. -/
  | barrier (rx : Rx) (bar : Nat) (release part : Bool) (generation group frame : Nat)
  /-- WATCH (R468). -/
  | watch (rx : Rx) (ctx submit frame : Nat)
  /-- POSTED_WRITE (R213). Operands: ADDR in the space 4 form; `add` for an atomic add. -/
  | postedWrite (rx : Rx) (ctx : Nat) (relaxed : Bool) (handle e2e addr : Nat) (add : Bool) (data : List Byte)
  /-- POSTED_WRITE_RESEND (R508). Operands: the destination package. -/
  | postedWriteResend (dst at_ : Nat)
  /-- E2E_ACK (R215). -/
  | e2eAck (rx : Rx) (vc nextSeq : Nat)
  /-- LATE_ERROR (R217). -/
  | lateError (rx : Rx) (ctx reason frame tag addr e2e : Nat)
  /-- OP_BIND (R501). -/
  | opBind (rx : Rx) (ctx handle tag frame : Nat)
  /-- GRAD_RECORD (R204). Operands: 64 values, BF16 ones widened; `first` is COL_FIRST (log entry 21). -/
  | gradRecord (rx : Rx) (bf16 : Bool) (segment first ctx count row key : Nat) (vals : List W32)
  /-- CLOSE_NOTICE (R209). -/
  | closeNotice (rx : Rx) (ctx key count handle frame : Nat)
  /-- COLLECTIVE (R537). -/
  | collective (rx : Rx) (ctx group chunk part : Nat) (last : Bool) (data : List Byte)
  /-- READ_REQ (R389). -/
  | readReq (rx : Rx) (ctx tag len addr : Nat)
  /-- ROW_REQ (R232). -/
  | rowReq (rx : Rx) (ctx tiers requester tag colFirst colCount row key version : Nat)
  /-- READ_RESP (R232). -/
  | readResp (rx : Rx) (status part tag homeAddr : Nat) (last : Bool) (data : List Byte)
  /-- ROW_WRITE (R239). -/
  | rowWrite (rx : Rx) (ctx handle e2e requester tag key row : Nat) (undo : Bool) (data : List Byte)
  /-- VERDICT (R370). Operands: VERDICT: 0 commit, 1 tainted, 2 non-finite. -/
  | verdict (rx : Rx) (group vote frame : Nat)
  /-- WAKE (R454). -/
  | wake (rx : Rx)
  /-- HELLO (R518). -/
  | hello (strait version pkg port at_ : Nat)
  /-- STATUS_FLIT (R493). Operands: how it decoded (R486). -/
  | statusFlit (strait : Nat) (payload : StatusFlit) (at_ code : Nat)
  /-- STATUS_FLIT_DUE (R497). -/
  | statusFlitDue (strait at_ : Nat)
  /-- FLIT_RETRY_TIMEOUT (R495). -/
  | flitRetryTimeout (strait vc at_ : Nat)
  /-- LANE_FAULT (R510). Operands: fiber, wavelength, and the counter of the last codeword received. -/
  | laneFault (strait fiber wl counter at_ : Nat)
  /-- LANE_SWITCH (R511). -/
  | laneSwitch (strait counter at_ : Nat)
  /-- LIGHT_LOSS (R513). -/
  | lightLoss (strait at_ : Nat)
  /-- STRAIT_DOWN (R507). -/
  | straitDown (strait at_ : Nat)
  /-- RETRAIN_TIMEOUT (R496). -/
  | retrainTimeout (strait at_ : Nat)
  /-- RETRAIN (R496). -/
  | retrain (strait : Nat)
  /-- STRAIT_DISABLE (R523). -/
  | straitDisable (strait : Nat)
  /-- LINK_TRAINING (R516). Operands: the fibers of each direction that did not train, as bits. -/
  | linkTraining (strait txDown rxDown at_ : Nat)
  /-- RECALIBRATION (R515). -/
  | recalibration (strait at_ : Nat)
  /-- KEEPALIVE_WAKE_RETRAIN (R521). -/
  | keepaliveWake (strait at_ : Nat)
  /-- DATA_FRAME (R606). -/
  | dataFrame (rx : FRx) (payload : List Byte)
  /-- CREDIT (R610). -/
  | credit (rx : FRx)
  /-- ACK (R608). -/
  | ack (rx : FRx)
  /-- NAK (R608). -/
  | nak (rx : FRx)
  /-- HELLO_FRAME (R616). Operands: NEXT and the allotment of each channel. -/
  | helloFrame (rx : FRx) (version : Nat) (nexts allots : List Nat)
  /-- READ_DATA (R622). -/
  | readData (rx : FRx) (payload : List Byte)
  /-- WRITE_ACK (R623). -/
  | writeAck (rx : FRx)
  /-- FRAME_RESEND_TIMEOUT (R608). -/
  | frameResendTimeout (ferry channel at_ : Nat)
  /-- FLASH_TIMEOUT (R622). -/
  | flashTimeout (ferry tag at_ : Nat)
  /-- FERRY_RESET (R613). Operands: how many entries the crossing held. -/
  | ferryReset (ferry inFifo at_ : Nat)
  /-- FERRY_LANE_LOSS (R599). -/
  | ferryLaneLoss (ferry at_ : Nat)
  /-- FERRY_TRAINING (R616). Operands: the lanes that trained. -/
  | ferryTraining (ferry lanes at_ : Nat)
  /-- CHANNEL_ENABLE (R625). Operands: the value written to FRY_CH_CFG. -/
  | channelEnable (ferry channel : Nat) (v : Word)
  /-- SQ_TAIL (R587). Operands: function and doorbell page. -/
  | sqTail (fn page value at_ : Nat)
  /-- CQ_HEAD (R584). Operands: function and doorbell page. -/
  | cqHead (fn page value at_ : Nat)
  /-- DOORBELL_RESET (R586). Operands: function and doorbell page. -/
  | doorbellReset (fn page value at_ : Nat)
  /-- MODERATION_TIMER (R590). -/
  | moderationTimer (fn vec at_ : Nat)
  /-- CONTEXT_ENABLE (R571). Operands: the value written to CTX_CTRL. -/
  | contextEnable (ctx : Nat) (v : Word)
  /-- CONTEXT_RESET (R592). -/
  | contextReset (ctx : Nat)
  /-- CONTEXT_RESET_DONE (R592). -/
  | contextResetDone (ctx : Nat)
  /-- SEG_RELOAD (R576). -/
  | segReload (ctx : Nat)
  /-- PARTITION_SET_UP (R566). Operands: the value written to HST_PART_CTRL. -/
  | partitionSetUp (part : Nat) (v : Word)
  /-- PARTITION_TEAR_DOWN (R567). -/
  | partitionTearDown (part : Nat)
  /-- FLR_VF (R594). -/
  | flrVf (fn at_ : Nat)
  /-- FLR_PF (R594). -/
  | flrPf (at_ : Nat)
  /-- ATS_INVALIDATION (R580). Operands: PASID with 2^20 added where one is named; first page and number of pages. -/
  | atsInvalidation (fn pasid page pages : Nat)
  /-- HOST_LINK_DOWN (R561). -/
  | hostLinkDown (at_ : Nat)
  /-- HOST_LINK_UP (R561). Operands: what HST_LINK reads, and VF Enable and NumVFs as the host sets them (log entry 9). -/
  | hostLinkUp (rate width : Nat) (flit rev vfEnable : Bool) (numVfs at_ : Nat)
  /-- HOST_ACCESS_FAILURE (R562). Operands: the offset of the slot through which the access was made. -/
  | hostAccessFailure (ctx slot : Nat)
  /-- BAR4_READ (R564). -/
  | bar4Read (off len : Nat)
  /-- BAR4_WRITE (R564). -/
  | bar4Write (off : Nat) (data : List Byte)
  /-- GET_VERSION (R595). Operands: the request. -/
  | spdmVersion (req : List Byte)
  /-- GET_CAPABILITIES (R595). Operands: the request. -/
  | spdmCapabilities (req : List Byte)
  /-- NEGOTIATE_ALGORITHMS (R595). Operands: the request. -/
  | spdmAlgorithms (req : List Byte)
  /-- GET_DIGESTS (R595). Operands: the request. -/
  | spdmDigests (req : List Byte)
  /-- GET_CERTIFICATE (R595). Operands: the request. -/
  | spdmCertificate (req : List Byte)
  /-- CHALLENGE (R595). Operands: the request. -/
  | spdmChallenge (req : List Byte)
  /-- GET_MEASUREMENTS (R595). Operands: the measurement operation and the request. -/
  | spdmMeasurements (op : Nat) (req : List Byte)
  /-- KEY_EXCHANGE (R595). Operands: the request. -/
  | spdmKeyExchange (req : List Byte)
  /-- FINISH (R595). Operands: the request. -/
  | spdmFinish (req : List Byte)
  /-- END_SESSION (R595). Operands: the request. -/
  | spdmEndSession (req : List Byte)
  /-- IDE_KEY_MANAGEMENT (R596). Operands: stream 0 link, 1 to 8 selective; keys set in service or taken out. -/
  | ideKeys (stream : Nat) (set : Bool)
  /-- DEV_LOCK (R737). Operands: the value written. -/
  | devLock (v : Word)
  /-- REGISTER_WRITE (R735). Operands: BAR0 offset, bytes and value. -/
  | registerWrite (addr size value : Nat)
  /-- VF_BAR0_WRITE (R590). -/
  | vfBar0Write (fn off size value : Nat)
  /-- IRQ_CP_EOI (R711). -/
  | irqCpEoi (cp : Nat)
  /-- IRQ_HOST_ACK (R712). Operands: the value written: VECTOR. -/
  | irqHostAck (v : Word)
  /-- IRQ_DELIVERY (R710). Operands: control processor 0 to 3, or a host vector (4). -/
  | irqDelivery (target at_ : Nat)
  /-- CP_HOLD_TIMER (R714). -/
  | cpHoldTimer (cp at_ : Nat)
  /-- EVENT_RECORD_WRITE (R705). Operands: whether a write to host memory succeeds. -/
  | eventRecordWrite (ok : Bool) (at_ : Nat)
  /-- EVENT_COALESCING (R706). Operands: TYPE, source and DETAIL0 of the event. -/
  | eventCoalescing (typ src detail : Nat)
  /-- EVENTS_LOST (R707). -/
  | eventsLost
  /-- EVT_RING_HEAD (R704). Operands: the value written. -/
  | evtRingHead (v : Word)
  /-- EVENT_RING_ENABLE (R702). Operands: the value written to EVT_RING_CTRL. -/
  | eventRingEnable (v : Word)
  /-- TELEMETRY_SNAPSHOT (R723). -/
  | telemetrySnapshot
  /-- S_STATE_REQUEST (R453). Operands: the value written to PWR_CTRL. -/
  | sStateRequest (v : Word)
  /-- S_STATE_ENTRY (R453). -/
  | sStateEntry (at_ : Nat)
  /-- S_STATE_WAKE (R454). -/
  | sStateWake
  /-- DIE_OVERTEMP (R427). Operands: temperature in 0.125 °C. -/
  | dieOvertemp (die temp at_ : Nat)
  /-- SCRUB (R402). Operands: the bursts of which something is found erroneous. -/
  | scrub (stack : Nat) (errs : List BurstErr) (at_ : Nat)
  /-- BOUNDED_SLOT (R449). Operands: 0 scrub, 1 recalibration, 2 row moves, 3 alias rebuilds, and its unit's source. -/
  | boundedSlot (activity src at_ : Nat)
  /-- UNCORRECTABLE_BURST (R401). Operands: what the read of the burst finds, and the partition whose frame reads it. -/
  | uncorrectableBurst (err : BurstErr) (reader : Option Nat) (at_ : Nat)
  /-- CE_WINDOW_END (R405). -/
  | ceWindowEnd (channel : Nat)
  /-- PLANNED_MAPOUT (R409). Operands: lines copied in this command. -/
  | plannedMapout (channel lines at_ : Nat)
  /-- IMMEDIATE_MAPOUT (R410). -/
  | immediateMapout (channel at_ : Nat)
  /-- CORE_FAULT (R628). Operands: physical core, and the 2 KiB lines of its SRAM that fail their check. -/
  | coreFault (core : Nat) (bad : List Nat) (at_ : Nat)
  /-- REGION_FAULT (R636). -/
  | regionFault (region at_ : Nat)
  /-- DIE_FAULT (R627). -/
  | dieFault (die at_ : Nat)
  /-- RECOVERY_END (R631). Operands: how long it took, in ns. -/
  | recoveryEnd (part took at_ : Nat)
  /-- CP_WATCHDOG (R627). -/
  | cpWatchdog (cp at_ : Nat)
  /-- PACKAGE_LOST (R639). Operands: whether the management ring reports it off. -/
  | packageLost (pkg : Nat) (off : Bool) (at_ : Nat)
  /-- SHOAL_ENABLE (R641). Operands: the value written to RAS_SHOAL_CTRL. -/
  | shoalEnable (v : Word)
  /-- SHOAL_INIT (R649). -/
  | shoalInit
  /-- DELTA (R645). -/
  | delta (rx : Rx) (part slot sealNo e2e : Nat) (data : List Byte)
  /-- SEAL (R645). -/
  | sealNotice (rx : Rx) (sealNo count e2e : Nat)
  /-- PARITY_ACK (R645). -/
  | parityAck (rx : Rx) (sealNo e2e : Nat)
  /-- PARITY_READ (R650). Operands: J 1 for a parity slot; `tag` returns with the data (log entry 31). -/
  | parityRead (rx : Rx) (j part line sealNo tag e2e : Nat)
  /-- PARITY_READ_DATA (R651). -/
  | parityReadData (rx : Rx) (part line tag e2e : Nat) (data : List Byte)
  /-- REVERT (R654). -/
  | revert (rx : Rx) (lost sealNo e2e : Nat)
  /-- SEAL_QUERY (R654). -/
  | sealQuery (rx : Rx) (lost e2e : Nat)
  /-- SEAL_REPORT (R654). -/
  | sealReport (rx : Rx) (j lost sealNo e2e : Nat)
  /-- PROTECTED_WRITE_STALE (R648). Operands: memory key and length of the unlogged write. -/
  | protectedWriteStale (key len : Nat)
  /-- RAS_ALIAS (R656). Operands: the value written. -/
  | rasAlias (v : Word)
  /-- STANDBY_REBUILD (R656). -/
  | standbyRebuild (first lines : Nat)
  /-- SPREAD_REBUILD (R657). -/
  | spreadRebuild (first lines : Nat)
  deriving DecidableEq, Repr, Inhabited

end Sys2Proof
end

