-- ==== Sys2Proof/Decode.lean ====
section
/-! DEFINITION. The command table gives its rows no bits, so no word spells a command (log entry 13). -/

namespace Sys2Proof

/-- The command that a word of the command table spells: none, since no row has bits. -/
def decodeTableWord (_nbits _w : Nat) : Option Instr := none

end Sys2Proof
end

