-- ==== Sys2Proof/Machine/Bits.lean ====
section
/-! DEFINITION. Bit fields, little-endian fields over bytes, saturating counts, and sparse stores kept in one canonical form. -/

namespace Sys2Proof.Machine

/-- Bits `lo … lo + w - 1` of a natural number read as a little-endian bit string (R10). -/
def bitsN (v lo w : Nat) : Nat := v / 2 ^ lo % 2 ^ w

/-- Bit `i` of `v`. -/
def bitN (v i : Nat) : Bool := v / 2 ^ i % 2 == 1

/-- `v` with bits `lo … lo + w - 1` replaced by `x`. -/
def putN (v lo w x : Nat) : Nat := v - bitsN v lo w * 2 ^ lo + x % 2 ^ w * 2 ^ lo

/-- The signed value of a `w`-bit two's complement number. -/
def signedN (w v : Nat) : Int :=
  if v % 2 ^ w < 2 ^ (w - 1) then (v % 2 ^ w : Nat) else (v % 2 ^ w : Nat) - (2 ^ w : Nat)

/-- The `w`-bit two's complement encoding of an integer. -/
def encodeInt (w : Nat) (x : Int) : Nat := (x % ((2 ^ w : Nat) : Int)).toNat

/-- Ceiling division. -/
def cdiv (a b : Nat) : Nat := (a + b - 1) / b

/-- `a` rounded up to a multiple of `b`. -/
def roundUp (a b : Nat) : Nat := cdiv a b * b

/-- A count that stops at its largest `w`-bit value. -/
def satAdd (w a b : Nat) : Nat := min (a + b) (2 ^ w - 1)

/-- The number of set bits among the low `n` bits of `v`. -/
def popCount : Nat → Nat → Nat
  | 0, _ => 0
  | n + 1, v => v % 2 + popCount n (v / 2)

/-- The indices below `n` of the set bits of `v`, rising. -/
def setBits (n v : Nat) : List Nat := (List.range n).filter (fun i => bitN v i)

/-- The natural number that a byte list spells, lowest byte first (R9). -/
def leBytes : List Byte → Nat
  | [] => 0
  | b :: bs => b.toNat + 256 * leBytes bs

/-- The low `n` bytes of `v`, lowest first (R9). -/
def toLe : Nat → Nat → List Byte
  | 0, _ => []
  | n + 1, v => BitVec.ofNat 8 v :: toLe n (v / 256)

/-! ### Sparse stores: association lists with strictly rising keys -/

/-- The value stored under a key, if any. -/
def sget {α : Type} (k : Nat) : List (Nat × α) → Option α
  | [] => none
  | (k', v) :: r => if k = k' then some v else sget k r

/-- Store a value under a key, keeping the keys rising. -/
def sput {α : Type} (k : Nat) (v : α) : List (Nat × α) → List (Nat × α)
  | [] => [(k, v)]
  | (k', v') :: r =>
    if k < k' then (k, v) :: (k', v') :: r
    else if k = k' then (k, v) :: r
    else (k', v') :: sput k v r

/-- Remove a key. -/
def sdel {α : Type} (k : Nat) (l : List (Nat × α)) : List (Nat × α) := l.filter (fun x => x.1 != k)

/-- The value under a key, or a default. -/
def sgetD {α : Type} (k : Nat) (d : α) (l : List (Nat × α)) : α := (sget k l).getD d

/-- Update the value under a key, starting from a default where none is stored. -/
def smod {α : Type} (k : Nat) (d : α) (f : α → α) (l : List (Nat × α)) : List (Nat × α) :=
  sput k (f (sgetD k d l)) l

/-- The keys of a store rise strictly. -/
def rising {α : Type} : List (Nat × α) → Bool
  | [] => true
  | [_] => true
  | (a, _) :: (b, v) :: r => decide (a < b) && rising ((b, v) :: r)

/-- Add an element to a set kept as a list without repeats. -/
def insertNew {α : Type} [DecidableEq α] (a : α) (l : List α) : List α := if a ∈ l then l else l ++ [a]

/-- Sum of a list of naturals. -/
def sumN (l : List Nat) : Nat := l.foldl (· + ·) 0

/-- The element of a list at an index, or a default. -/
def nthD {α : Type} (l : List α) (i : Nat) (d : α) : α := (l[i]?).getD d

/-- The lowest number below a bound that a list does not hold. -/
def firstFree (used : List Nat) (n : Nat) : Option Nat := (List.range (min n (used.length + 1))).find? (fun i => decide (i ∉ used))

/-- The first index at which a predicate holds. -/
def findIdxN {α : Type} (p : α → Bool) : Nat → List α → Option Nat
  | _, [] => none
  | i, a :: r => if p a then some i else findIdxN p (i + 1) r

end Sys2Proof.Machine
end

