-- ==== Sys2Proof/Machine/Float.lean ====
section
/-! DEFINITION. Exact values, rounding, encodings and conversions (ch. 7, R272–R295). -/

namespace Sys2Proof.Machine

/-- A value: NaN, an infinity, or ± m × 2^e with a signed zero (R272, R281). -/
inductive FV where
  | nan
  | inf (neg : Bool)
  | fin (neg : Bool) (m : Nat) (e : Int)
  deriving DecidableEq, Repr, Inhabited

namespace FV

/-- +0. -/
def zero : FV := .fin false 0 0

/-- An integer as a value. -/
def ofInt (x : Int) : FV := .fin (decide (x < 0)) x.natAbs 0

def isNan : FV → Bool
  | .nan => true
  | _ => false

/-- Whether a value is an infinity or NaN (R296). -/
def nonfinite : FV → Bool
  | .fin .. => false
  | _ => true

def isZero : FV → Bool
  | .fin _ 0 _ => true
  | _ => false

/-- Sign bit of a value; NaN counts as positive. -/
def sign : FV → Bool
  | .nan => false
  | .inf n => n
  | .fin n _ _ => n

def neg : FV → FV
  | .nan => .nan
  | .inf n => .inf (!n)
  | .fin n m e => .fin (!n) m e

def abs : FV → FV
  | .nan => .nan
  | .inf _ => .inf false
  | .fin _ m e => .fin false m e

/-- floor(log2 |v|) of a non-zero finite value. -/
def log2 (m : Nat) (e : Int) : Int := (Nat.log2 m : Int) + e

/-- m × 2^e over 2^lsb, rounded to nearest, ties to even, to a whole number. -/
def quant (m : Nat) (e lsb : Int) : Nat :=
  if lsb ≤ e then m * 2 ^ (e - lsb).toNat
  else
    let d := 2 ^ (lsb - e).toNat
    let q := m / d
    let r := m % d
    if 2 * r > d ∨ (2 * r = d ∧ q % 2 = 1) then q + 1 else q

/-- Round to p significant bits, with the smallest normal exponent emin and the largest exponent emax: gradual underflow, overflow to infinity, nearest, ties to even (R289). -/
def round (p : Nat) (emin emax : Int) : FV → FV
  | .nan => .nan
  | .inf n => .inf n
  | .fin n 0 _ => .fin n 0 0
  | .fin n m e =>
    let lsb := max (log2 m e - (p - 1 : Nat)) (emin - (p - 1 : Nat))
    let q := quant m e lsb
    if q = 0 then .fin n 0 0
    else if emax < log2 q lsb then .inf n
    else .fin n q lsb

/-- FP32 (R287). -/
def f32 : FV → FV := round 24 (-126) 127

/-- binary64, for the control processor and norms (R151, R357, R360). -/
def f64 : FV → FV := round 53 (-1022) 1023

/-- XF32: 24 significant bits, no subnormals; R282 says its exponent range is never left (R281). -/
def xf (v : FV) : FV := round 24 (-1000000) 1000000 v

/-- Sum of two finite values, exactly; an exact zero is +0 unless both are −0 (R286). -/
def addFin (n1 : Bool) (m1 : Nat) (e1 : Int) (n2 : Bool) (m2 : Nat) (e2 : Int) : FV :=
  let e := min e1 e2
  let a : Int := (m1 * 2 ^ (e1 - e).toNat : Nat)
  let b : Int := (m2 * 2 ^ (e2 - e).toNat : Nat)
  let s := (if n1 then -a else a) + (if n2 then -b else b)
  if s = 0 then .fin (n1 && n2) 0 0 else .fin (decide (s < 0)) s.natAbs e

/-- Exact sum (R286). -/
def add : FV → FV → FV
  | .nan, _ => .nan
  | _, .nan => .nan
  | .inf a, .inf b => if a = b then .inf a else .nan
  | .inf a, _ => .inf a
  | _, .inf b => .inf b
  | .fin n1 m1 e1, .fin n2 m2 e2 => addFin n1 m1 e1 n2 m2 e2

/-- Exact product; an infinity times zero is NaN. -/
def mul : FV → FV → FV
  | .nan, _ => .nan
  | _, .nan => .nan
  | .inf a, .inf b => .inf (a != b)
  | .inf a, .fin b m _ => if m = 0 then .nan else .inf (a != b)
  | .fin a m _, .inf b => if m = 0 then .nan else .inf (a != b)
  | .fin a m1 e1, .fin b m2 e2 => .fin (a != b) (m1 * m2) (e1 + e2)

def sub (a b : FV) : FV := add a b.neg

/-- Quotient of two positive whole numbers with at least `p` + 3 significant bits and a sticky last bit: exact enough to round to `p` bits. -/
def divBits (p m1 m2 : Nat) : Nat × Int :=
  let k := p + 3 + Nat.log2 m2
  let q := m1 * 2 ^ k / m2
  (2 * q + (if m1 * 2 ^ k % m2 = 0 then 0 else 1), -(k : Int) - 1)

/-- Quotient, exact but for a sticky bit below `p` + 3 bits. -/
def div (p : Nat) : FV → FV → FV
  | .nan, _ => .nan
  | _, .nan => .nan
  | .inf _, .inf _ => .nan
  | .inf a, .fin b _ _ => .inf (a != b)
  | .fin a _ _, .inf b => .fin (a != b) 0 0
  | .fin a m1 e1, .fin b m2 e2 =>
    if m2 = 0 then (if m1 = 0 then .nan else .inf (a != b))
    else if m1 = 0 then .fin (a != b) 0 0
    else
      let q := divBits p m1 m2
      .fin (a != b) q.1 (q.2 + e1 - e2)

/-- Integer square root, bit by bit from 2^k down. -/
def isqrtAux : Nat → Nat → Nat → Nat
  | 0, _, r => r
  | k + 1, n, r => isqrtAux k n (if (r + 2 ^ k) * (r + 2 ^ k) ≤ n then r + 2 ^ k else r)

def isqrt (n : Nat) : Nat := isqrtAux (Nat.log2 n / 2 + 1) n 0

/-- Square root with a sticky bit below `p` + 3 bits; of a negative value NaN, of ±0 itself. -/
def sqrt (p : Nat) : FV → FV
  | .nan => .nan
  | .inf n => if n then .nan else .inf false
  | .fin n 0 _ => .fin n 0 0
  | .fin n m e =>
    if n then .nan
    else
      let k := 2 * (p + 4) + (if e % 2 = 0 then 0 else 1)
      let x := m * 2 ^ k
      let r := isqrt x
      .fin false (2 * r + (if r * r = x then 0 else 1)) ((e - (k : Nat)) / 2 - 1)

/-- Whether one value is less than another; NaN is never, and the zeros are equal. -/
def lt : FV → FV → Bool
  | .nan, _ => false
  | _, .nan => false
  | .inf a, .inf b => a && !b
  | .inf a, _ => a
  | _, .inf b => !b
  | .fin n1 m1 e1, .fin n2 m2 e2 =>
    match addFin n1 m1 e1 (!n2) m2 e2 with
    | .fin n m _ => n && m != 0
    | _ => false

/-- Equality of values; NaN equals nothing, and the zeros are equal. -/
def eqv (a b : FV) : Bool := !a.isNan && !b.isNan && !lt a b && !lt b a

/-- Maximum: NaN if either is NaN, −0 below +0 (R295). -/
def maxv (a b : FV) : FV :=
  if a.isNan || b.isNan then .nan
  else if a.isZero && b.isZero then (if a.sign then b else a)
  else if lt a b then b else a

/-- Minimum: NaN if either is NaN, −0 below +0 (R295). -/
def minv (a b : FV) : FV :=
  if a.isNan || b.isNan then .nan
  else if a.isZero && b.isZero then (if a.sign then a else b)
  else if lt b a then b else a

/-- Multiply by a power of two, exactly. -/
def scale (v : FV) (k : Int) : FV :=
  match v with
  | .fin n m e => .fin n m (e + k)
  | v => v

/-- Round down to a whole number. -/
def floorv : FV → FV
  | .fin n m e =>
    if 0 ≤ e then .fin n m e
    else
      let d := 2 ^ (-e).toNat
      let q := m / d
      if n ∧ m % d ≠ 0 then .fin true (q + 1) 0 else .fin n q 0
  | v => v

/-- Round to the nearest whole number, ties to even, keeping the sign of a zero. -/
def nearest : FV → FV
  | .fin n m e => .fin n (quant m e 0) 0
  | v => v

/-- The value as an integer clipped to a range; NaN gives 0 (R291). -/
def toIntClip (lo hi : Int) : FV → Int
  | .nan => 0
  | .inf n => if n then lo else hi
  | .fin n m e =>
    let q : Int := (quant m e 0 : Nat)
    max lo (min hi (if n then -q else q))

/-- sr(v, u): truncated to 24 significant bits, and rounded up in magnitude with the probability of the part cut off (R290). -/
def stoch (u : Nat) : FV → FV
  | .fin n m e =>
    if m = 0 then .fin n 0 0
    else
      let lsb := log2 m e - 23
      if lsb ≤ e then .fin n m e
      else
        let d := 2 ^ (lsb - e).toNat
        if m % d = 0 then .fin n (m / d) lsb
        else
          let t := m % d * 65536 / d
          .fin n (if 65536 ≤ t + u / 65536 % 65536 then m / d + 1 else m / d) lsb
  | v => v

end FV

/-! ### Encodings (R272–R275) -/

/-- A floating-point format: exponent bits, fraction bits, bias; `ofp8` marks E4M3, which has no infinity (R272). -/
structure FFmt where
  eb : Nat
  fb : Nat
  bias : Nat
  ofp8 : Bool
  deriving DecidableEq, Repr

/-- The floating-point formats by ELEMENT code (R272). -/
def fmtOf : Nat → FFmt
  | 0 => ⟨8, 23, 127, false⟩
  | 1 => ⟨8, 7, 127, false⟩
  | 2 => ⟨5, 10, 15, false⟩
  | 3 => ⟨4, 3, 7, true⟩
  | _ => ⟨5, 2, 15, false⟩

/-- The value of an encoding (R272, R273). -/
def FFmt.decode (f : FFmt) (v : Nat) : FV :=
  let frac := v % 2 ^ f.fb
  let ex := v / 2 ^ f.fb % 2 ^ f.eb
  let n := v / 2 ^ (f.fb + f.eb) % 2 == 1
  if ex = 2 ^ f.eb - 1 ∧ !f.ofp8 then (if frac = 0 then .inf n else .nan)
  else if f.ofp8 ∧ ex = 2 ^ f.eb - 1 ∧ frac = 2 ^ f.fb - 1 then .nan
  else if ex = 0 then .fin n frac (1 - (f.bias : Int) - (f.fb : Int))
  else .fin n (2 ^ f.fb + frac) ((ex : Int) - (f.bias : Int) - (f.fb : Int))

/-- The canonical NaN (R272, R294). -/
def FFmt.nanBits (f : FFmt) : Nat :=
  if f.ofp8 then 2 ^ (f.eb + f.fb) - 1 else (2 ^ f.eb - 1) * 2 ^ f.fb + 2 ^ (f.fb - 1)

/-- Largest exponent of a finite value. -/
def FFmt.emax (f : FFmt) : Int := if f.ofp8 then 8 else (f.bias : Int)

/-- The encoding of a value that the format holds exactly. -/
def FFmt.pack (f : FFmt) (n : Bool) (m : Nat) (e : Int) : Nat :=
  let s := if n then 2 ^ (f.eb + f.fb) else 0
  let emin : Int := 1 - (f.bias : Int)
  let lsb := emin - (f.fb : Int)
  if m = 0 then s
  else
    let l := FV.log2 m e
    if l < emin then s + FV.quant m e lsb
    else s + (l + (f.bias : Int)).toNat * 2 ^ f.fb + (FV.quant m e (l - (f.fb : Int)) - 2 ^ f.fb)

/-- The bits of the largest finite value of a sign. -/
def FFmt.maxBits (f : FFmt) (n : Bool) : Nat :=
  (if n then 2 ^ (f.eb + f.fb) else 0) + (if f.ofp8 then 2 ^ (f.eb + f.fb) - 2 else (2 ^ f.eb - 1) * 2 ^ f.fb - 1)

/-- Conversion of a value to a format (R291); `sat` keeps finite values from becoming infinite (R293); `flush` writes results below the smallest normal as zero (R288). -/
def FFmt.convert (f : FFmt) (sat flush : Bool) (v : FV) : Nat :=
  match v with
  | .nan => f.nanBits
  | .inf n => if f.ofp8 then f.nanBits else (if n then 2 ^ (f.eb + f.fb) else 0) + (2 ^ f.eb - 1) * 2 ^ f.fb
  | .fin n m e =>
    let emin : Int := 1 - (f.bias : Int)
    let unb := FV.round (f.fb + 1) (-1000000) 1000000 (.fin n m e)
    let tiny := match unb with | .fin _ m' e' => m' != 0 && decide (FV.log2 m' e' < emin) | _ => false
    if flush && tiny then f.pack n 0 0
    else
      match FV.round (f.fb + 1) emin 1000000 (.fin n m e) with
      | .fin n' m' e' =>
        let big := m' != 0 && (decide (f.emax < FV.log2 m' e')
          || (f.ofp8 && FV.log2 m' e' == 8 && decide (14 < FV.quant m' e' 5)))
        if big then
          (if f.ofp8 ∨ sat then f.maxBits n' else (if n' then 2 ^ (f.eb + f.fb) else 0) + (2 ^ f.eb - 1) * 2 ^ f.fb)
        else f.pack n' m' e'
      | _ => f.nanBits

/-- FP32 bits as a value. -/
def fv32 (b : W32) : FV := (fmtOf 0).decode b.toNat

/-- A value, rounded to FP32, as bits. -/
def bits32 (v : FV) : W32 := BitVec.ofNat 32 ((fmtOf 0).convert false false v)

/-- Whether an FP32 scale or factor field is a positive, finite, normal value (R279). -/
def posNormal (v : Nat) : Bool := decide (v < 2 ^ 31) && decide (1 ≤ v / 2 ^ 23) && decide (v / 2 ^ 23 < 255)

/-- The bounds of an integer format (R274). -/
def intRange (elem : Nat) (signed : Bool) : Int × Int :=
  let w := if elem = 5 then 8 else if elem = 6 then 4 else 32
  if signed then (-(2 ^ (w - 1) : Nat), (2 ^ (w - 1) - 1 : Nat)) else (0, (2 ^ w - 1 : Nat))

/-- Width of an element in bits. -/
def elemWidth (elem : Nat) : Nat := match elem with | 0 => 32 | 1 => 16 | 2 => 16 | 3 => 8 | 4 => 8 | 5 => 8 | 6 => 4 | 7 => 32 | _ => 8

/-- The value of an element encoding, its block scale apart (R272, R274). -/
def decodeElem (elem : Nat) (signed : Bool) (v : Nat) : FV :=
  if elem ≤ 4 then (fmtOf elem).decode v
  else
    let w := elemWidth elem
    if signed then .ofInt (signedN w v) else .ofInt (v % 2 ^ w : Nat)

/-- Whether reading an element flushes its subnormals: FP32 and BF16 inputs of the matrix engine (R288). -/
def flushIn (elem : Nat) (v : FV) : FV :=
  match v with
  | .fin n m e => if elem ≤ 1 ∧ m ≠ 0 ∧ FV.log2 m e < -126 then .fin n 0 0 else .fin n m e
  | v => v

/-- Multiply by an E8M0 block scale; 0xFF makes the element NaN (R275, R278). -/
def applyScale (v : FV) (sc : Nat) : FV := if sc = 0xFF then .nan else v.scale ((sc : Int) - 127)

/-- Convert a value to an element of a format (R291, R293); `flush` for FP32 and BF16 outputs of the matrix engine (R288). -/
def encodeElem (elem : Nat) (signed sat flush : Bool) (v : FV) : Nat :=
  if elem ≤ 4 then (fmtOf elem).convert sat (flush && decide (elem ≤ 1)) v
  else
    let r := intRange elem signed
    encodeInt (elemWidth elem) (v.toIntClip r.1 r.2)

/-- Whether a converted element is non-finite as written (R292, R296). -/
def outNonfinite (elem : Nat) (v : FV) (bits : Nat) : Bool :=
  if elem ≤ 4 then ((fmtOf elem).decode bits).nonfinite else v.nonfinite

/-- emax of narrow_block (R293). -/
def blockEmax (elem : Nat) (signed : Bool) : Int :=
  match elem with
  | 3 => 8
  | 4 => 15
  | 5 => if signed then 6 else 7
  | _ => if signed then 2 else 3

/-- narrow_block: scale byte and element encodings of one block (R293). -/
def narrowBlock (elem : Nat) (signed : Bool) (q : List FV) : Nat × List Nat :=
  if q.any FV.nonfinite then (0xFF, q.map (fun _ => 0))
  else
    let l := q.filterMap (fun v => match v with | .fin _ m e => if m = 0 then none else some (FV.log2 m e) | _ => none)
    let x : Int := match l with
      | [] => 0
      | a :: r => min (max (r.foldl max a - blockEmax elem signed) (-127)) 127
    ((x + 127).toNat, q.map (fun v => encodeElem elem signed true false (v.scale (-x))))

end Sys2Proof.Machine
end

