-- ==== Sys2Proof/Machine/Reals.lean ====
section
/-! DEFINITION. The real functions that R319 bounds, evaluated far below their bounds: integers in units of 2^-512 (ch. 8). -/

namespace Sys2Proof.Machine

/-- One, in units of 2^-512. -/
def fxOne : Int := 2 ^ 512

def fxMul (a b : Int) : Int := a * b / fxOne
def fxDiv (a b : Int) : Int := a * fxOne / b

/-- A finite value in these units. -/
def fxOf (v : FV) : Int :=
  match v with
  | .fin neg m e =>
    let a := if 0 ≤ e + 512 then m * 2 ^ (e + 512).toNat else m / 2 ^ (-(e + 512)).toNat
    if neg then -(a : Int) else a
  | _ => 0

/-- The value of so many units. -/
def fxVal (x : Int) : FV := .fin (decide (x < 0)) x.natAbs (-512)

/-- e^x for |x| ≤ 128: a series at x / 2^16, squared 16 times. -/
def fxExp (x : Int) : Int :=
  let r := x / 2 ^ 16
  let e := (List.range 64).foldl (fun acc (k : Nat) => fxOne + fxMul r acc / ((64 - k : Nat) : Int)) fxOne
  (List.range 16).foldl (fun y _ => fxMul y y) e

/-- The series of arctanh, or with `alt` of arctan, for |z| ≤ 1/3. -/
def fxAtan (alt : Bool) (z : Int) : Int :=
  let z2 := if alt then -(fxMul z z) else fxMul z z
  ((List.range 200).foldl (fun (p : Int × Int) (k : Nat) => (p.1 + p.2 / ((2 * k + 1 : Nat) : Int), fxMul p.2 z2)) (0, z)).1

/-- The natural logarithm of a positive number. -/
def fxLog (x : Int) : Int :=
  let k := Nat.log2 x.natAbs
  let f := if 512 ≤ k then x / 2 ^ (k - 512) else x * 2 ^ (512 - k)
  2 * fxAtan false (fxDiv (f - fxOne) (f + fxOne)) + ((k : Int) - 512) * (2 * fxAtan false (fxOne / 3))

/-- π. -/
def fxPi : Int := 16 * fxAtan true (fxOne / 5) - 4 * fxAtan true (fxOne / 239)

/-- A square root. -/
def fxSqrt (x : Int) : Int := FV.isqrt (x.toNat * 2 ^ 512)

/-- The error function; beyond ±11 it is ±1 but for less than 2^-179. -/
def fxErf (x : Int) : Int :=
  let z := max (-(11 * fxOne)) (min (11 * fxOne) x)
  let z2 := fxMul z z
  let t := ((List.range 800).foldl (fun (p : Int × Int) (k : Nat) =>
    (p.1 + p.2 / ((2 * k + 1 : Nat) : Int), -(fxMul p.2 z2) / ((k + 1 : Nat) : Int))) (0, z)).1
  fxDiv (2 * t) (fxSqrt fxPi)

/-- The cosine. -/
def fxCos (x : Int) : Int :=
  let r := x % (2 * fxPi)
  let r2 := fxMul r r
  ((List.range 200).foldl (fun (p : Int × Int) (k : Nat) =>
    (p.1 + p.2, -(fxMul p.2 r2) / (((2 * k + 1) * (2 * k + 2) : Nat) : Int))) (0, fxOne)).1

/-- e^x beyond the range of `fxExp`: as large, or as near to zero, as no FP32 number is. -/
def fxExpAll (x : Int) : Int :=
  if 128 * fxOne < x then fxOne * 2 ^ 180 else if x < -(128 * fxOne) then 1 else fxExp x

def fxSigmoid (x : Int) : Int := fxDiv fxOne (fxOne + fxExpAll (-x))

/-- What a transcendental micro-op approximates at a finite operand (R318). -/
def fxMicro (op : Nat) (x : Int) : Int :=
  match op with
  | 0x18 => fxExpAll x
  | 0x19 => fxLog x
  | 0x1A =>
    let t := fxExp (2 * min (50 * fxOne) x.natAbs)
    let y := fxDiv (t - fxOne) (t + fxOne)
    if x < 0 then -y else y
  | 0x1B => fxSigmoid x
  | 0x1C => fxErf x
  | 0x1D => fxCos x
  | 0x22 => if x < -(100 * fxOne) then -1 else fxMul x (fxOne + fxErf (fxDiv x (fxSqrt (2 * fxOne)))) / 2
  | 0x23 => if x < -(120 * fxOne) then -1 else fxMul x (fxSigmoid x)
  | _ => if 128 * fxOne < x then x else if x < -(120 * fxOne) then 1 else fxLog (fxOne + fxExp x)

/-- One unit in the last place of FP32 for a magnitude with the exponent given. -/
def ulpOf (e : Int) : FV := .fin false 1 (max (e - 23) (-149))

/-- The bound of R319 around an exact value: 2^-22 for COS, else 2 ulp of it. -/
def microBound (op : Nat) (x : FV) : FV :=
  if op = 0x1D then .fin false 1 (-22)
  else
    match x with
    | .fin _ m e => FV.mul (.fin false 2 0) (if m = 0 then .fin false 1 (-149) else ulpOf (FV.log2 m e))
    | _ => .zero

/-- Whether a result lies within the bound of R319; an infinity where the bound reaches past the largest finite number. -/
def microNear (op : Nat) (x c : FV) : Bool :=
  match c with
  | .nan => false
  | .inf neg => neg == x.sign && !FV.lt (FV.add x.abs (microBound op x)) (.fin false 1 128)
  | _ => !FV.lt (microBound op x) (FV.sub c x).abs

end Sys2Proof.Machine
end

