-- ==== Sys2Proof/Config.lean ====
section
/-! DEFINITION. What the spec leaves open: opaque constants, of which nothing in Lean can prove a value (log entries 2 to 5, 59 and 86). -/

namespace Sys2Proof.Config

/-- The `n`-th free value, `w` bits wide: a value the spec calls undefined, or states no rule for (log entry 2). -/
opaque freeBits : Nat → (w : Nat) → BitVec w

/-- Whether the host's IOMMU grants an access: function, PASID with its enable (2^20 added when enabled), 4 KiB page, write wanted, and how many host events have passed (R577, R579). -/
opaque hostGrants : Nat → Nat → Nat → Bool → Nat → Bool

/-- SHA-384 of a byte string (R595, R678): a published function, uninterpreted here (log entry 4). -/
opaque sha384 : List Byte → BitVec 384

/-- ECDSA P-384 verification: key digest, message digest, signature bytes (R595, R678; log entry 4). -/
opaque ecdsaOk : BitVec 384 → BitVec 384 → List Byte → Bool

/-- Hash of fuse key slot 0 to 3, and whether that key is revoked (R678; log entry 3). -/
opaque fuseKey : Nat → BitVec 384
opaque keyRevoked : Nat → Bool

/-- The 32-bit code that an HBM controller stores beside a burst, by its 64 bytes, its package channel and its row (R398): the spec does not give the code's polynomial (log entry 86). -/
opaque burstCode : List Byte → Nat → Nat → BitVec 32

/-- Serial number of the package (R688's STATUS cell; log entry 3). -/
opaque serial : BitVec 128

/-- Digest of the boot ROM, and the fuse configuration by the fuse counter FW_SVN (R595; log entry 4). -/
opaque romDigest : BitVec 384
opaque fuseConfig : Nat → List Byte

/-- Answer bytes of an SPDM responder by message code, request bytes and a counter of free values, where SPDM 1.3 and not this spec fixes them (R595; log entry 4). -/
opaque spdmAnswer : Nat → List Byte → Nat → List Byte

/-- FP32 result bits of a transcendental function of a micro-op, by opcode and operand, outside the values R320 fixes (R319), and the value that RCP and RSQRT give where it lies within their 1 ulp (R318; log entry 5). -/
opaque transcendental : Nat → W32 → W32

end Sys2Proof.Config
end

