-- ==== Sys2Proof/Machine/RegMap.lean ====
section
/-! DEFINITION. The set-up registers of BAR0 and VF BAR0: names, addresses, fields and reset values (R739 and the register tables of each chapter). -/

namespace Sys2Proof.Machine

/-- Access codes of R11. -/
inductive Access where
  | rw | ro | w1c | w1s | wo | rsv
  deriving DecidableEq, Repr

/-- One field of a 64-bit register: lowest bit, width, access code. -/
structure Fld where
  lo : Nat
  w : Nat
  acc : Access
  deriving DecidableEq, Repr

/-- The value of a field. -/
def Fld.get (f : Fld) (v : Word) : Nat := bitsN v.toNat f.lo f.w

/-- The register with the field replaced. -/
def Fld.put (f : Fld) (v : Word) (x : Nat) : Word := BitVec.ofNat 64 (putN v.toNat f.lo f.w x)

/-- Every register of R739, and the registers of VF BAR0 (their first argument is the virtual function). Index arguments as R739 names them. -/
inductive Reg where
  | frmCtrl
  | frmPeriod
  | frmPhase
  | frmApplyAt
  | frmNumber
  | frmTime
  | frmEpoch
  | frmOffset
  | frmGuardCnt
  | frmOverrunCnt
  | frmStatus
  | tblChartSpillBase (i : Nat)
  | tblChartSpillSize (i : Nat)
  | tblChartStatus
  | tblScatterDiscard
  | tblMergeBypass
  | tblTransitCombined
  | tblLedgerMismatch
  | tblWriteDup
  | tblSketchCtrl
  | tblMoveStatus
  | tblRowLockWait
  | schPredMarked (i : Nat)
  | schPredIdle (i : Nat)
  | schPredAudit (i : Nat)
  | schPredMiss (i : Nat)
  | schUndoBase (i : Nat)
  | schUndoSize (i : Nat)
  | schUndoStatus (i : Nat)
  | schStepCount (i : Nat)
  | schRngSeed (i : Nat)
  | schRngStatus (i : Nat)
  | schStragglerCnt (i : Nat)
  | schCommitCtrl (i : Nat)
  | schCommitStatus (i : Nat)
  | schPoolBase (i : Nat)
  | schPoolSize (i : Nat)
  | memCtrl
  | memMapout
  | memScrubStatus
  | memDieStatus (i : Nat)
  | memChMapped (i : Nat)
  | memChFenced (i : Nat)
  | hbmErrCnt (i : Nat)
  | hbmReg (i : Nat) (j : Nat)
  | hbmRegStatus (i : Nat)
  | pwrCtrl
  | pwrStatus
  | pwrBudget
  | pwrDie (i : Nat)
  | schLag
  | schPartCfg (i : Nat)
  | schPartMiss (i : Nat)
  | schRegCredit (i : Nat)
  | schRegState (i : Nat)
  | schRegBorrow (i : Nat)
  | schRegQueue (i : Nat)
  | schBarCfg (i : Nat) (j : Nat)
  | schBarStatus (i : Nat) (j : Nat)
  | strCtrl (i : Nat)
  | strStatus (i : Nat)
  | strLaneMap (i : Nat)
  | strFecCnt (i : Nat)
  | strRetryCnt (i : Nat)
  | strDelay (i : Nat)
  | strErr (i : Nat)
  | strSpare (i : Nat)
  | rasRoute (i : Nat)
  | rasTopo
  | schFill (i : Nat)
  | schGroupStatus
  | schCollDrop
  | ctxCtrl (i : Nat)
  | ctxRing (i : Nat)
  | ctxSeg (i : Nat)
  | ctxPasid (i : Nat)
  | ctxQuota (i : Nat)
  | ctxStatus (i : Nat)
  | ctxCount (i : Nat)
  | vfCtxStatus (f : Nat) (v : Nat)
  | vfMsixMod (f : Nat) (v : Nat)
  | vfMsixPba (f : Nat)
  | hstCtrl
  | hstLink
  | hstErr
  | hstAts
  | hstPartCtrl (i : Nat)
  | hstPartRegionsLo (i : Nat)
  | hstPartRegionsHi (i : Nat)
  | hstMsixMod (i : Nat)
  | fryCtrl (i : Nat)
  | fryStatus (i : Nat)
  | fryErr (i : Nat)
  | fryDiscard (i : Nat)
  | fryFlash (i : Nat)
  | fryBufBase (i : Nat)
  | fryChCfg (i : Nat) (j : Nat)
  | fryChkPoly (i : Nat) (j : Nat)
  | fryChkInit (i : Nat) (j : Nat)
  | fryChkCtrl (i : Nat) (j : Nat)
  | fryChStatus (i : Nat) (j : Nat)
  | fryChErr (i : Nat) (j : Nat)
  | rasCtrl
  | rasFaultCnt
  | rasUnavail
  | rasShoalCtrl
  | rasShoalLines
  | rasShoalMember (i : Nat)
  | rasShoalStandby
  | rasShoalRange (i : Nat)
  | rasShoalRangeLines (i : Nat)
  | rasShoalParityBase
  | rasShoalJournalBase
  | rasShoalJournalSize
  | rasShoalStatus
  | rasShoalSeal
  | rasShoalRepair
  | rasAlias
  | rasSpreadBase
  | devArch
  | devStatus
  | devReset
  | devFw
  | devFwStage
  | devFwCtrl
  | devReefGen
  | devShell (i : Nat)
  | clkCtrl
  | clkStatus
  | clkXtal
  | clkOsc
  | cswCtrl
  | cswAddr
  | cswStatus
  | cswCnt
  | evtRingBase
  | evtRingCtrl
  | evtRingHead
  | evtRingTail
  | evtStatus
  | evtSeq
  | evtLost
  | evtTelemCtrl
  | evtSnapFrame
  | evtPerfSel (i : Nat)
  | evtPerfCnt (i : Nat)
  | evtPerfSnap (i : Nat)
  | irqSrc (i : Nat)
  | irqCp (i : Nat)
  | irqCpEoi (i : Nat)
  | irqHostAck
  | irqVec (i : Nat)
  | devLock
  | devAccess
  deriving DecidableEq, Repr

/-- The key of a register: its BAR0 address (R739), or for VF BAR0 the address within it above 2^32 × (function + 1). -/
def Reg.key : Reg → Nat
  | .frmCtrl => 0x30000
  | .frmPeriod => 0x30008
  | .frmPhase => 0x30010
  | .frmApplyAt => 0x30018
  | .frmNumber => 0x30020
  | .frmTime => 0x30028
  | .frmEpoch => 0x30030
  | .frmOffset => 0x30040
  | .frmGuardCnt => 0x30048
  | .frmOverrunCnt => 0x30050
  | .frmStatus => 0x30038
  | .tblChartSpillBase i => 0x180000 + 0x10 * i
  | .tblChartSpillSize i => 0x180008 + 0x10 * i
  | .tblChartStatus => 0x180400
  | .tblScatterDiscard => 0x180408
  | .tblMergeBypass => 0x180410
  | .tblTransitCombined => 0x180418
  | .tblLedgerMismatch => 0x180420
  | .tblWriteDup => 0x180428
  | .tblSketchCtrl => 0x100000
  | .tblMoveStatus => 0x100008
  | .tblRowLockWait => 0x100010
  | .schPredMarked i => 0x4A000 + 0x20 * i
  | .schPredIdle i => 0x4A008 + 0x20 * i
  | .schPredAudit i => 0x4A010 + 0x20 * i
  | .schPredMiss i => 0x4A018 + 0x20 * i
  | .schUndoBase i => 0x4C000 + 0x80 * i
  | .schUndoSize i => 0x4C008 + 0x80 * i
  | .schUndoStatus i => 0x4C010 + 0x80 * i
  | .schStepCount i => 0x4C018 + 0x80 * i
  | .schRngSeed i => 0x4C020 + 0x80 * i
  | .schRngStatus i => 0x4C028 + 0x80 * i
  | .schStragglerCnt i => 0x4C030 + 0x80 * i
  | .schCommitCtrl i => 0x4C038 + 0x80 * i
  | .schCommitStatus i => 0x4C040 + 0x80 * i
  | .schPoolBase i => 0x4C048 + 0x80 * i
  | .schPoolSize i => 0x4C050 + 0x80 * i
  | .memCtrl => 0x50000
  | .memMapout => 0x50008
  | .memScrubStatus => 0x50010
  | .memDieStatus i => 0x50040 + 0x8 * i
  | .memChMapped i => 0x50080 + 0x8 * i
  | .memChFenced i => 0x500C0 + 0x8 * i
  | .hbmErrCnt i => 0x60000 + 0x8 * i
  | .hbmReg i j => 0x70000 + 0x400 * i + 0x8 * j
  | .hbmRegStatus i => 0x74000 + 0x8 * i
  | .pwrCtrl => 0x20000
  | .pwrStatus => 0x20008
  | .pwrBudget => 0x20010
  | .pwrDie i => 0x20040 + 0x8 * i
  | .schLag => 0x40000
  | .schPartCfg i => 0x40100 + 0x10 * i
  | .schPartMiss i => 0x40108 + 0x10 * i
  | .schRegCredit i => 0x41000 + 0x20 * i
  | .schRegState i => 0x41008 + 0x20 * i
  | .schRegBorrow i => 0x41010 + 0x20 * i
  | .schRegQueue i => 0x41018 + 0x20 * i
  | .schBarCfg i j => 0x42000 + 0x100 * i + 0x10 * j
  | .schBarStatus i j => 0x42008 + 0x100 * i + 0x10 * j
  | .strCtrl i => 0x80000 + 0x1000 * i
  | .strStatus i => 0x80008 + 0x1000 * i
  | .strLaneMap i => 0x80010 + 0x1000 * i
  | .strFecCnt i => 0x80018 + 0x1000 * i
  | .strRetryCnt i => 0x80020 + 0x1000 * i
  | .strDelay i => 0x80028 + 0x1000 * i
  | .strErr i => 0x80030 + 0x1000 * i
  | .strSpare i => 0x80038 + 0x1000 * i
  | .rasRoute i => 0xF8000 + 0x8 * i
  | .rasTopo => 0xF0100
  | .schFill i => 0x46000 + 0x8 * i
  | .schGroupStatus => 0x46200
  | .schCollDrop => 0x46208
  | .ctxCtrl i => 0x200000 + 0x40 * i
  | .ctxRing i => 0x200008 + 0x40 * i
  | .ctxSeg i => 0x200010 + 0x40 * i
  | .ctxPasid i => 0x200018 + 0x40 * i
  | .ctxQuota i => 0x200020 + 0x40 * i
  | .ctxStatus i => 0x200028 + 0x40 * i
  | .ctxCount i => 0x200030 + 0x40 * i
  | .vfCtxStatus f v => 0x100000000 * (f + 1) + 0x0 + 8 * v
  | .vfMsixMod f v => 0x100000000 * (f + 1) + 0x200 + 8 * v
  | .vfMsixPba f => 0x100000000 * (f + 1) + 0x400
  | .hstCtrl => 0xC0000
  | .hstLink => 0xC0008
  | .hstErr => 0xC0010
  | .hstAts => 0xC0018
  | .hstPartCtrl i => 0xC1000 + 0x20 * i
  | .hstPartRegionsLo i => 0xC1008 + 0x20 * i
  | .hstPartRegionsHi i => 0xC1010 + 0x20 * i
  | .hstMsixMod i => 0xC2000 + 0x8 * i
  | .fryCtrl i => 0xA0000 + 0x1000 * i
  | .fryStatus i => 0xA0008 + 0x1000 * i
  | .fryErr i => 0xA0010 + 0x1000 * i
  | .fryDiscard i => 0xA0018 + 0x1000 * i
  | .fryFlash i => 0xA0020 + 0x1000 * i
  | .fryBufBase i => 0xA0028 + 0x1000 * i
  | .fryChCfg i j => 0xA0100 + 0x1000 * i + 0x30 * j
  | .fryChkPoly i j => 0xA0108 + 0x1000 * i + 0x30 * j
  | .fryChkInit i j => 0xA0110 + 0x1000 * i + 0x30 * j
  | .fryChkCtrl i j => 0xA0118 + 0x1000 * i + 0x30 * j
  | .fryChStatus i j => 0xA0120 + 0x1000 * i + 0x30 * j
  | .fryChErr i j => 0xA0128 + 0x1000 * i + 0x30 * j
  | .rasCtrl => 0xF0000
  | .rasFaultCnt => 0xF0008
  | .rasUnavail => 0xF0010
  | .rasShoalCtrl => 0xF0200
  | .rasShoalLines => 0xF0208
  | .rasShoalMember i => 0xF0210 + 0x8 * i
  | .rasShoalStandby => 0xF0230
  | .rasShoalRange i => 0xF0240 + 0x10 * i
  | .rasShoalRangeLines i => 0xF0248 + 0x10 * i
  | .rasShoalParityBase => 0xF02C0
  | .rasShoalJournalBase => 0xF02D0
  | .rasShoalJournalSize => 0xF02D8
  | .rasShoalStatus => 0xF02E0
  | .rasShoalSeal => 0xF02E8
  | .rasShoalRepair => 0xF02F0
  | .rasAlias => 0xF0300
  | .rasSpreadBase => 0xF0308
  | .devArch => 0x0
  | .devStatus => 0x8
  | .devReset => 0x10
  | .devFw => 0x18
  | .devFwStage => 0x20
  | .devFwCtrl => 0x28
  | .devReefGen => 0x30
  | .devShell i => 0x100 + 0x8 * i
  | .clkCtrl => 0x10000
  | .clkStatus => 0x10008
  | .clkXtal => 0x10010
  | .clkOsc => 0x10018
  | .cswCtrl => 0xB0000
  | .cswAddr => 0xB0008
  | .cswStatus => 0xB0010
  | .cswCnt => 0xB0018
  | .evtRingBase => 0xD0000
  | .evtRingCtrl => 0xD0008
  | .evtRingHead => 0xD0010
  | .evtRingTail => 0xD0018
  | .evtStatus => 0xD0020
  | .evtSeq => 0xD0028
  | .evtLost => 0xD0030
  | .evtTelemCtrl => 0xD0038
  | .evtSnapFrame => 0xD0040
  | .evtPerfSel i => 0xD0100 + 0x8 * i
  | .evtPerfCnt i => 0xD0200 + 0x8 * i
  | .evtPerfSnap i => 0xD0300 + 0x8 * i
  | .irqSrc i => 0xE0000 + 0x8 * i
  | .irqCp i => 0xE2000 + 0x8 * i
  | .irqCpEoi i => 0xE2040 + 0x8 * i
  | .irqHostAck => 0xE3000
  | .irqVec i => 0xE4000 + 0x8 * i
  | .devLock => 0x38
  | .devAccess => 0x40

/-- The registers of one block of the map (R739). -/
def Reg.ofBlock00 (a : Nat) : Option Reg :=
  if a = 0x0 then some .devArch else
  if a = 0x8 then some .devStatus else
  if a = 0x10 then some .devReset else
  if a = 0x18 then some .devFw else
  if a = 0x20 then some .devFwStage else
  if a = 0x28 then some .devFwCtrl else
  if a = 0x30 then some .devReefGen else
  if a = 0x38 then some .devLock else
  if a = 0x40 then some .devAccess else
  if 0x100 ≤ a ∧ a < 0x230 ∧ (a - 0x100) % 0x8 = 0 then some (.devShell ((a - 0x100) / 0x8)) else
  none

/-- The registers of one block of the map (R739). -/
def Reg.ofBlock01 (a : Nat) : Option Reg :=
  if a = 0x10000 then some .clkCtrl else
  if a = 0x10008 then some .clkStatus else
  if a = 0x10010 then some .clkXtal else
  if a = 0x10018 then some .clkOsc else
  none

/-- The registers of one block of the map (R739). -/
def Reg.ofBlock02 (a : Nat) : Option Reg :=
  if a = 0x20000 then some .pwrCtrl else
  if a = 0x20008 then some .pwrStatus else
  if a = 0x20010 then some .pwrBudget else
  if 0x20040 ≤ a ∧ a < 0x20080 ∧ (a - 0x20040) % 0x8 = 0 then some (.pwrDie ((a - 0x20040) / 0x8)) else
  none

/-- The registers of one block of the map (R739). -/
def Reg.ofBlock03 (a : Nat) : Option Reg :=
  if a = 0x30000 then some .frmCtrl else
  if a = 0x30008 then some .frmPeriod else
  if a = 0x30010 then some .frmPhase else
  if a = 0x30018 then some .frmApplyAt else
  if a = 0x30020 then some .frmNumber else
  if a = 0x30028 then some .frmTime else
  if a = 0x30030 then some .frmEpoch else
  if a = 0x30038 then some .frmStatus else
  if a = 0x30040 then some .frmOffset else
  if a = 0x30048 then some .frmGuardCnt else
  if a = 0x30050 then some .frmOverrunCnt else
  none

/-- The registers of one block of the map (R739). -/
def Reg.ofBlock0B (a : Nat) : Option Reg :=
  if a = 0xB0000 then some .cswCtrl else
  if a = 0xB0008 then some .cswAddr else
  if a = 0xB0010 then some .cswStatus else
  if a = 0xB0018 then some .cswCnt else
  none

/-- The registers of one block of the map (R739). -/
def Reg.ofBlock04 (a : Nat) : Option Reg :=
  if a = 0x40000 then some .schLag else
  if 0x40100 ≤ a ∧ a < 0x40500 ∧ (a - 0x40100) % 0x10 = 0 then some (.schPartCfg ((a - 0x40100) / 0x10)) else
  if 0x40108 ≤ a ∧ a < 0x40508 ∧ (a - 0x40108) % 0x10 = 0 then some (.schPartMiss ((a - 0x40108) / 0x10)) else
  if 0x41000 ≤ a ∧ a < 0x42000 ∧ (a - 0x41000) % 0x20 = 0 then some (.schRegCredit ((a - 0x41000) / 0x20)) else
  if 0x41008 ≤ a ∧ a < 0x42008 ∧ (a - 0x41008) % 0x20 = 0 then some (.schRegState ((a - 0x41008) / 0x20)) else
  if 0x41010 ≤ a ∧ a < 0x42010 ∧ (a - 0x41010) % 0x20 = 0 then some (.schRegBorrow ((a - 0x41010) / 0x20)) else
  if 0x41018 ≤ a ∧ a < 0x42018 ∧ (a - 0x41018) % 0x20 = 0 then some (.schRegQueue ((a - 0x41018) / 0x20)) else
  if 0x42000 ≤ a ∧ a < 0x46000 ∧ (a - 0x42000) % 0x100 < 0x100 ∧ (a - 0x42000) % 0x100 % 0x10 = 0 then some (.schBarCfg ((a - 0x42000) / 0x100) ((a - 0x42000) % 0x100 / 0x10)) else
  if 0x42008 ≤ a ∧ a < 0x46008 ∧ (a - 0x42008) % 0x100 < 0x100 ∧ (a - 0x42008) % 0x100 % 0x10 = 0 then some (.schBarStatus ((a - 0x42008) / 0x100) ((a - 0x42008) % 0x100 / 0x10)) else
  if 0x46000 ≤ a ∧ a < 0x46200 ∧ (a - 0x46000) % 0x8 = 0 then some (.schFill ((a - 0x46000) / 0x8)) else
  if a = 0x46200 then some .schGroupStatus else
  if a = 0x46208 then some .schCollDrop else
  if 0x4A000 ≤ a ∧ a < 0x4A800 ∧ (a - 0x4A000) % 0x20 = 0 then some (.schPredMarked ((a - 0x4A000) / 0x20)) else
  if 0x4A008 ≤ a ∧ a < 0x4A808 ∧ (a - 0x4A008) % 0x20 = 0 then some (.schPredIdle ((a - 0x4A008) / 0x20)) else
  if 0x4A010 ≤ a ∧ a < 0x4A810 ∧ (a - 0x4A010) % 0x20 = 0 then some (.schPredAudit ((a - 0x4A010) / 0x20)) else
  if 0x4A018 ≤ a ∧ a < 0x4A818 ∧ (a - 0x4A018) % 0x20 = 0 then some (.schPredMiss ((a - 0x4A018) / 0x20)) else
  if 0x4C000 ≤ a ∧ a < 0x4E000 ∧ (a - 0x4C000) % 0x80 = 0 then some (.schUndoBase ((a - 0x4C000) / 0x80)) else
  if 0x4C008 ≤ a ∧ a < 0x4E008 ∧ (a - 0x4C008) % 0x80 = 0 then some (.schUndoSize ((a - 0x4C008) / 0x80)) else
  if 0x4C010 ≤ a ∧ a < 0x4E010 ∧ (a - 0x4C010) % 0x80 = 0 then some (.schUndoStatus ((a - 0x4C010) / 0x80)) else
  if 0x4C018 ≤ a ∧ a < 0x4E018 ∧ (a - 0x4C018) % 0x80 = 0 then some (.schStepCount ((a - 0x4C018) / 0x80)) else
  if 0x4C020 ≤ a ∧ a < 0x4E020 ∧ (a - 0x4C020) % 0x80 = 0 then some (.schRngSeed ((a - 0x4C020) / 0x80)) else
  if 0x4C028 ≤ a ∧ a < 0x4E028 ∧ (a - 0x4C028) % 0x80 = 0 then some (.schRngStatus ((a - 0x4C028) / 0x80)) else
  if 0x4C030 ≤ a ∧ a < 0x4E030 ∧ (a - 0x4C030) % 0x80 = 0 then some (.schStragglerCnt ((a - 0x4C030) / 0x80)) else
  if 0x4C038 ≤ a ∧ a < 0x4E038 ∧ (a - 0x4C038) % 0x80 = 0 then some (.schCommitCtrl ((a - 0x4C038) / 0x80)) else
  if 0x4C040 ≤ a ∧ a < 0x4E040 ∧ (a - 0x4C040) % 0x80 = 0 then some (.schCommitStatus ((a - 0x4C040) / 0x80)) else
  if 0x4C048 ≤ a ∧ a < 0x4E048 ∧ (a - 0x4C048) % 0x80 = 0 then some (.schPoolBase ((a - 0x4C048) / 0x80)) else
  if 0x4C050 ≤ a ∧ a < 0x4E050 ∧ (a - 0x4C050) % 0x80 = 0 then some (.schPoolSize ((a - 0x4C050) / 0x80)) else
  none

/-- The registers of one block of the map (R739). -/
def Reg.ofBlock05 (a : Nat) : Option Reg :=
  if a = 0x50000 then some .memCtrl else
  if a = 0x50008 then some .memMapout else
  if a = 0x50010 then some .memScrubStatus else
  if 0x50040 ≤ a ∧ a < 0x50080 ∧ (a - 0x50040) % 0x8 = 0 then some (.memDieStatus ((a - 0x50040) / 0x8)) else
  if 0x50080 ≤ a ∧ a < 0x500C0 ∧ (a - 0x50080) % 0x8 = 0 then some (.memChMapped ((a - 0x50080) / 0x8)) else
  if 0x500C0 ≤ a ∧ a < 0x50100 ∧ (a - 0x500C0) % 0x8 = 0 then some (.memChFenced ((a - 0x500C0) / 0x8)) else
  none

/-- The registers of one block of the map (R739). -/
def Reg.ofBlock06 (a : Nat) : Option Reg :=
  if 0x60000 ≤ a ∧ a < 0x61000 ∧ (a - 0x60000) % 0x8 = 0 then some (.hbmErrCnt ((a - 0x60000) / 0x8)) else
  none

/-- The registers of one block of the map (R739). -/
def Reg.ofBlock07 (a : Nat) : Option Reg :=
  if 0x70000 ≤ a ∧ a < 0x74000 ∧ (a - 0x70000) % 0x400 < 0x208 ∧ (a - 0x70000) % 0x400 % 0x8 = 0 then some (.hbmReg ((a - 0x70000) / 0x400) ((a - 0x70000) % 0x400 / 0x8)) else
  if 0x74000 ≤ a ∧ a < 0x74080 ∧ (a - 0x74000) % 0x8 = 0 then some (.hbmRegStatus ((a - 0x74000) / 0x8)) else
  none

/-- The registers of one block of the map (R739). -/
def Reg.ofBlock10 (a : Nat) : Option Reg :=
  if a = 0x100000 then some .tblSketchCtrl else
  if a = 0x100008 then some .tblMoveStatus else
  if a = 0x100010 then some .tblRowLockWait else
  none

/-- The registers of one block of the map (R739). -/
def Reg.ofBlock18 (a : Nat) : Option Reg :=
  if 0x180000 ≤ a ∧ a < 0x180400 ∧ (a - 0x180000) % 0x10 = 0 then some (.tblChartSpillBase ((a - 0x180000) / 0x10)) else
  if 0x180008 ≤ a ∧ a < 0x180408 ∧ (a - 0x180008) % 0x10 = 0 then some (.tblChartSpillSize ((a - 0x180008) / 0x10)) else
  if a = 0x180400 then some .tblChartStatus else
  if a = 0x180408 then some .tblScatterDiscard else
  if a = 0x180410 then some .tblMergeBypass else
  if a = 0x180418 then some .tblTransitCombined else
  if a = 0x180420 then some .tblLedgerMismatch else
  if a = 0x180428 then some .tblWriteDup else
  none

/-- The registers of one block of the map (R739). -/
def Reg.ofBlockStr (a : Nat) : Option Reg :=
  if 0x80000 ≤ a ∧ a < 0xA0000 ∧ (a - 0x80000) % 0x1000 = 0 then some (.strCtrl ((a - 0x80000) / 0x1000)) else
  if 0x80008 ≤ a ∧ a < 0xA0008 ∧ (a - 0x80008) % 0x1000 = 0 then some (.strStatus ((a - 0x80008) / 0x1000)) else
  if 0x80010 ≤ a ∧ a < 0xA0010 ∧ (a - 0x80010) % 0x1000 = 0 then some (.strLaneMap ((a - 0x80010) / 0x1000)) else
  if 0x80018 ≤ a ∧ a < 0xA0018 ∧ (a - 0x80018) % 0x1000 = 0 then some (.strFecCnt ((a - 0x80018) / 0x1000)) else
  if 0x80020 ≤ a ∧ a < 0xA0020 ∧ (a - 0x80020) % 0x1000 = 0 then some (.strRetryCnt ((a - 0x80020) / 0x1000)) else
  if 0x80028 ≤ a ∧ a < 0xA0028 ∧ (a - 0x80028) % 0x1000 = 0 then some (.strDelay ((a - 0x80028) / 0x1000)) else
  if 0x80030 ≤ a ∧ a < 0xA0030 ∧ (a - 0x80030) % 0x1000 = 0 then some (.strErr ((a - 0x80030) / 0x1000)) else
  if 0x80038 ≤ a ∧ a < 0xA0038 ∧ (a - 0x80038) % 0x1000 = 0 then some (.strSpare ((a - 0x80038) / 0x1000)) else
  none

/-- The registers of one block of the map (R739). -/
def Reg.ofBlockFry (a : Nat) : Option Reg :=
  if 0xA0000 ≤ a ∧ a < 0xA4000 ∧ (a - 0xA0000) % 0x1000 = 0 then some (.fryCtrl ((a - 0xA0000) / 0x1000)) else
  if 0xA0008 ≤ a ∧ a < 0xA4008 ∧ (a - 0xA0008) % 0x1000 = 0 then some (.fryStatus ((a - 0xA0008) / 0x1000)) else
  if 0xA0010 ≤ a ∧ a < 0xA4010 ∧ (a - 0xA0010) % 0x1000 = 0 then some (.fryErr ((a - 0xA0010) / 0x1000)) else
  if 0xA0018 ≤ a ∧ a < 0xA4018 ∧ (a - 0xA0018) % 0x1000 = 0 then some (.fryDiscard ((a - 0xA0018) / 0x1000)) else
  if 0xA0020 ≤ a ∧ a < 0xA4020 ∧ (a - 0xA0020) % 0x1000 = 0 then some (.fryFlash ((a - 0xA0020) / 0x1000)) else
  if 0xA0028 ≤ a ∧ a < 0xA4028 ∧ (a - 0xA0028) % 0x1000 = 0 then some (.fryBufBase ((a - 0xA0028) / 0x1000)) else
  if 0xA0100 ≤ a ∧ a < 0xA4100 ∧ (a - 0xA0100) % 0x1000 < 0xC00 ∧ (a - 0xA0100) % 0x1000 % 0x30 = 0 then some (.fryChCfg ((a - 0xA0100) / 0x1000) ((a - 0xA0100) % 0x1000 / 0x30)) else
  if 0xA0108 ≤ a ∧ a < 0xA4108 ∧ (a - 0xA0108) % 0x1000 < 0xC00 ∧ (a - 0xA0108) % 0x1000 % 0x30 = 0 then some (.fryChkPoly ((a - 0xA0108) / 0x1000) ((a - 0xA0108) % 0x1000 / 0x30)) else
  if 0xA0110 ≤ a ∧ a < 0xA4110 ∧ (a - 0xA0110) % 0x1000 < 0xC00 ∧ (a - 0xA0110) % 0x1000 % 0x30 = 0 then some (.fryChkInit ((a - 0xA0110) / 0x1000) ((a - 0xA0110) % 0x1000 / 0x30)) else
  if 0xA0118 ≤ a ∧ a < 0xA4118 ∧ (a - 0xA0118) % 0x1000 < 0xC00 ∧ (a - 0xA0118) % 0x1000 % 0x30 = 0 then some (.fryChkCtrl ((a - 0xA0118) / 0x1000) ((a - 0xA0118) % 0x1000 / 0x30)) else
  if 0xA0120 ≤ a ∧ a < 0xA4120 ∧ (a - 0xA0120) % 0x1000 < 0xC00 ∧ (a - 0xA0120) % 0x1000 % 0x30 = 0 then some (.fryChStatus ((a - 0xA0120) / 0x1000) ((a - 0xA0120) % 0x1000 / 0x30)) else
  if 0xA0128 ≤ a ∧ a < 0xA4128 ∧ (a - 0xA0128) % 0x1000 < 0xC00 ∧ (a - 0xA0128) % 0x1000 % 0x30 = 0 then some (.fryChErr ((a - 0xA0128) / 0x1000) ((a - 0xA0128) % 0x1000 / 0x30)) else
  none

/-- The registers of one block of the map (R739). -/
def Reg.ofBlock0F (a : Nat) : Option Reg :=
  if a = 0xF0000 then some .rasCtrl else
  if a = 0xF0008 then some .rasFaultCnt else
  if a = 0xF0010 then some .rasUnavail else
  if a = 0xF0100 then some .rasTopo else
  if a = 0xF0200 then some .rasShoalCtrl else
  if a = 0xF0208 then some .rasShoalLines else
  if 0xF0210 ≤ a ∧ a < 0xF0230 ∧ (a - 0xF0210) % 0x8 = 0 then some (.rasShoalMember ((a - 0xF0210) / 0x8)) else
  if a = 0xF0230 then some .rasShoalStandby else
  if 0xF0240 ≤ a ∧ a < 0xF02C0 ∧ (a - 0xF0240) % 0x10 = 0 then some (.rasShoalRange ((a - 0xF0240) / 0x10)) else
  if 0xF0248 ≤ a ∧ a < 0xF02C8 ∧ (a - 0xF0248) % 0x10 = 0 then some (.rasShoalRangeLines ((a - 0xF0248) / 0x10)) else
  if a = 0xF02C0 then some .rasShoalParityBase else
  if a = 0xF02D0 then some .rasShoalJournalBase else
  if a = 0xF02D8 then some .rasShoalJournalSize else
  if a = 0xF02E0 then some .rasShoalStatus else
  if a = 0xF02E8 then some .rasShoalSeal else
  if a = 0xF02F0 then some .rasShoalRepair else
  if a = 0xF0300 then some .rasAlias else
  if a = 0xF0308 then some .rasSpreadBase else
  if 0xF8000 ≤ a ∧ a < 0x100000 ∧ (a - 0xF8000) % 0x8 = 0 then some (.rasRoute ((a - 0xF8000) / 0x8)) else
  none

/-- The registers of one block of the map (R739). -/
def Reg.ofBlock0C (a : Nat) : Option Reg :=
  if a = 0xC0000 then some .hstCtrl else
  if a = 0xC0008 then some .hstLink else
  if a = 0xC0010 then some .hstErr else
  if a = 0xC0018 then some .hstAts else
  if 0xC1000 ≤ a ∧ a < 0xC1800 ∧ (a - 0xC1000) % 0x20 = 0 then some (.hstPartCtrl ((a - 0xC1000) / 0x20)) else
  if 0xC1008 ≤ a ∧ a < 0xC1808 ∧ (a - 0xC1008) % 0x20 = 0 then some (.hstPartRegionsLo ((a - 0xC1008) / 0x20)) else
  if 0xC1010 ≤ a ∧ a < 0xC1810 ∧ (a - 0xC1010) % 0x20 = 0 then some (.hstPartRegionsHi ((a - 0xC1010) / 0x20)) else
  if 0xC2000 ≤ a ∧ a < 0xC6000 ∧ (a - 0xC2000) % 0x8 = 0 then some (.hstMsixMod ((a - 0xC2000) / 0x8)) else
  none

/-- The registers of one block of the map (R739). -/
def Reg.ofBlock0D (a : Nat) : Option Reg :=
  if a = 0xD0000 then some .evtRingBase else
  if a = 0xD0008 then some .evtRingCtrl else
  if a = 0xD0010 then some .evtRingHead else
  if a = 0xD0018 then some .evtRingTail else
  if a = 0xD0020 then some .evtStatus else
  if a = 0xD0028 then some .evtSeq else
  if a = 0xD0030 then some .evtLost else
  if a = 0xD0038 then some .evtTelemCtrl else
  if a = 0xD0040 then some .evtSnapFrame else
  if 0xD0100 ≤ a ∧ a < 0xD0200 ∧ (a - 0xD0100) % 0x8 = 0 then some (.evtPerfSel ((a - 0xD0100) / 0x8)) else
  if 0xD0200 ≤ a ∧ a < 0xD0300 ∧ (a - 0xD0200) % 0x8 = 0 then some (.evtPerfCnt ((a - 0xD0200) / 0x8)) else
  if 0xD0300 ≤ a ∧ a < 0xD0400 ∧ (a - 0xD0300) % 0x8 = 0 then some (.evtPerfSnap ((a - 0xD0300) / 0x8)) else
  none

/-- The registers of one block of the map (R739). -/
def Reg.ofBlock0E (a : Nat) : Option Reg :=
  if 0xE0000 ≤ a ∧ a < 0xE2000 ∧ (a - 0xE0000) % 0x8 = 0 then some (.irqSrc ((a - 0xE0000) / 0x8)) else
  if 0xE2000 ≤ a ∧ a < 0xE2020 ∧ (a - 0xE2000) % 0x8 = 0 then some (.irqCp ((a - 0xE2000) / 0x8)) else
  if 0xE2040 ≤ a ∧ a < 0xE2060 ∧ (a - 0xE2040) % 0x8 = 0 then some (.irqCpEoi ((a - 0xE2040) / 0x8)) else
  if a = 0xE3000 then some .irqHostAck else
  if 0xE4000 ≤ a ∧ a < 0xE8000 ∧ (a - 0xE4000) % 0x8 = 0 then some (.irqVec ((a - 0xE4000) / 0x8)) else
  none

/-- The registers of one block of the map (R739). -/
def Reg.ofBlockCtx (a : Nat) : Option Reg :=
  if 0x200000 ≤ a ∧ a < 0x280000 ∧ (a - 0x200000) % 0x40 = 0 then some (.ctxCtrl ((a - 0x200000) / 0x40)) else
  if 0x200008 ≤ a ∧ a < 0x280008 ∧ (a - 0x200008) % 0x40 = 0 then some (.ctxRing ((a - 0x200008) / 0x40)) else
  if 0x200010 ≤ a ∧ a < 0x280010 ∧ (a - 0x200010) % 0x40 = 0 then some (.ctxSeg ((a - 0x200010) / 0x40)) else
  if 0x200018 ≤ a ∧ a < 0x280018 ∧ (a - 0x200018) % 0x40 = 0 then some (.ctxPasid ((a - 0x200018) / 0x40)) else
  if 0x200020 ≤ a ∧ a < 0x280020 ∧ (a - 0x200020) % 0x40 = 0 then some (.ctxQuota ((a - 0x200020) / 0x40)) else
  if 0x200028 ≤ a ∧ a < 0x280028 ∧ (a - 0x200028) % 0x40 = 0 then some (.ctxStatus ((a - 0x200028) / 0x40)) else
  if 0x200030 ≤ a ∧ a < 0x280030 ∧ (a - 0x200030) % 0x40 = 0 then some (.ctxCount ((a - 0x200030) / 0x40)) else
  none

/-- The register at an aligned BAR0 address; none where no row of R739 names it (R729). -/
def Reg.ofAddr (a : Nat) : Option Reg :=
  if a / 0x10000 = 0x0 then Reg.ofBlock00 a else
  if a / 0x10000 = 0x1 then Reg.ofBlock01 a else
  if a / 0x10000 = 0x2 then Reg.ofBlock02 a else
  if a / 0x10000 = 0x3 then Reg.ofBlock03 a else
  if a / 0x10000 = 0xB then Reg.ofBlock0B a else
  if a / 0x10000 = 0x4 then Reg.ofBlock04 a else
  if a / 0x10000 = 0x5 then Reg.ofBlock05 a else
  if a / 0x10000 = 0x6 then Reg.ofBlock06 a else
  if a / 0x10000 = 0x7 then Reg.ofBlock07 a else
  if a / 0x10000 = 0x10 then Reg.ofBlock10 a else
  if a / 0x10000 = 0x18 then Reg.ofBlock18 a else
  if 0x80000 ≤ a ∧ a < 0xA0000 then Reg.ofBlockStr a else
  if 0xA0000 ≤ a ∧ a < 0xA4000 then Reg.ofBlockFry a else
  if a / 0x10000 = 0xF then Reg.ofBlock0F a else
  if a / 0x10000 = 0xC then Reg.ofBlock0C a else
  if a / 0x10000 = 0xD then Reg.ofBlock0D a else
  if a / 0x10000 = 0xE then Reg.ofBlock0E a else
  if 0x200000 ≤ a ∧ a < 0x280000 then Reg.ofBlockCtx a else
  none

/-! Field names: `F.<register>_<FIELD>`. -/

abbrev F.frmCtrl_ENABLE : Fld := ⟨0, 1, .rw⟩
abbrev F.frmCtrl_MASTER : Fld := ⟨1, 1, .rw⟩
abbrev F.frmPeriod_PERIOD : Fld := ⟨0, 21, .rw⟩
abbrev F.frmPhase_INTAKE_END : Fld := ⟨0, 10, .rw⟩
abbrev F.frmPhase_WORK_END : Fld := ⟨16, 10, .rw⟩
abbrev F.frmPhase_REDUCE_END : Fld := ⟨32, 10, .rw⟩
abbrev F.frmPhase_COMMIT_END : Fld := ⟨48, 10, .rw⟩
abbrev F.frmApplyAt_FRAME : Fld := ⟨0, 64, .rw⟩
abbrev F.frmNumber_FRAME : Fld := ⟨0, 64, .ro⟩
abbrev F.frmTime_NS : Fld := ⟨0, 64, .ro⟩
abbrev F.frmEpoch_NS : Fld := ⟨0, 64, .rw⟩
abbrev F.frmOffset_E : Fld := ⟨0, 32, .ro⟩
abbrev F.frmGuardCnt_COUNT : Fld := ⟨0, 32, .ro⟩
abbrev F.frmOverrunCnt_COUNT : Fld := ⟨0, 32, .ro⟩
abbrev F.frmStatus_IN_STEP : Fld := ⟨0, 1, .ro⟩
abbrev F.frmStatus_HOLDOVER : Fld := ⟨1, 1, .ro⟩
abbrev F.frmStatus_PENDING : Fld := ⟨2, 1, .ro⟩
abbrev F.frmStatus_CFG_ERROR : Fld := ⟨3, 1, .w1c⟩
abbrev F.frmStatus_OUT_OF_STEP_SEEN : Fld := ⟨4, 1, .w1c⟩
abbrev F.frmStatus_SOURCE_LINK : Fld := ⟨8, 5, .ro⟩
abbrev F.frmStatus_DEPTH : Fld := ⟨16, 5, .ro⟩
abbrev F.tblChartSpillBase_BASE : Fld := ⟨16, 48, .rw⟩
abbrev F.tblChartSpillSize_LINES : Fld := ⟨0, 24, .rw⟩
abbrev F.tblChartStatus_LIVE : Fld := ⟨0, 13, .ro⟩
abbrev F.tblChartStatus_SPILLED : Fld := ⟨32, 24, .ro⟩
abbrev F.tblScatterDiscard_COUNT : Fld := ⟨0, 32, .ro⟩
abbrev F.tblMergeBypass_COUNT : Fld := ⟨0, 32, .ro⟩
abbrev F.tblTransitCombined_COUNT : Fld := ⟨0, 48, .ro⟩
abbrev F.tblLedgerMismatch_COUNT : Fld := ⟨0, 32, .ro⟩
abbrev F.tblWriteDup_COUNT : Fld := ⟨0, 32, .ro⟩
abbrev F.tblSketchCtrl_DECAY_FRAMES : Fld := ⟨0, 16, .rw⟩
abbrev F.tblMoveStatus_PENDING : Fld := ⟨0, 24, .ro⟩
abbrev F.tblMoveStatus_DROPPED : Fld := ⟨32, 32, .ro⟩
abbrev F.tblRowLockWait_COUNT : Fld := ⟨0, 32, .ro⟩
abbrev F.schPredMarked_COUNT : Fld := ⟨0, 48, .ro⟩
abbrev F.schPredIdle_COUNT : Fld := ⟨0, 48, .ro⟩
abbrev F.schPredAudit_COUNT : Fld := ⟨0, 48, .ro⟩
abbrev F.schPredMiss_COUNT : Fld := ⟨0, 48, .ro⟩
abbrev F.schUndoBase_BASE : Fld := ⟨16, 48, .rw⟩
abbrev F.schUndoSize_UNITS : Fld := ⟨0, 32, .rw⟩
abbrev F.schUndoStatus_RESERVED : Fld := ⟨0, 40, .ro⟩
abbrev F.schStepCount_STEP : Fld := ⟨0, 64, .rw⟩
abbrev F.schRngSeed_SEED : Fld := ⟨0, 64, .rw⟩
abbrev F.schRngStatus_STREAMS : Fld := ⟨0, 11, .ro⟩
abbrev F.schStragglerCnt_CARRIED : Fld := ⟨0, 32, .ro⟩
abbrev F.schStragglerCnt_DROPPED : Fld := ⟨32, 32, .ro⟩
abbrev F.schCommitCtrl_GROUP : Fld := ⟨0, 12, .rw⟩
abbrev F.schCommitStatus_ABORTS : Fld := ⟨0, 32, .ro⟩
abbrev F.schCommitStatus_LAST : Fld := ⟨32, 8, .ro⟩
abbrev F.schPoolBase_BASE : Fld := ⟨16, 48, .rw⟩
abbrev F.schPoolSize_UNITS : Fld := ⟨0, 32, .rw⟩
abbrev F.memCtrl_RESERVE : Fld := ⟨0, 1, .rw⟩
abbrev F.memCtrl_SCRUB_HOURS : Fld := ⟨8, 5, .rw⟩
abbrev F.memCtrl_CE_THRESH : Fld := ⟨16, 16, .rw⟩
abbrev F.memMapout_CHANNEL : Fld := ⟨0, 9, .ro⟩
abbrev F.memMapout_ACTIVE : Fld := ⟨9, 1, .ro⟩
abbrev F.memMapout_IMMEDIATE : Fld := ⟨10, 1, .ro⟩
abbrev F.memMapout_LINES_LEFT : Fld := ⟨16, 20, .ro⟩
abbrev F.memScrubStatus_PASSES : Fld := ⟨0, 32, .ro⟩
abbrev F.memScrubStatus_STARVED : Fld := ⟨32, 16, .ro⟩
abbrev F.memDieStatus_MAPPED : Fld := ⟨0, 4, .ro⟩
abbrev F.memDieStatus_RESERVE_FREE : Fld := ⟨4, 1, .ro⟩
abbrev F.memDieStatus_FENCED : Fld := ⟨8, 4, .ro⟩
abbrev F.memDieStatus_USABLE_MIB : Fld := ⟨16, 17, .ro⟩
abbrev F.memChMapped_MAPPED : Fld := ⟨0, 64, .ro⟩
abbrev F.memChFenced_FENCED : Fld := ⟨0, 64, .ro⟩
abbrev F.hbmErrCnt_CORRECTED : Fld := ⟨0, 32, .ro⟩
abbrev F.hbmErrCnt_UNCORRECTED : Fld := ⟨32, 32, .ro⟩
abbrev F.hbmReg_RATE : Fld := ⟨0, 16, .rw⟩
abbrev F.hbmReg_DEPTH : Fld := ⟨16, 16, .rw⟩
abbrev F.hbmReg_SHARE : Fld := ⟨32, 1, .rw⟩
abbrev F.hbmRegStatus_CAPACITY : Fld := ⟨0, 15, .ro⟩
abbrev F.hbmRegStatus_OVERCOMMIT : Fld := ⟨15, 1, .ro⟩
abbrev F.pwrCtrl_REQ : Fld := ⟨0, 2, .rw⟩
abbrev F.pwrCtrl_WAKE_DOORBELL : Fld := ⟨8, 1, .rw⟩
abbrev F.pwrCtrl_WAKE_LINK : Fld := ⟨9, 1, .rw⟩
abbrev F.pwrStatus_STATE : Fld := ⟨0, 2, .ro⟩
abbrev F.pwrStatus_BUSY : Fld := ⟨2, 1, .ro⟩
abbrev F.pwrStatus_THROTTLE : Fld := ⟨8, 8, .ro⟩
abbrev F.pwrBudget_WATTS : Fld := ⟨0, 12, .rw⟩
abbrev F.pwrBudget_RESERVE : Fld := ⟨16, 12, .rw⟩
abbrev F.pwrDie_TEMP : Fld := ⟨0, 12, .ro⟩
abbrev F.pwrDie_TRIM : Fld := ⟨12, 10, .ro⟩
abbrev F.pwrDie_EXCESS : Fld := ⟨32, 32, .ro⟩
abbrev F.schLag_LIMIT : Fld := ⟨0, 32, .rw⟩
abbrev F.schLag_ALARM : Fld := ⟨32, 1, .w1c⟩
abbrev F.schPartCfg_POLICY : Fld := ⟨0, 1, .rw⟩
abbrev F.schPartCfg_PMAX : Fld := ⟨8, 2, .rw⟩
abbrev F.schPartCfg_WEIGHT : Fld := ⟨16, 8, .rw⟩
abbrev F.schPartMiss_MISSES : Fld := ⟨0, 32, .ro⟩
abbrev F.schPartMiss_SHED : Fld := ⟨32, 32, .ro⟩
abbrev F.schRegCredit_BALANCE : Fld := ⟨0, 32, .ro⟩
abbrev F.schRegCredit_COMMITTED : Fld := ⟨32, 32, .ro⟩
abbrev F.schRegState_PSTATE : Fld := ⟨0, 2, .ro⟩
abbrev F.schRegState_PARTITION : Fld := ⟨8, 7, .ro⟩
abbrev F.schRegState_WAIT_TICKS : Fld := ⟨16, 16, .ro⟩
abbrev F.schRegBorrow_LENT : Fld := ⟨0, 32, .ro⟩
abbrev F.schRegBorrow_BORROWED : Fld := ⟨32, 32, .ro⟩
abbrev F.schRegQueue_REGION_DEPTH : Fld := ⟨0, 11, .ro⟩
abbrev F.schRegQueue_MAX_CLUSTER : Fld := ⟨16, 9, .ro⟩
abbrev F.schBarCfg_ENABLE : Fld := ⟨0, 1, .rw⟩
abbrev F.schBarCfg_SCOPE : Fld := ⟨1, 3, .rw⟩
abbrev F.schBarCfg_CUTOFF : Fld := ⟨4, 1, .rw⟩
abbrev F.schBarCfg_RELEASE_OFFSET : Fld := ⟨8, 20, .rw⟩
abbrev F.schBarCfg_GROUP : Fld := ⟨32, 12, .rw⟩
abbrev F.schBarStatus_GENERATION : Fld := ⟨0, 31, .ro⟩
abbrev F.schBarStatus_PARTIAL : Fld := ⟨31, 1, .ro⟩
abbrev F.schBarStatus_ARRIVED : Fld := ⟨32, 16, .ro⟩
abbrev F.schBarStatus_LATE : Fld := ⟨48, 8, .ro⟩
abbrev F.strCtrl_ENABLE : Fld := ⟨0, 1, .rw⟩
abbrev F.strCtrl_RETRAIN : Fld := ⟨1, 1, .wo⟩
abbrev F.strCtrl_KEEPALIVE : Fld := ⟨2, 1, .rw⟩
abbrev F.strStatus_STATE : Fld := ⟨0, 3, .ro⟩
abbrev F.strStatus_LANES : Fld := ⟨8, 5, .ro⟩
abbrev F.strStatus_PEER : Fld := ⟨16, 12, .ro⟩
abbrev F.strStatus_PEER_PORT : Fld := ⟨32, 5, .ro⟩
abbrev F.strStatus_VERSION : Fld := ⟨40, 8, .ro⟩
abbrev F.strLaneMap_TX_EXCL03 : Fld := ⟨0, 12, .ro⟩
abbrev F.strLaneMap_RX_EXCL03 : Fld := ⟨16, 12, .ro⟩
abbrev F.strFecCnt_CORRECTED : Fld := ⟨0, 32, .ro⟩
abbrev F.strFecCnt_UNCORRECTABLE : Fld := ⟨32, 32, .ro⟩
abbrev F.strRetryCnt_NAKS : Fld := ⟨0, 32, .ro⟩
abbrev F.strRetryCnt_RESENT : Fld := ⟨32, 32, .ro⟩
abbrev F.strDelay_MEASURED : Fld := ⟨0, 16, .ro⟩
abbrev F.strDelay_EXPECTED : Fld := ⟨16, 16, .ro⟩
abbrev F.strErr_UNKNOWN : Fld := ⟨0, 16, .ro⟩
abbrev F.strErr_TTL_DROP : Fld := ⟨16, 16, .ro⟩
abbrev F.strErr_CRC_FAIL : Fld := ⟨32, 32, .ro⟩
abbrev F.strSpare_SWAPS : Fld := ⟨0, 16, .ro⟩
abbrev F.strSpare_RECALS : Fld := ⟨16, 32, .ro⟩
abbrev F.rasRoute_PRIMARY : Fld := ⟨0, 5, .rw⟩
abbrev F.rasRoute_P_EN : Fld := ⟨5, 1, .rw⟩
abbrev F.rasRoute_ALT1 : Fld := ⟨8, 5, .rw⟩
abbrev F.rasRoute_A1_EN : Fld := ⟨13, 1, .rw⟩
abbrev F.rasRoute_ALT2 : Fld := ⟨16, 5, .rw⟩
abbrev F.rasRoute_A2_EN : Fld := ⟨21, 1, .rw⟩
abbrev F.rasTopo_PACKAGES : Fld := ⟨0, 13, .rw⟩
abbrev F.schFill_ACCEPT : Fld := ⟨0, 64, .rw⟩
abbrev F.schGroupStatus_GROUPS : Fld := ⟨0, 11, .ro⟩
abbrev F.schGroupStatus_MEMBERS : Fld := ⟨16, 17, .ro⟩
abbrev F.schCollDrop_COUNT : Fld := ⟨0, 32, .ro⟩
abbrev F.ctxCtrl_ENABLE : Fld := ⟨0, 1, .rw⟩
abbrev F.ctxCtrl_RESET : Fld := ⟨1, 1, .wo⟩
abbrev F.ctxCtrl_SEG_RELOAD : Fld := ⟨2, 1, .wo⟩
abbrev F.ctxCtrl_FUNCTION : Fld := ⟨8, 8, .rw⟩
abbrev F.ctxCtrl_SLOT : Fld := ⟨16, 5, .rw⟩
abbrev F.ctxCtrl_PARTITION : Fld := ⟨24, 6, .rw⟩
abbrev F.ctxCtrl_PRIORITY : Fld := ⟨32, 4, .rw⟩
abbrev F.ctxCtrl_FLASH : Fld := ⟨36, 4, .rw⟩
abbrev F.ctxCtrl_CQ_VECTOR : Fld := ⟨52, 11, .rw⟩
abbrev F.ctxRing_HDR_ADDR : Fld := ⟨6, 58, .rw⟩
abbrev F.ctxSeg_SEG_ADDR : Fld := ⟨6, 58, .rw⟩
abbrev F.ctxPasid_PASID : Fld := ⟨0, 20, .rw⟩
abbrev F.ctxPasid_PASID_EN : Fld := ⟨20, 1, .rw⟩
abbrev F.ctxPasid_SEG_COUNT : Fld := ⟨32, 7, .rw⟩
abbrev F.ctxQuota_QUOTA_OPS : Fld := ⟨0, 16, .rw⟩
abbrev F.ctxQuota_QUOTA_CREDIT : Fld := ⟨32, 8, .rw⟩
abbrev F.ctxStatus_ACTIVE : Fld := ⟨0, 1, .ro⟩
abbrev F.ctxStatus_RESET_BUSY : Fld := ⟨1, 1, .ro⟩
abbrev F.ctxStatus_ERR : Fld := ⟨8, 8, .ro⟩
abbrev F.ctxStatus_SQ_HEAD : Fld := ⟨32, 16, .ro⟩
abbrev F.ctxStatus_CQ_TAIL : Fld := ⟨48, 16, .ro⟩
abbrev F.ctxCount_DB_IGNORED : Fld := ⟨0, 32, .ro⟩
abbrev F.vfCtxStatus_STATUS : Fld := ⟨0, 64, .ro⟩
abbrev F.vfMsixMod_TIMER : Fld := ⟨0, 10, .rw⟩
abbrev F.vfMsixMod_COUNT : Fld := ⟨16, 8, .rw⟩
abbrev F.vfMsixPba_PENDING : Fld := ⟨0, 8, .ro⟩
abbrev F.hstCtrl_BAR4_EN : Fld := ⟨0, 1, .rw⟩
abbrev F.hstLink_RATE : Fld := ⟨0, 3, .ro⟩
abbrev F.hstLink_WIDTH : Fld := ⟨3, 5, .ro⟩
abbrev F.hstLink_FLIT : Fld := ⟨8, 1, .ro⟩
abbrev F.hstLink_REVERSED : Fld := ⟨9, 1, .ro⟩
abbrev F.hstLink_IDE : Fld := ⟨10, 1, .ro⟩
abbrev F.hstErr_CQ_LOST : Fld := ⟨0, 32, .ro⟩
abbrev F.hstErr_BAR4_MISS : Fld := ⟨32, 32, .ro⟩
abbrev F.hstAts_MISSES : Fld := ⟨0, 32, .ro⟩
abbrev F.hstAts_INVALIDATIONS : Fld := ⟨32, 32, .ro⟩
abbrev F.hstPartCtrl_ENABLE : Fld := ⟨0, 1, .rw⟩
abbrev F.hstPartCtrl_VIEW : Fld := ⟨1, 1, .rw⟩
abbrev F.hstPartCtrl_ACTIVE : Fld := ⟨2, 1, .ro⟩
abbrev F.hstPartCtrl_ERR : Fld := ⟨8, 3, .ro⟩
abbrev F.hstPartCtrl_PRIMARY : Fld := ⟨16, 13, .rw⟩
abbrev F.hstPartRegionsLo_REGIONS : Fld := ⟨0, 64, .rw⟩
abbrev F.hstPartRegionsHi_REGIONS : Fld := ⟨0, 64, .rw⟩
abbrev F.hstMsixMod_TIMER : Fld := ⟨0, 10, .rw⟩
abbrev F.hstMsixMod_COUNT : Fld := ⟨16, 8, .rw⟩
abbrev F.fryCtrl_ENABLE : Fld := ⟨0, 1, .rw⟩
abbrev F.fryCtrl_RESET : Fld := ⟨1, 1, .wo⟩
abbrev F.fryCtrl_FLASH_TIMEOUT : Fld := ⟨16, 14, .rw⟩
abbrev F.fryStatus_STATE : Fld := ⟨0, 3, .ro⟩
abbrev F.fryStatus_LANES : Fld := ⟨8, 4, .ro⟩
abbrev F.fryStatus_EPOCH : Fld := ⟨12, 4, .ro⟩
abbrev F.fryStatus_VERSION : Fld := ⟨16, 8, .ro⟩
abbrev F.fryErr_UNCORRECTABLE : Fld := ⟨0, 32, .ro⟩
abbrev F.fryErr_HCRC_FAIL : Fld := ⟨32, 32, .ro⟩
abbrev F.fryDiscard_DISCARDED : Fld := ⟨0, 32, .ro⟩
abbrev F.fryDiscard_RESETS : Fld := ⟨32, 16, .ro⟩
abbrev F.fryFlash_OUTSTANDING : Fld := ⟨0, 13, .ro⟩
abbrev F.fryFlash_TIMEOUTS : Fld := ⟨32, 32, .ro⟩
abbrev F.fryBufBase_BASE : Fld := ⟨16, 48, .rw⟩
abbrev F.fryChCfg_ENABLE : Fld := ⟨0, 1, .rw⟩
abbrev F.fryChCfg_KIND : Fld := ⟨1, 1, .ro⟩
abbrev F.fryChCfg_CONTEXT : Fld := ⟨8, 13, .rw⟩
abbrev F.fryChCfg_CREDITS : Fld := ⟨32, 16, .rw⟩
abbrev F.fryChkPoly_POLY : Fld := ⟨0, 64, .rw⟩
abbrev F.fryChkInit_INIT : Fld := ⟨0, 64, .rw⟩
abbrev F.fryChkCtrl_WIDTH : Fld := ⟨0, 7, .rw⟩
abbrev F.fryChkCtrl_REFIN : Fld := ⟨7, 1, .rw⟩
abbrev F.fryChkCtrl_REFOUT : Fld := ⟨8, 1, .rw⟩
abbrev F.fryChkCtrl_INVERT : Fld := ⟨9, 1, .rw⟩
abbrev F.fryChStatus_RX_NEXT : Fld := ⟨0, 16, .ro⟩
abbrev F.fryChStatus_TX_NEXT : Fld := ⟨16, 16, .ro⟩
abbrev F.fryChStatus_BUFFERED : Fld := ⟨32, 16, .ro⟩
abbrev F.fryChStatus_ERR : Fld := ⟨48, 8, .ro⟩
abbrev F.fryChErr_REPEATS : Fld := ⟨0, 16, .ro⟩
abbrev F.fryChErr_GAPS : Fld := ⟨16, 16, .ro⟩
abbrev F.fryChErr_CHECK_FAIL : Fld := ⟨32, 16, .ro⟩
abbrev F.rasCtrl_BACKUP_MASTER : Fld := ⟨0, 1, .rw⟩
abbrev F.rasFaultCnt_RERUNS : Fld := ⟨0, 32, .ro⟩
abbrev F.rasFaultCnt_ABANDONED : Fld := ⟨32, 32, .ro⟩
abbrev F.rasUnavail_NS : Fld := ⟨0, 64, .ro⟩
abbrev F.rasShoalCtrl_ENABLE : Fld := ⟨0, 1, .rw⟩
abbrev F.rasShoalCtrl_INIT : Fld := ⟨1, 1, .wo⟩
abbrev F.rasShoalCtrl_MODE : Fld := ⟨2, 1, .rw⟩
abbrev F.rasShoalCtrl_K : Fld := ⟨8, 4, .rw⟩
abbrev F.rasShoalCtrl_M : Fld := ⟨12, 2, .rw⟩
abbrev F.rasShoalCtrl_ERR : Fld := ⟨16, 4, .ro⟩
abbrev F.rasShoalLines_LINES : Fld := ⟨0, 32, .rw⟩
abbrev F.rasShoalMember_ID0 : Fld := ⟨0, 12, .rw⟩
abbrev F.rasShoalMember_ID1 : Fld := ⟨16, 12, .rw⟩
abbrev F.rasShoalMember_ID2 : Fld := ⟨32, 12, .rw⟩
abbrev F.rasShoalMember_ID3 : Fld := ⟨48, 12, .rw⟩
abbrev F.rasShoalStandby_ID : Fld := ⟨0, 12, .rw⟩
abbrev F.rasShoalStandby_VALID : Fld := ⟨12, 1, .rw⟩
abbrev F.rasShoalRange_BASE : Fld := ⟨11, 53, .rw⟩
abbrev F.rasShoalRangeLines_LINES : Fld := ⟨0, 32, .rw⟩
abbrev F.rasShoalParityBase_BASE : Fld := ⟨16, 48, .rw⟩
abbrev F.rasShoalJournalBase_BASE : Fld := ⟨16, 48, .rw⟩
abbrev F.rasShoalJournalSize_UNITS : Fld := ⟨0, 32, .rw⟩
abbrev F.rasShoalStatus_STATE : Fld := ⟨0, 3, .ro⟩
abbrev F.rasShoalStatus_BEHIND : Fld := ⟨3, 1, .ro⟩
abbrev F.rasShoalStatus_LOST : Fld := ⟨16, 12, .ro⟩
abbrev F.rasShoalSeal_SEAL : Fld := ⟨0, 48, .ro⟩
abbrev F.rasShoalRepair_REPAIRED : Fld := ⟨0, 32, .ro⟩
abbrev F.rasShoalRepair_REBUILT : Fld := ⟨32, 32, .ro⟩
abbrev F.rasAlias_ID : Fld := ⟨0, 12, .rw⟩
abbrev F.rasAlias_VALID : Fld := ⟨12, 1, .rw⟩
abbrev F.rasSpreadBase_BASE : Fld := ⟨16, 48, .rw⟩
abbrev F.devArch_VERSION : Fld := ⟨0, 8, .ro⟩
abbrev F.devArch_STEPPING : Fld := ⟨8, 8, .ro⟩
abbrev F.devArch_DEVICE : Fld := ⟨16, 16, .ro⟩
abbrev F.devStatus_STAGE : Fld := ⟨0, 4, .ro⟩
abbrev F.devStatus_PASSED : Fld := ⟨8, 8, .ro⟩
abbrev F.devStatus_FAILED : Fld := ⟨16, 8, .ro⟩
abbrev F.devReset_PACKAGE : Fld := ⟨0, 1, .wo⟩
abbrev F.devReset_DIE_INDEX : Fld := ⟨1, 3, .wo⟩
abbrev F.devReset_DIE : Fld := ⟨4, 1, .wo⟩
abbrev F.devFw_FW_VERSION : Fld := ⟨0, 32, .ro⟩
abbrev F.devFw_SLOT : Fld := ⟨32, 1, .ro⟩
abbrev F.devFw_SVN_FUSE : Fld := ⟨40, 7, .ro⟩
abbrev F.devFwStage_ADDR : Fld := ⟨6, 58, .rw⟩
abbrev F.devFwCtrl_UPDATE : Fld := ⟨0, 1, .wo⟩
abbrev F.devFwCtrl_COMMIT_SVN : Fld := ⟨1, 1, .wo⟩
abbrev F.devFwCtrl_RESULT : Fld := ⟨8, 2, .ro⟩
abbrev F.devReefGen_GENERATION : Fld := ⟨0, 32, .ro⟩
abbrev F.devShell_PRESENT : Fld := ⟨0, 1, .ro⟩
abbrev F.devShell_ID_VALID : Fld := ⟨1, 1, .ro⟩
abbrev F.devShell_TYPE_MISMATCH : Fld := ⟨2, 1, .ro⟩
abbrev F.devShell_TYPE : Fld := ⟨8, 8, .ro⟩
abbrev F.devShell_LENGTH_CM : Fld := ⟨32, 32, .ro⟩
abbrev F.clkCtrl_XTAL_RETURN : Fld := ⟨0, 1, .rw⟩
abbrev F.clkStatus_REF : Fld := ⟨0, 3, .ro⟩
abbrev F.clkStatus_XTAL_OK : Fld := ⟨3, 1, .ro⟩
abbrev F.clkStatus_XTAL_FAIL : Fld := ⟨4, 1, .w1c⟩
abbrev F.clkStatus_REF_LINK : Fld := ⟨8, 5, .ro⟩
abbrev F.clkXtal_COUNT : Fld := ⟨0, 18, .ro⟩
abbrev F.clkXtal_BAD : Fld := ⟨32, 16, .ro⟩
abbrev F.clkOsc_TRIM : Fld := ⟨0, 8, .ro⟩
abbrev F.clkOsc_PLL_FAIL : Fld := ⟨32, 32, .ro⟩
abbrev F.cswCtrl_MGMT_WRITE : Fld := ⟨0, 1, .rw⟩
abbrev F.cswCtrl_STATUS_MS : Fld := ⟨8, 8, .rw⟩
abbrev F.cswAddr_POSITION : Fld := ⟨0, 6, .ro⟩
abbrev F.cswAddr_CHASSIS : Fld := ⟨6, 6, .ro⟩
abbrev F.cswAddr_VALID : Fld := ⟨12, 1, .ro⟩
abbrev F.cswStatus_LIGHT : Fld := ⟨0, 1, .ro⟩
abbrev F.cswStatus_LOCKED : Fld := ⟨1, 1, .ro⟩
abbrev F.cswStatus_HEAD : Fld := ⟨2, 1, .ro⟩
abbrev F.cswStatus_CONFLICT : Fld := ⟨3, 1, .w1c⟩
abbrev F.cswStatus_FULL : Fld := ⟨4, 1, .w1c⟩
abbrev F.cswCnt_CELLS : Fld := ⟨0, 32, .ro⟩
abbrev F.cswCnt_CRC_FAIL : Fld := ⟨32, 32, .ro⟩
abbrev F.evtRingBase_BASE : Fld := ⟨12, 52, .rw⟩
abbrev F.evtRingCtrl_ENABLE : Fld := ⟨0, 1, .rw⟩
abbrev F.evtRingCtrl_MODE : Fld := ⟨1, 1, .rw⟩
abbrev F.evtRingCtrl_LOG2 : Fld := ⟨8, 5, .rw⟩
abbrev F.evtRingHead_HEAD : Fld := ⟨0, 16, .rw⟩
abbrev F.evtRingTail_TAIL : Fld := ⟨0, 16, .ro⟩
abbrev F.evtRingTail_GEN : Fld := ⟨16, 1, .ro⟩
abbrev F.evtStatus_PENDING : Fld := ⟨0, 7, .ro⟩
abbrev F.evtStatus_COALESCING : Fld := ⟨7, 1, .ro⟩
abbrev F.evtStatus_FULL : Fld := ⟨8, 1, .ro⟩
abbrev F.evtStatus_OVERWRITTEN : Fld := ⟨32, 32, .ro⟩
abbrev F.evtSeq_SEQ : Fld := ⟨0, 64, .ro⟩
abbrev F.evtLost_COUNT : Fld := ⟨0, 32, .ro⟩
abbrev F.evtTelemCtrl_FRAMES : Fld := ⟨0, 16, .rw⟩
abbrev F.evtTelemCtrl_SNAP : Fld := ⟨16, 1, .wo⟩
abbrev F.evtSnapFrame_FRAME : Fld := ⟨0, 64, .ro⟩
abbrev F.evtPerfSel_EVENT : Fld := ⟨0, 8, .rw⟩
abbrev F.evtPerfSel_UNIT : Fld := ⟨8, 16, .rw⟩
abbrev F.evtPerfCnt_COUNT : Fld := ⟨0, 48, .rw⟩
abbrev F.evtPerfSnap_COUNT : Fld := ⟨0, 48, .ro⟩
abbrev F.irqSrc_ENABLE : Fld := ⟨0, 1, .rw⟩
abbrev F.irqSrc_SENSE : Fld := ⟨1, 2, .rw⟩
abbrev F.irqSrc_LOG : Fld := ⟨3, 1, .rw⟩
abbrev F.irqSrc_PENDING : Fld := ⟨4, 1, .w1c⟩
abbrev F.irqSrc_LINE : Fld := ⟨5, 1, .ro⟩
abbrev F.irqSrc_PRIORITY : Fld := ⟨8, 4, .rw⟩
abbrev F.irqSrc_TARGET : Fld := ⟨12, 3, .rw⟩
abbrev F.irqSrc_VECTOR : Fld := ⟨16, 11, .rw⟩
abbrev F.irqSrc_LOST : Fld := ⟨32, 16, .ro⟩
abbrev F.irqCp_THRESH : Fld := ⟨0, 4, .rw⟩
abbrev F.irqCp_DEPTH : Fld := ⟨4, 5, .ro⟩
abbrev F.irqCp_RUNNING : Fld := ⟨12, 4, .ro⟩
abbrev F.irqCp_TIMER : Fld := ⟨16, 10, .rw⟩
abbrev F.irqCp_IDLE : Fld := ⟨26, 1, .ro⟩
abbrev F.irqCpEoi_SOURCE : Fld := ⟨0, 10, .wo⟩
abbrev F.irqHostAck_VECTOR : Fld := ⟨0, 11, .wo⟩
abbrev F.irqVec_THRESH : Fld := ⟨0, 4, .rw⟩
abbrev F.irqVec_IN_SERVICE : Fld := ⟨4, 1, .ro⟩
abbrev F.irqVec_LEVEL : Fld := ⟨8, 4, .ro⟩
abbrev F.devLock_FRAMES : Fld := ⟨0, 1, .w1s⟩
abbrev F.devLock_POWER : Fld := ⟨1, 1, .w1s⟩
abbrev F.devLock_MEMORY : Fld := ⟨2, 1, .w1s⟩
abbrev F.devLock_TOPOLOGY : Fld := ⟨3, 1, .w1s⟩
abbrev F.devLock_SHOAL : Fld := ⟨4, 1, .w1s⟩
abbrev F.devLock_FIRMWARE : Fld := ⟨5, 1, .w1s⟩
abbrev F.devLock_HOST : Fld := ⟨6, 1, .w1s⟩
abbrev F.devLock_MANAGEMENT : Fld := ⟨7, 1, .w1s⟩
abbrev F.devAccess_BAD_SIZE : Fld := ⟨0, 16, .ro⟩
abbrev F.devAccess_UNMAPPED : Fld := ⟨16, 16, .ro⟩
abbrev F.devAccess_LOCKED : Fld := ⟨32, 16, .ro⟩
abbrev F.devAccess_SPLIT : Fld := ⟨48, 16, .ro⟩

/-- The fields of a register that are not reserved. -/
def Reg.fields : Reg → List Fld
  | .frmCtrl => [F.frmCtrl_ENABLE, F.frmCtrl_MASTER]
  | .frmPeriod => [F.frmPeriod_PERIOD]
  | .frmPhase => [F.frmPhase_INTAKE_END, F.frmPhase_WORK_END, F.frmPhase_REDUCE_END, F.frmPhase_COMMIT_END]
  | .frmApplyAt => [F.frmApplyAt_FRAME]
  | .frmNumber => [F.frmNumber_FRAME]
  | .frmTime => [F.frmTime_NS]
  | .frmEpoch => [F.frmEpoch_NS]
  | .frmOffset => [F.frmOffset_E]
  | .frmGuardCnt => [F.frmGuardCnt_COUNT]
  | .frmOverrunCnt => [F.frmOverrunCnt_COUNT]
  | .frmStatus => [F.frmStatus_IN_STEP, F.frmStatus_HOLDOVER, F.frmStatus_PENDING, F.frmStatus_CFG_ERROR, F.frmStatus_OUT_OF_STEP_SEEN, F.frmStatus_SOURCE_LINK, F.frmStatus_DEPTH]
  | .tblChartSpillBase _ => [F.tblChartSpillBase_BASE]
  | .tblChartSpillSize _ => [F.tblChartSpillSize_LINES]
  | .tblChartStatus => [F.tblChartStatus_LIVE, F.tblChartStatus_SPILLED]
  | .tblScatterDiscard => [F.tblScatterDiscard_COUNT]
  | .tblMergeBypass => [F.tblMergeBypass_COUNT]
  | .tblTransitCombined => [F.tblTransitCombined_COUNT]
  | .tblLedgerMismatch => [F.tblLedgerMismatch_COUNT]
  | .tblWriteDup => [F.tblWriteDup_COUNT]
  | .tblSketchCtrl => [F.tblSketchCtrl_DECAY_FRAMES]
  | .tblMoveStatus => [F.tblMoveStatus_PENDING, F.tblMoveStatus_DROPPED]
  | .tblRowLockWait => [F.tblRowLockWait_COUNT]
  | .schPredMarked _ => [F.schPredMarked_COUNT]
  | .schPredIdle _ => [F.schPredIdle_COUNT]
  | .schPredAudit _ => [F.schPredAudit_COUNT]
  | .schPredMiss _ => [F.schPredMiss_COUNT]
  | .schUndoBase _ => [F.schUndoBase_BASE]
  | .schUndoSize _ => [F.schUndoSize_UNITS]
  | .schUndoStatus _ => [F.schUndoStatus_RESERVED]
  | .schStepCount _ => [F.schStepCount_STEP]
  | .schRngSeed _ => [F.schRngSeed_SEED]
  | .schRngStatus _ => [F.schRngStatus_STREAMS]
  | .schStragglerCnt _ => [F.schStragglerCnt_CARRIED, F.schStragglerCnt_DROPPED]
  | .schCommitCtrl _ => [F.schCommitCtrl_GROUP]
  | .schCommitStatus _ => [F.schCommitStatus_ABORTS, F.schCommitStatus_LAST]
  | .schPoolBase _ => [F.schPoolBase_BASE]
  | .schPoolSize _ => [F.schPoolSize_UNITS]
  | .memCtrl => [F.memCtrl_RESERVE, F.memCtrl_SCRUB_HOURS, F.memCtrl_CE_THRESH]
  | .memMapout => [F.memMapout_CHANNEL, F.memMapout_ACTIVE, F.memMapout_IMMEDIATE, F.memMapout_LINES_LEFT]
  | .memScrubStatus => [F.memScrubStatus_PASSES, F.memScrubStatus_STARVED]
  | .memDieStatus _ => [F.memDieStatus_MAPPED, F.memDieStatus_RESERVE_FREE, F.memDieStatus_FENCED, F.memDieStatus_USABLE_MIB]
  | .memChMapped _ => [F.memChMapped_MAPPED]
  | .memChFenced _ => [F.memChFenced_FENCED]
  | .hbmErrCnt _ => [F.hbmErrCnt_CORRECTED, F.hbmErrCnt_UNCORRECTED]
  | .hbmReg _ _ => [F.hbmReg_RATE, F.hbmReg_DEPTH, F.hbmReg_SHARE]
  | .hbmRegStatus _ => [F.hbmRegStatus_CAPACITY, F.hbmRegStatus_OVERCOMMIT]
  | .pwrCtrl => [F.pwrCtrl_REQ, F.pwrCtrl_WAKE_DOORBELL, F.pwrCtrl_WAKE_LINK]
  | .pwrStatus => [F.pwrStatus_STATE, F.pwrStatus_BUSY, F.pwrStatus_THROTTLE]
  | .pwrBudget => [F.pwrBudget_WATTS, F.pwrBudget_RESERVE]
  | .pwrDie _ => [F.pwrDie_TEMP, F.pwrDie_TRIM, F.pwrDie_EXCESS]
  | .schLag => [F.schLag_LIMIT, F.schLag_ALARM]
  | .schPartCfg _ => [F.schPartCfg_POLICY, F.schPartCfg_PMAX, F.schPartCfg_WEIGHT]
  | .schPartMiss _ => [F.schPartMiss_MISSES, F.schPartMiss_SHED]
  | .schRegCredit _ => [F.schRegCredit_BALANCE, F.schRegCredit_COMMITTED]
  | .schRegState _ => [F.schRegState_PSTATE, F.schRegState_PARTITION, F.schRegState_WAIT_TICKS]
  | .schRegBorrow _ => [F.schRegBorrow_LENT, F.schRegBorrow_BORROWED]
  | .schRegQueue _ => [F.schRegQueue_REGION_DEPTH, F.schRegQueue_MAX_CLUSTER]
  | .schBarCfg _ _ => [F.schBarCfg_ENABLE, F.schBarCfg_SCOPE, F.schBarCfg_CUTOFF, F.schBarCfg_RELEASE_OFFSET, F.schBarCfg_GROUP]
  | .schBarStatus _ _ => [F.schBarStatus_GENERATION, F.schBarStatus_PARTIAL, F.schBarStatus_ARRIVED, F.schBarStatus_LATE]
  | .strCtrl _ => [F.strCtrl_ENABLE, F.strCtrl_RETRAIN, F.strCtrl_KEEPALIVE]
  | .strStatus _ => [F.strStatus_STATE, F.strStatus_LANES, F.strStatus_PEER, F.strStatus_PEER_PORT, F.strStatus_VERSION]
  | .strLaneMap _ => [F.strLaneMap_TX_EXCL03, F.strLaneMap_RX_EXCL03]
  | .strFecCnt _ => [F.strFecCnt_CORRECTED, F.strFecCnt_UNCORRECTABLE]
  | .strRetryCnt _ => [F.strRetryCnt_NAKS, F.strRetryCnt_RESENT]
  | .strDelay _ => [F.strDelay_MEASURED, F.strDelay_EXPECTED]
  | .strErr _ => [F.strErr_UNKNOWN, F.strErr_TTL_DROP, F.strErr_CRC_FAIL]
  | .strSpare _ => [F.strSpare_SWAPS, F.strSpare_RECALS]
  | .rasRoute _ => [F.rasRoute_PRIMARY, F.rasRoute_P_EN, F.rasRoute_ALT1, F.rasRoute_A1_EN, F.rasRoute_ALT2, F.rasRoute_A2_EN]
  | .rasTopo => [F.rasTopo_PACKAGES]
  | .schFill _ => [F.schFill_ACCEPT]
  | .schGroupStatus => [F.schGroupStatus_GROUPS, F.schGroupStatus_MEMBERS]
  | .schCollDrop => [F.schCollDrop_COUNT]
  | .ctxCtrl _ => [F.ctxCtrl_ENABLE, F.ctxCtrl_RESET, F.ctxCtrl_SEG_RELOAD, F.ctxCtrl_FUNCTION, F.ctxCtrl_SLOT, F.ctxCtrl_PARTITION, F.ctxCtrl_PRIORITY, F.ctxCtrl_FLASH, F.ctxCtrl_CQ_VECTOR]
  | .ctxRing _ => [F.ctxRing_HDR_ADDR]
  | .ctxSeg _ => [F.ctxSeg_SEG_ADDR]
  | .ctxPasid _ => [F.ctxPasid_PASID, F.ctxPasid_PASID_EN, F.ctxPasid_SEG_COUNT]
  | .ctxQuota _ => [F.ctxQuota_QUOTA_OPS, F.ctxQuota_QUOTA_CREDIT]
  | .ctxStatus _ => [F.ctxStatus_ACTIVE, F.ctxStatus_RESET_BUSY, F.ctxStatus_ERR, F.ctxStatus_SQ_HEAD, F.ctxStatus_CQ_TAIL]
  | .ctxCount _ => [F.ctxCount_DB_IGNORED]
  | .vfCtxStatus _ _ => [F.vfCtxStatus_STATUS]
  | .vfMsixMod _ _ => [F.vfMsixMod_TIMER, F.vfMsixMod_COUNT]
  | .vfMsixPba _ => [F.vfMsixPba_PENDING]
  | .hstCtrl => [F.hstCtrl_BAR4_EN]
  | .hstLink => [F.hstLink_RATE, F.hstLink_WIDTH, F.hstLink_FLIT, F.hstLink_REVERSED, F.hstLink_IDE]
  | .hstErr => [F.hstErr_CQ_LOST, F.hstErr_BAR4_MISS]
  | .hstAts => [F.hstAts_MISSES, F.hstAts_INVALIDATIONS]
  | .hstPartCtrl _ => [F.hstPartCtrl_ENABLE, F.hstPartCtrl_VIEW, F.hstPartCtrl_ACTIVE, F.hstPartCtrl_ERR, F.hstPartCtrl_PRIMARY]
  | .hstPartRegionsLo _ => [F.hstPartRegionsLo_REGIONS]
  | .hstPartRegionsHi _ => [F.hstPartRegionsHi_REGIONS]
  | .hstMsixMod _ => [F.hstMsixMod_TIMER, F.hstMsixMod_COUNT]
  | .fryCtrl _ => [F.fryCtrl_ENABLE, F.fryCtrl_RESET, F.fryCtrl_FLASH_TIMEOUT]
  | .fryStatus _ => [F.fryStatus_STATE, F.fryStatus_LANES, F.fryStatus_EPOCH, F.fryStatus_VERSION]
  | .fryErr _ => [F.fryErr_UNCORRECTABLE, F.fryErr_HCRC_FAIL]
  | .fryDiscard _ => [F.fryDiscard_DISCARDED, F.fryDiscard_RESETS]
  | .fryFlash _ => [F.fryFlash_OUTSTANDING, F.fryFlash_TIMEOUTS]
  | .fryBufBase _ => [F.fryBufBase_BASE]
  | .fryChCfg _ _ => [F.fryChCfg_ENABLE, F.fryChCfg_KIND, F.fryChCfg_CONTEXT, F.fryChCfg_CREDITS]
  | .fryChkPoly _ _ => [F.fryChkPoly_POLY]
  | .fryChkInit _ _ => [F.fryChkInit_INIT]
  | .fryChkCtrl _ _ => [F.fryChkCtrl_WIDTH, F.fryChkCtrl_REFIN, F.fryChkCtrl_REFOUT, F.fryChkCtrl_INVERT]
  | .fryChStatus _ _ => [F.fryChStatus_RX_NEXT, F.fryChStatus_TX_NEXT, F.fryChStatus_BUFFERED, F.fryChStatus_ERR]
  | .fryChErr _ _ => [F.fryChErr_REPEATS, F.fryChErr_GAPS, F.fryChErr_CHECK_FAIL]
  | .rasCtrl => [F.rasCtrl_BACKUP_MASTER]
  | .rasFaultCnt => [F.rasFaultCnt_RERUNS, F.rasFaultCnt_ABANDONED]
  | .rasUnavail => [F.rasUnavail_NS]
  | .rasShoalCtrl => [F.rasShoalCtrl_ENABLE, F.rasShoalCtrl_INIT, F.rasShoalCtrl_MODE, F.rasShoalCtrl_K, F.rasShoalCtrl_M, F.rasShoalCtrl_ERR]
  | .rasShoalLines => [F.rasShoalLines_LINES]
  | .rasShoalMember _ => [F.rasShoalMember_ID0, F.rasShoalMember_ID1, F.rasShoalMember_ID2, F.rasShoalMember_ID3]
  | .rasShoalStandby => [F.rasShoalStandby_ID, F.rasShoalStandby_VALID]
  | .rasShoalRange _ => [F.rasShoalRange_BASE]
  | .rasShoalRangeLines _ => [F.rasShoalRangeLines_LINES]
  | .rasShoalParityBase => [F.rasShoalParityBase_BASE]
  | .rasShoalJournalBase => [F.rasShoalJournalBase_BASE]
  | .rasShoalJournalSize => [F.rasShoalJournalSize_UNITS]
  | .rasShoalStatus => [F.rasShoalStatus_STATE, F.rasShoalStatus_BEHIND, F.rasShoalStatus_LOST]
  | .rasShoalSeal => [F.rasShoalSeal_SEAL]
  | .rasShoalRepair => [F.rasShoalRepair_REPAIRED, F.rasShoalRepair_REBUILT]
  | .rasAlias => [F.rasAlias_ID, F.rasAlias_VALID]
  | .rasSpreadBase => [F.rasSpreadBase_BASE]
  | .devArch => [F.devArch_VERSION, F.devArch_STEPPING, F.devArch_DEVICE]
  | .devStatus => [F.devStatus_STAGE, F.devStatus_PASSED, F.devStatus_FAILED]
  | .devReset => [F.devReset_PACKAGE, F.devReset_DIE_INDEX, F.devReset_DIE]
  | .devFw => [F.devFw_FW_VERSION, F.devFw_SLOT, F.devFw_SVN_FUSE]
  | .devFwStage => [F.devFwStage_ADDR]
  | .devFwCtrl => [F.devFwCtrl_UPDATE, F.devFwCtrl_COMMIT_SVN, F.devFwCtrl_RESULT]
  | .devReefGen => [F.devReefGen_GENERATION]
  | .devShell _ => [F.devShell_PRESENT, F.devShell_ID_VALID, F.devShell_TYPE_MISMATCH, F.devShell_TYPE, F.devShell_LENGTH_CM]
  | .clkCtrl => [F.clkCtrl_XTAL_RETURN]
  | .clkStatus => [F.clkStatus_REF, F.clkStatus_XTAL_OK, F.clkStatus_XTAL_FAIL, F.clkStatus_REF_LINK]
  | .clkXtal => [F.clkXtal_COUNT, F.clkXtal_BAD]
  | .clkOsc => [F.clkOsc_TRIM, F.clkOsc_PLL_FAIL]
  | .cswCtrl => [F.cswCtrl_MGMT_WRITE, F.cswCtrl_STATUS_MS]
  | .cswAddr => [F.cswAddr_POSITION, F.cswAddr_CHASSIS, F.cswAddr_VALID]
  | .cswStatus => [F.cswStatus_LIGHT, F.cswStatus_LOCKED, F.cswStatus_HEAD, F.cswStatus_CONFLICT, F.cswStatus_FULL]
  | .cswCnt => [F.cswCnt_CELLS, F.cswCnt_CRC_FAIL]
  | .evtRingBase => [F.evtRingBase_BASE]
  | .evtRingCtrl => [F.evtRingCtrl_ENABLE, F.evtRingCtrl_MODE, F.evtRingCtrl_LOG2]
  | .evtRingHead => [F.evtRingHead_HEAD]
  | .evtRingTail => [F.evtRingTail_TAIL, F.evtRingTail_GEN]
  | .evtStatus => [F.evtStatus_PENDING, F.evtStatus_COALESCING, F.evtStatus_FULL, F.evtStatus_OVERWRITTEN]
  | .evtSeq => [F.evtSeq_SEQ]
  | .evtLost => [F.evtLost_COUNT]
  | .evtTelemCtrl => [F.evtTelemCtrl_FRAMES, F.evtTelemCtrl_SNAP]
  | .evtSnapFrame => [F.evtSnapFrame_FRAME]
  | .evtPerfSel _ => [F.evtPerfSel_EVENT, F.evtPerfSel_UNIT]
  | .evtPerfCnt _ => [F.evtPerfCnt_COUNT]
  | .evtPerfSnap _ => [F.evtPerfSnap_COUNT]
  | .irqSrc _ => [F.irqSrc_ENABLE, F.irqSrc_SENSE, F.irqSrc_LOG, F.irqSrc_PENDING, F.irqSrc_LINE, F.irqSrc_PRIORITY, F.irqSrc_TARGET, F.irqSrc_VECTOR, F.irqSrc_LOST]
  | .irqCp _ => [F.irqCp_THRESH, F.irqCp_DEPTH, F.irqCp_RUNNING, F.irqCp_TIMER, F.irqCp_IDLE]
  | .irqCpEoi _ => [F.irqCpEoi_SOURCE]
  | .irqHostAck => [F.irqHostAck_VECTOR]
  | .irqVec _ => [F.irqVec_THRESH, F.irqVec_IN_SERVICE, F.irqVec_LEVEL]
  | .devLock => [F.devLock_FRAMES, F.devLock_POWER, F.devLock_MEMORY, F.devLock_TOPOLOGY, F.devLock_SHOAL, F.devLock_FIRMWARE, F.devLock_HOST, F.devLock_MANAGEMENT]
  | .devAccess => [F.devAccess_BAD_SIZE, F.devAccess_UNMAPPED, F.devAccess_LOCKED, F.devAccess_SPLIT]

/-- The whole value of a register after package reset (R739). Values from fuses, flash or the reef map are those of an unprogrammed part (DESIGN CHOICE, log entry 3). -/
def Reg.reset : Reg → Word
  | .frmCtrl => 0x2#64
  | .frmPeriod => 0xC350#64
  | .frmPhase => 0x3C0039803480028#64
  | .frmApplyAt => 0x0#64
  | .frmNumber => 0x0#64
  | .frmTime => 0x0#64
  | .frmEpoch => 0x0#64
  | .frmOffset => 0x0#64
  | .frmGuardCnt => 0x0#64
  | .frmOverrunCnt => 0x0#64
  | .frmStatus => 0x1#64
  | .tblChartSpillBase _ => 0x0#64
  | .tblChartSpillSize _ => 0x0#64
  | .tblChartStatus => 0x0#64
  | .tblScatterDiscard => 0x0#64
  | .tblMergeBypass => 0x0#64
  | .tblTransitCombined => 0x0#64
  | .tblLedgerMismatch => 0x0#64
  | .tblWriteDup => 0x0#64
  | .tblSketchCtrl => 0x7D0#64
  | .tblMoveStatus => 0x0#64
  | .tblRowLockWait => 0x0#64
  | .schPredMarked _ => 0x0#64
  | .schPredIdle _ => 0x0#64
  | .schPredAudit _ => 0x0#64
  | .schPredMiss _ => 0x0#64
  | .schUndoBase _ => 0x0#64
  | .schUndoSize _ => 0x0#64
  | .schUndoStatus _ => 0x0#64
  | .schStepCount _ => 0x0#64
  | .schRngSeed _ => 0x0#64
  | .schRngStatus _ => 0x0#64
  | .schStragglerCnt _ => 0x0#64
  | .schCommitCtrl _ => 0x0#64
  | .schCommitStatus _ => 0x0#64
  | .schPoolBase _ => 0x0#64
  | .schPoolSize _ => 0x0#64
  | .memCtrl => 0x4001801#64
  | .memMapout => 0x0#64
  | .memScrubStatus => 0x0#64
  | .memDieStatus _ => 0x180000010#64
  | .memChMapped _ => 0x0#64
  | .memChFenced _ => 0x0#64
  | .hbmErrCnt _ => 0x0#64
  | .hbmReg _ _ => 0x100000000#64
  | .hbmRegStatus _ => 0x7530#64
  | .pwrCtrl => 0x300#64
  | .pwrStatus => 0x0#64
  | .pwrBudget => 0x29E0BB8#64
  | .pwrDie _ => 0x3E8000#64
  | .schLag => 0x186A0#64
  | .schPartCfg _ => 0x100000#64
  | .schPartMiss _ => 0x0#64
  | .schRegCredit _ => 0x0#64
  | .schRegState _ => 0x7F02#64
  | .schRegBorrow _ => 0x0#64
  | .schRegQueue _ => 0x0#64
  | .schBarCfg _ _ => 0x0#64
  | .schBarStatus _ _ => 0x0#64
  | .strCtrl _ => 0x5#64
  | .strStatus _ => 0x0#64
  | .strLaneMap _ => 0x9240924#64
  | .strFecCnt _ => 0x0#64
  | .strRetryCnt _ => 0x0#64
  | .strDelay _ => 0x0#64
  | .strErr _ => 0x0#64
  | .strSpare _ => 0x0#64
  | .rasRoute _ => 0x0#64
  | .rasTopo => 0x1#64
  | .schFill _ => 0x0#64
  | .schGroupStatus => 0x0#64
  | .schCollDrop => 0x0#64
  | .ctxCtrl _ => 0x0#64
  | .ctxRing _ => 0x0#64
  | .ctxSeg _ => 0x0#64
  | .ctxPasid _ => 0x0#64
  | .ctxQuota _ => 0x0#64
  | .ctxStatus _ => 0x0#64
  | .ctxCount _ => 0x0#64
  | .vfCtxStatus _ _ => 0x0#64
  | .vfMsixMod _ _ => 0x10000#64
  | .vfMsixPba _ => 0x0#64
  | .hstCtrl => 0x1#64
  | .hstLink => 0x0#64
  | .hstErr => 0x0#64
  | .hstAts => 0x0#64
  | .hstPartCtrl _ => 0x0#64
  | .hstPartRegionsLo _ => 0x0#64
  | .hstPartRegionsHi _ => 0x0#64
  | .hstMsixMod _ => 0x10000#64
  | .fryCtrl _ => 0xC80001#64
  | .fryStatus _ => 0x0#64
  | .fryErr _ => 0x0#64
  | .fryDiscard _ => 0x0#64
  | .fryFlash _ => 0x0#64
  | .fryBufBase _ => 0x0#64
  | .fryChCfg _ c => if c = 63 then 0x2#64 else 0#64
  | .fryChkPoly _ _ => 0x4C11DB7#64
  | .fryChkInit _ _ => 0xFFFFFFFF#64
  | .fryChkCtrl _ _ => 0x3A0#64
  | .fryChStatus _ _ => 0x0#64
  | .fryChErr _ _ => 0x0#64
  | .rasCtrl => 0x0#64
  | .rasFaultCnt => 0x0#64
  | .rasUnavail => 0x0#64
  | .rasShoalCtrl => 0x0#64
  | .rasShoalLines => 0x0#64
  | .rasShoalMember _ => 0x0#64
  | .rasShoalStandby => 0x0#64
  | .rasShoalRange _ => 0x0#64
  | .rasShoalRangeLines _ => 0x0#64
  | .rasShoalParityBase => 0x0#64
  | .rasShoalJournalBase => 0x0#64
  | .rasShoalJournalSize => 0x0#64
  | .rasShoalStatus => 0x0#64
  | .rasShoalSeal => 0x0#64
  | .rasShoalRepair => 0x0#64
  | .rasAlias => 0x0#64
  | .rasSpreadBase => 0x0#64
  | .devArch => 0x3300130#64
  | .devStatus => 0x0#64
  | .devReset => 0x0#64
  | .devFw => 0x0#64
  | .devFwStage => 0x0#64
  | .devFwCtrl => 0x0#64
  | .devReefGen => 0x0#64
  | .devShell _ => 0xFF00#64
  | .clkCtrl => 0x1#64
  | .clkStatus => 0x0#64
  | .clkXtal => 0x0#64
  | .clkOsc => 0x0#64
  | .cswCtrl => 0xA01#64
  | .cswAddr => 0x0#64
  | .cswStatus => 0x0#64
  | .cswCnt => 0x0#64
  | .evtRingBase => 0x0#64
  | .evtRingCtrl => 0xA02#64
  | .evtRingHead => 0x0#64
  | .evtRingTail => 0x10000#64
  | .evtStatus => 0x0#64
  | .evtSeq => 0x0#64
  | .evtLost => 0x0#64
  | .evtTelemCtrl => 0x0#64
  | .evtSnapFrame => 0x0#64
  | .evtPerfSel _ => 0x0#64
  | .evtPerfCnt _ => 0x0#64
  | .evtPerfSnap _ => 0x0#64
  | .irqSrc _ => 0x80A#64
  | .irqCp _ => 0x0#64
  | .irqCpEoi _ => 0x0#64
  | .irqHostAck => 0x0#64
  | .irqVec _ => 0x0#64
  | .devLock => 0x0#64
  | .devAccess => 0x0#64

end Sys2Proof.Machine
end

