-- ==== Sys2Proof/Machine/State.lean ====
section
/-! DEFINITION. The state of the package: every piece of state the spec gives it, as plain data (INVENTORY.md, `## State`). Default values are the reset values. -/

namespace Sys2Proof.Machine

/-- Why the machine stops. No command of the spec stops the block, so nothing raises this; safe (log entry 1). -/
inductive Fault where
  /-- Raised by no meaning; kept so that the type has a value. Safe. -/
  | none
  deriving DecidableEq, Repr

/-- Why a command has no meaning. -/
inductive Refusal where
  /-- Raised by an arm of `exec` for a command that has no meaning yet; safe, since the step then answers no state. -/
  | notModelled (mnemonic : String)
  deriving DecidableEq, Repr

/-! ### What only a few commands may touch -/

/-- Fuses, locks, rails and the causeway address: state kept apart because only a few commands change it (R680, R687, R688, R738, R743, R745). -/
structure Hard where
  /-- fuse counter FW_SVN (R680) -/
  svn : Nat := 0
  /-- a causeway address is held (R687) -/
  cswValid : Bool := false
  /-- ring position (R687) -/
  cswPos : Nat := 0
  /-- chassis number (R687) -/
  cswChassis : Nat := 0
  /-- DEV_LOCK (R737, R738) -/
  lock : Word := 0
  /-- every rail is in its window: reset is time 0 of bring-up (R665, R743) -/
  rails : Bool := true
  /-- VCSW is in its window (R745) -/
  vcsw : Bool := true
  deriving DecidableEq, Repr, Inhabited

/-! ### Frames and system time (ch. 2) -/

/-- The phases of a frame (R30); `idle` while no frame runs. -/
inductive Phase where
  | idle | intake | work | reduce | commit | slack
  deriving DecidableEq, Repr, Inhabited

/-- Frame timing and the servo. The period and boundaries in force, the frame number and the status bits are in the FRM registers. -/
structure FrameTime where
  /-- system time in ns (R55) -/
  now : Nat := 0
  /-- fraction of a ns, 32 bits (R55) -/
  frac : Nat := 0
  /-- increment per crystal cycle in 2^-32 ns, as trimmed by the servo (R55, R67); nominal 6.4 ns -/
  inc : Nat := 27487790694
  /-- T_a of R56 -/
  ta : Nat := 0
  /-- n_a of R56 -/
  na : Nat := 0
  /-- a tick has started a frame since package reset (R56, R57) -/
  started : Bool := false
  /-- phase of the frame in progress -/
  phase : Phase := .idle
  /-- system time of the last tick that started a frame -/
  lastTick : Nat := 0
  /-- the next tick of either kind comes no earlier: one ns after the last one (R57, R736) -/
  tickFrom : Nat := 0
  /-- crystal cycles counted (R55) -/
  cycles : Nat := 0
  /-- staged period (R38) -/
  stPeriod : Option Nat := none
  /-- staged FRM_PHASE value (R38) -/
  stPhase : Option Nat := none
  /-- offset to take out of the counter at the next tick (R68) -/
  stepBy : Option Int := none
  /-- consecutive tick messages within 200 ns (R70) -/
  good : Nat := 0
  /-- local time of the last valid tick message (R71) -/
  lastMsg : Nat := 0
  /-- links whose tick messages are heard: link, hop depth, local time of the last one (R61) -/
  heard : List (Nat × Nat × Nat) := []
  /-- partitions for which a stretch notice arrived in time for this frame (R54) -/
  notices : List Nat := []
  deriving DecidableEq, Repr, Inhabited

/-! ### Events and interrupts (ch. 20) -/

/-- One event, as its record will carry it (R698). `data` is bytes 40–55, little-endian. -/
structure Event where
  typ : Nat
  src : Nat
  count : Nat
  frame : Nat
  time : Nat
  ctx : Option Nat
  part : Option Nat
  detail0 : Nat
  data : Nat
  /-- sources whose record this is (R715, R716) -/
  covers : List Nat
  deriving DecidableEq, Repr, Inhabited

/-- A coalescing period under way (R706, R707). -/
structure Coalesce where
  count : Nat
  srcs : List Nat
  first : Nat
  last : Nat
  deriving DecidableEq, Repr, Inhabited

/-- Moderation of one MSI-X vector of one function (R590). -/
structure Moder where
  /-- pending interrupts -/
  pend : Nat := 0
  /-- system time of the first pending one -/
  since : Nat := 0
  /-- highest priority of an interrupt source among them, if any (R712) -/
  prio : Option Nat := none
  /-- an interrupt of a completion ring, which no source raised, is among them (R590, R712) -/
  ring : Bool := false
  deriving DecidableEq, Repr, Inhabited

/-- Event writer, interrupt controller and MSI-X. -/
structure EvtSt where
  /-- the pending buffer, oldest first, at most 64 entries (R705) -/
  pend : List Event := []
  /-- coalescing in progress (R706) -/
  coal : Option Coalesce := none
  /-- sources whose PENDING only the level condition set (R709) -/
  lvlOnly : List Nat := []
  /-- sources raised whose record is not yet visible (R715, R716) -/
  waitRec : List Nat := []
  /-- whether the vector was idle just before the source's record, or before it became pending (R715) -/
  idleRec : List (Nat × Bool) := []
  /-- records in the ring that the host has not read (R703) -/
  unread : Nat := 0
  /-- priority stacks of the control processors: (priority, source), top first (R711) -/
  cpStacks : List (List (Nat × Nat)) := [[], [], [], []]
  /-- sources delivered to a host vector in service: (vector, source) (R712) -/
  hostSvc : List (Nat × Nat) := []
  /-- first held delivery of each processor, system time (R714) -/
  hold : List (Option Nat) := [none, none, none, none]
  /-- pending sources whose hold at their processor has ended (R714) -/
  free : List Nat := []
  /-- MSI-X table entries: function × 4096 + vector (PCIe; reset with the mask bit set) -/
  msix : List (Nat × BitVec 128) := []
  /-- MSI-X pending bits: function × 4096 + vector (R591) -/
  msixPend : List Nat := []
  /-- moderation by function × 4096 + vector -/
  moder : List (Nat × Moder) := []
  /-- a snapshot was asked for (R723) -/
  snap : Bool := false
  /-- a TELEMETRY record is owed in this frame's slack phase (R723) -/
  telem : Bool := false
  deriving DecidableEq, Repr, Inhabited

/-! ### Contexts and operations (ch. 3, ch. 16) -/

/-- One segment entry (R574). -/
structure Seg where
  space : Nat
  base : Nat
  limit : Nat
  r : Bool
  w : Bool
  remR : Bool
  remW : Bool
  deriving DecidableEq, Repr, Inhabited

/-- A context in service (R571–R592). Its registers are in the context set-up table. -/
structure Ctx where
  id : Nat
  /-- VERSION byte of the ring header (R582) -/
  version : Nat := 0x30
  sqLog2 : Nat := 6
  cqLog2 : Nat := 6
  sqAddr : Nat := 0
  cqAddr : Nat := 0
  /-- segments in force (R574) -/
  segs : List Seg := []
  /-- segments that apply from the next tick (R576) -/
  staged : Option (List Seg) := none
  /-- latest SQ_TAIL recorded (R587) -/
  tail : Nat := 0
  /-- latest CQ_HEAD recorded (R584) -/
  cqHead : Nat := 0
  /-- PHASE bit of the current pass through the completion ring (R116) -/
  pass : Bool := true
  /-- completions written and not read (R584) -/
  unread : Nat := 0
  /-- the doorbells that exposed descriptors not yet fetched: tail as an absolute number, and time (R442) -/
  exposed : List (Nat × Nat) := []
  /-- straggler policy: drop (R375) -/
  drop : Bool := false
  /-- descriptors admitted this frame and the charge they made (R432) -/
  ops : Nat := 0
  charge : Nat := 0
  /-- quotas in force and waiting for the tick (R569) -/
  quota : Word := 0
  /-- frame that admitted the previous descriptor (NEW_FRAME, R83) -/
  lastAdm : Option Nat := none
  /-- no descriptor of the ring is admitted before this frame (R106, R107, R110) -/
  notBefore : Nat := 0
  /-- completions lost while the host link was down (R561) -/
  lost : Bool := false
  /-- steps of a context reset that have ended, and 0 outside one (R592) -/
  resetStep : Nat := 0
  /-- AUX of the ring's latest REDUCEs by descriptor number, for G_DIV 2 (R351, R355) -/
  reduceAux : List (Nat × Nat) := []
  /-- numbers of the ring's latest descriptors that completed with a failure (R104) -/
  failed : List Nat := []
  /-- descriptors fetched so far: the absolute number of the next one, SQ_HEAD being its low bits -/
  fetched : Nat := 0
  deriving DecidableEq, Repr, Inhabited

/-- A submission descriptor of 128 bytes (R78). -/
abbrev Desc := BitVec 1024

/-- Where an operation stands. -/
inductive OpStage where
  /-- failed a check at admission; it only completes (R85) -/
  | refused
  /-- admitted, not started -/
  | admitted
  /-- started (R101, R102) -/
  | started
  /-- its data effect has happened; tasks, reads or contributions may be outstanding -/
  | ran
  /-- finished -/
  | finished
  deriving DecidableEq, Repr, Inhabited

/-- One outstanding read of an operation, by tag (R183, R232, R389). -/
structure Outst where
  tag : Nat
  /-- package asked -/
  pkg : Nat
  /-- true for a row of a GATHER, numbered by `item`; false for a piece of a tensor at address `item` -/
  row : Bool
  item : Nat
  len : Nat
  /-- parts that have come: byte offset and bytes -/
  got : List (Nat × List Byte) := []
  deriving DecidableEq, Repr, Inhabited

/-- An operation fetched from a ring and not yet completed. -/
structure Op where
  /-- admission sequence number, unique -/
  seq : Nat
  ctx : Nat
  part : Nat
  /-- slot in the submission ring, modulo 2^16, and its absolute number -/
  slot : Nat
  num : Nat
  desc : Desc
  /-- frame whose intake fetched it -/
  frame : Nat
  stage : OpStage := .admitted
  status : Nat := 0
  detail : Nat := 0
  aux : Nat := 0
  /-- completion FLAGS bits 2 to 7 (R115) -/
  flags : Nat := 0
  /-- re-run flag (R46) and periods stretched (R52) -/
  rerun : Bool := false
  stretch : Nat := 0
  /-- late errors logged against it (R217, R121) -/
  late : Nat := 0
  /-- stream position at admission (R385) -/
  pos : Nat := 0
  /-- ordinal of a collective among those of its group in the frame (R535) -/
  ordinal : Nat := 0
  /-- tasks not yet split off (R440) and their charge (R430) -/
  tasksLeft : Nat := 0
  charge : Nat := 0
  /-- undo bytes reserved at admission (R366) -/
  undo : Nat := 0
  /-- outstanding reads -/
  reads : List Outst := []
  /-- data fetched from elsewhere for it: pieces by global address -/
  fetched : List (Nat × List Byte) := []
  /-- messages or contributions it still waits for -/
  await : Nat := 0
  /-- bytes that its admission read for its run (R162) -/
  held : List Byte := []
  /-- progress numbers of a transfer that takes several steps (R618) -/
  prog : List Nat := []
  /-- straggler policy drop was in force at its admission (R375) -/
  drop : Bool := false
  /-- seed in force at its admission (R387) -/
  seed : Word := 0
  /-- cycles that its program costs for 32 elements, and its row reductions (R318, R324) -/
  pcost : Nat × Nat := (1, 0)
  /-- where the fused update units' work starts in this package's HBM, and its bytes per task (R350, R420, R429) -/
  unit : Nat × Nat := (0, 0)
  /-- logical cores that have started tasks of it, for their L0 caches (R395) -/
  cores : List Nat := []
  deriving DecidableEq, Repr, Inhabited

/-! ### Host port (ch. 16) and power (ch. 12) -/

/-- The host side: translations, SR-IOV, SPDM and IDE. HST_LINK says whether the link is up. -/
structure HostSt where
  /-- cached translations: function, PASID key, 4 KiB page, write granted (R579) -/
  atc : List (Nat × Nat × Nat × Bool) := []
  /-- host events that changed translations (R580) -/
  epoch : Nat := 0
  /-- VF Enable and NumVFs of the SR-IOV capability (R571, R594) -/
  vfEnable : Bool := false
  numVfs : Nat := 0
  /-- SPDM: 0 nothing, 1 version, 2 capabilities, 3 algorithms agreed, 4 key exchange under way, 5 session (R595) -/
  spdm : Nat := 0
  /-- IDE streams with keys, 0 link, 1 to 8 selective (R596) -/
  ide : List Nat := []
  /-- since when the link is down with a context enabled (R662) -/
  downAt : Option Nat := none
  /-- partitions whose set-up waits for the next tick's check (R566) -/
  setUps : List Nat := []
  /-- an FLR of the physical function runs (R594) -/
  flr : Bool := false
  deriving DecidableEq, Repr, Inhabited

/-- Power and clock control beside the PWR and SCH registers (R424–R455). -/
structure Pwr where
  /-- regions that step up one state at each tick, after a wake or the opening of full service (R454, R668) -/
  rising : List Nat := []
  /-- consecutive good frames of a region (R439) -/
  good : List (Nat × Nat) := []
  /-- regions that had a task wait for credit in this frame (R439) -/
  waited : List Nat := []
  /-- PWR_BUDGET and SCH_PART_CFG values in force, where they differ from the registers until the next tick (R455) -/
  budget : Option Word := none
  cfg : List (Nat × Word) := []
  /-- SCH_FILL values in force until the next tick (R554) -/
  fill : List (Nat × Word) := []
  /-- nothing is admitted in this frame: an S state was asked for before its tick (R453) -/
  noAdmit : Bool := false
  /-- dies whose core clocks are stopped (R427) -/
  stopped : List Nat := []
  /-- measured rail energy of the last frame per die, beyond the charges, still to be subtracted (R428) -/
  excess : List (Nat × Nat) := []
  /-- regions asked to change their clock state at the next tick, and the state (R438, R439, R451) -/
  change : List (Nat × Nat) := []
  deriving DecidableEq, Repr, Inhabited

/-! ### HBM upkeep (ch. 11) -/

/-- A channel lost by an immediate map-out: its lines from a row on were poisoned, but for those written whole since (R410). -/
structure LostCh where
  /-- package channel -/
  ch : Nat
  /-- first row that had received no copy -/
  fromRow : Nat
  /-- bursts written whole since (key / 64) -/
  cleared : List Nat
  deriving DecidableEq, Repr, Inhabited

/-- HBM state beside the MEM and HBM registers. -/
structure MemSt where
  /-- die channels mapped out, in the order in which they were (R394), for dies 0 to 7 -/
  mapped : List (List Nat) := [[], [], [], [], [], [], [], []]
  /-- package channels fenced until the next reset of their die (R408) -/
  fenced : List Nat := []
  /-- package channels that are candidates: true for immediate (R405, R406) -/
  cand : List (Nat × Bool) := []
  /-- planned copy under way: channel and rows already copied (R409) -/
  copy : Option (Nat × Nat) := none
  /-- a planned copy has ended and its layout waits for the tick (R409) -/
  ready : Option Nat := none
  lost : List LostCh := []
  /-- corrected bursts in the running 3,600 s window, by package channel (R405) -/
  ceCount : List (Nat × Nat) := []
  /-- corrected errors of the SRAM dies (ch. 11, The SRAM window) -/
  sramCe : Nat := 0
  /-- last uncorrectable row of a channel and its time (R406) -/
  errRow : List (Nat × Nat × Nat) := []
  /-- tokens by 128 × stack + bucket (R414) -/
  tokens : List (Nat × Nat) := []
  /-- bounded slots of this frame: activity, source, last time, count (R449) -/
  slots : List (Nat × Nat × Nat × Nat) := []
  deriving DecidableEq, Repr, Inhabited

/-! ### Tasks and partitions (ch. 2, 3, 10, 12) -/

/-- Where a task stands. -/
inductive TaskAt where
  /-- in its cluster's queue -/
  | ready
  /-- on the cluster's delay list until a system time (R437) -/
  | delayed (wake : Nat)
  /-- running on a logical core -/
  | running (core : Nat)
  deriving DecidableEq, Repr, Inhabited

/-- One task of an operation (R420, R421). -/
structure Task where
  op : Nat
  idx : Nat
  part : Nat
  region : Nat
  /-- cluster index, R14 bits [13:4] -/
  cluster : Nat
  /-- charge at P0: the class bound, or E above class 63 (R423) -/
  bound : Nat
  cycles : Nat
  /-- system time of the deadline -/
  deadline : Nat
  filler : Bool
  at_ : TaskAt
  deriving DecidableEq, Repr, Inhabited

/-- What an undo record puts back. -/
inductive UndoKind where
  /-- a range as it was -/
  | range
  /-- a table row of the pitch given: contents back, ROW_VER advanced again (R239, R374) -/
  | row (pitch : Nat)
  /-- a row of another package: package, table key, row index (R366) -/
  | remote (pkg key row : Nat)
  deriving DecidableEq, Repr, Inhabited

/-- One record of a step's undo log (R362, R363): what an address held, and in which frame it was written. -/
structure UndoRec where
  addr : Nat
  old : List Byte
  ctx : Nat
  frame : Nat
  kind : UndoKind := .range
  deriving DecidableEq, Repr, Inhabited

/-- Where the entries of one chunk of a gather record are: the cluster that gathered it, and the region whose store holds them, or none with a line of the spill area (R188). -/
structure Chunk where
  cluster : Nat
  store : Option Nat
  line : Nat := 0
  deriving DecidableEq, Repr, Inhabited

/-- A gather record (R185–R190). -/
structure Chart where
  ctx : Nat
  id : Nat
  part : Nat
  desc : Nat
  colFirst : Nat
  cols : Nat
  rows : Nat
  /-- entries of R185, in index order; those of a spilled chunk are in memory, and 0 here -/
  entries : List Nat := []
  chunks : List Chunk := []
  /-- its GATHER has failed (R193) -/
  failed : Bool := false
  deriving DecidableEq, Repr, Inhabited

/-- A buffer of a partition's pool (R123, R758). -/
structure Buf where
  /-- 64-byte units from the pool's base -/
  unit : Nat
  units : Nat
  ctx : Nat
  tag : Nat
  deriving DecidableEq, Repr, Inhabited

/-- What the tick that ends a frame replaces in a partition (R45, R51, R54). -/
structure FrameMark where
  stretch : Nat := 0
  streams0 : List (Nat × Nat) := []
  charts0 : List Chart := []
  pred0 : Nat × Nat × Nat × Nat := (0, 0, 0, 0)
  commit : Option Nat := none
  deriving DecidableEq, Repr, Inhabited

/-- A partition in service. -/
structure Part where
  id : Nat
  /-- frames of the step so far (R48) -/
  stepFrames : Nat := 0
  /-- periods by which the frame in progress has been stretched (R51) -/
  stretch : Nat := 0
  /-- input ranges of the frame's descriptors, at most 256 (R107, R108) -/
  inputs : List (Nat × Nat) := []
  /-- context whose COMMIT the frame has admitted (R110) -/
  commit : Option Nat := none
  /-- a guarded output of the step holds a non-finite value (R111) -/
  nonfinite : Bool := false
  /-- the frame, or an earlier frame of the step, is tainted (R217) -/
  taint : Bool := false
  /-- late errors of the step (R369) -/
  late : Nat := 0
  /-- times the frame was interrupted (R632) -/
  interrupts : Nat := 0
  /-- operations to admit again, oldest first (R44) -/
  rerun : List Op := []
  /-- recovery from a fault runs (R631) -/
  recovering : Bool := false
  /-- undo log of the step, latest record first (R362) -/
  undo : List UndoRec := []
  /-- a restore runs or awaits its end (R367) -/
  restoring : Bool := false
  /-- stream positions, and those at the frame's tick (R384, R45) -/
  streams : List (Nat × Nat) := []
  streams0 : List (Nat × Nat) := []
  /-- seed that expands at the next tick (R382) -/
  seed : Word := 0
  pool : List Buf := []
  /-- addresses at which buffers were freed and not allocated again (R123) -/
  freed : List Nat := []
  /-- cluster of each task index of the previous primary operation (R433) -/
  lastPlace : List (Nat × Nat) := []
  /-- the primary operation that `lastPlace` is of -/
  lastOp : Option Nat := none
  /-- cycle estimates admitted to each phase of the frame (R430) -/
  admT : List (Nat × Nat) := []
  /-- context at which the frame's intake started, and the least context ID whose turn comes next (R432) -/
  rotor : Nat := 0
  turn : Nat := 0
  /-- operations whose deadline miss was signalled (R443) -/
  missed : List Nat := []
  /-- verdicts received: package, frame, and 0 commit, 1 tainted, 2 non-finite (R370, R499) -/
  verdicts : List (Nat × Nat × Nat) := []
  /-- the COMMIT under way has sent its verdict -/
  deciding : Option Nat := none
  /-- stretch a further period was asked for by a package of the job (R54) -/
  notice : Bool := false
  /-- chart state at the frame's tick (R45) -/
  charts0 : List Chart := []
  /-- prediction counters at the frame's tick: marked, idle, audited, missed (R348) -/
  pred0 : Nat × Nat × Nat × Nat := (0, 0, 0, 0)
  /-- norm records and sketches that the step wrote (R263, R374) -/
  norms : List Nat := []
  sketches : List Nat := []
  /-- first frame of the step (R234) -/
  stepFirst : Nat := 0
  /-- the frame of this partition was interrupted and awaits its re-run (R44) -/
  stopped : Bool := false
  /-- a ledger mismatch is why the frame is a re-run (R211) -/
  mismatch : Bool := false
  /-- how the partition stood before the last tick ended its frame, for a stretch notice that comes within 200 ns after it (R54) -/
  before : FrameMark := {}
  deriving DecidableEq, Repr, Inhabited

/-! ### Straits and end-to-end delivery (ch. 5, ch. 14) -/

/-- A sequenced flit kept until NEXT passes it, when it was last sent and how often resent (R495, R496). -/
structure Sent where
  flit : Flit
  at_ : Nat
  n : Nat
  deriving DecidableEq, Repr, Inhabited

/-- Sending side of a virtual channel of a strait (R492, R495). -/
structure TxVc where
  seq : Nat := 0
  credits : Nat := 0
  unacked : List Sent := []
  /-- flits that had a SEQ on a strait that went down: they go ahead of newer ones and combine with nothing (R503, R507) -/
  ahead : List Flit := []
  /-- flits waiting for credit; its gradient records are the combine buffer (R503) -/
  queue : List Flit := []
  /-- FREED of the latest STATUS -/
  freed : Nat := 0
  deriving DecidableEq, Repr, Inhabited

/-- Receiving side of a virtual channel of a strait (R494). -/
structure RxVc where
  next : Nat := 0
  /-- flits ahead of the lowest missing SEQ, at most 64 -/
  held : List (Rx × Msg) := []
  /-- buffers freed since training, modulo 2^16 -/
  freed : Nat := 0
  /-- the number, within its PACKED flit, of the last message of the flit delivered last (R498) -/
  unit : Nat := 0
  deriving DecidableEq, Repr, Inhabited

/-- A symbol stream since the link last trained: the number of its next codeword or block, and when it trained (R484, R599). -/
structure Line where
  next : Nat := 0
  since : Nat := 0
  deriving DecidableEq, Repr, Inhabited

/-- One strait beside its registers. -/
structure Strait where
  tx : List TxVc := [{ credits := 1024 }, { credits := 512 }, { credits := 1024 }, { credits := 256 }]
  rx : List RxVc := [{}, {}, {}, {}]
  /-- sequenced flits received since the last STATUS sent, its time, and whether a gap has been found since (R497) -/
  got : Nat := 0
  statusAt : Nat := 0
  gap : Bool := false
  /-- T_TX and receipt time of the last STATUS received (R493) -/
  echo : Option (Nat × Nat) := none
  /-- LANE_REQ sent as receiver, whether it was accepted, and LANE_REQ accepted as transmitter: fiber, wavelength, SWITCH_AT (R511) -/
  laneAsked : Option (Nat × Nat × Nat) := none
  laneOk : Bool := false
  laneTaken : Option (Nat × Nat × Nat) := none
  /-- fiber and wavelength of further faulty lanes, to be asked for after the present one (R511) -/
  laneNext : List (Nat × Nat) := []
  /-- the next STATUS gives the one-way delay: the link has trained or recalibrated (R64, R497) -/
  measure : Bool := false
  /-- codeword counter of the last codeword known to have been received (R485) -/
  counter : Nat := 0
  /-- a fresh training has come as far as HELLO (R516) -/
  trained : Bool := false
  /-- start of a retrain under way (R496) -/
  retrain : Option Nat := none
  /-- the peer's HELLO has been received (R517) -/
  hello : Bool := false
  /-- since when the strait is down (R639) -/
  down : Option Nat := none
  /-- the symbol stream that it sends (R484) -/
  line : Line := {}
  deriving DecidableEq, Repr, Inhabited

/-- A posted write, delta or seal not yet acknowledged from end to end (R212, R508). -/
structure Posted where
  e2e : Nat
  dst : Nat
  /-- admission number of the issuing operation -/
  op : Option Nat
  ctx : Nat
  msg : Msg
  at_ : Nat
  /-- issuing core, for the accesses of a sync port (R461, R471) -/
  core : Option Nat := none
  deriving DecidableEq, Repr, Inhabited

/-- Posted sequence toward one destination (R212). -/
structure E2eTx where
  next : Nat := 0
  unacked : List Posted := []
  /-- writes beyond the 512 that may be unacknowledged -/
  wait : List Posted := []
  deriving DecidableEq, Repr, Inhabited

/-- Posted sequence from one source (R213, R215). -/
structure E2eRx where
  next : Nat := 0
  /-- writes ahead of a gap by E2E_SEQ, at most 512 -/
  held : List (Nat × Msg) := []
  /-- writes applied since the last acknowledgement -/
  since : Nat := 0
  deriving DecidableEq, Repr, Inhabited

/-- An operation binding of a source package (R501). -/
structure Binding where
  src : Nat
  handle : Nat
  ctx : Nat
  tag : Nat
  frame : Nat
  deriving DecidableEq, Repr, Inhabited

/-- What waits for bytes of elsewhere without being an operation: the descriptor that a context fetches next, or a message of a package about a replica's table (R135, R162, R243, R270). -/
inductive WaitFor where
  | fetching (ctx num : Nat)
  | msg (src ctx desc : Nat) (m : Msg)
  deriving DecidableEq, Repr, Inhabited

/-- Such a wait: reads of other packages, reads of flash, what has come, and the READ_RESP status of one that failed, or 0. -/
structure Wait where
  what : WaitFor
  reads : List Outst := []
  flash : Nat := 0
  fetched : List (Nat × List Byte) := []
  bad : Nat := 0
  deriving DecidableEq, Repr, Inhabited

/-- Straits, and delivery from end to end. -/
structure NetSt where
  straits : List (Nat × Strait) := []
  /-- flits for which no strait of the route is usable -/
  stuck : List Flit := []
  /-- by destination package -/
  tx : List (Nat × E2eTx) := []
  /-- by source package, 4,096 more for what came to the alias (R655) -/
  rx : List (Nat × E2eRx) := []
  /-- operations and destinations bound in this frame (R501) -/
  bound : List (Nat × Nat) := []
  bindings : List Binding := []
  /-- destination and number of RELAXED writes (R219) -/
  relaxed : List (Nat × Nat) := []
  /-- packages declared lost (R639) -/
  lost : List Nat := []
  /-- next read tag, 16 bits -/
  tag : Nat := 0
  /-- descriptors and messages that wait for bytes of elsewhere -/
  waits : List Wait := []
  /-- early frame-tagged flits held for the tick, and whether they came in the guard band (R73) -/
  early : List (Bool × Rx × Msg) := []
  deriving DecidableEq, Repr, Inhabited

/-! ### Synchronisation and groups (ch. 13, ch. 15) -/

/-- A monitor of a core (R462, R463). -/
structure Mon where
  core : Nat
  idx : Nat
  /-- byte offset in the core's SRAM -/
  off : Nat
  cmp : Nat
  cond : Nat
  sat : Bool
  deriving DecidableEq, Repr, Inhabited

/-- A watch of a FENCE on a word of this package (R468). -/
structure Watch where
  key : Nat
  value : Nat
  cond : Nat
  op : Nat
  deriving DecidableEq, Repr, Inhabited

/-- An instance of a barrier (R469, R472–R478). -/
structure Bar where
  /-- last generation released -/
  gen : Nat := 0
  partial_ : Bool := false
  /-- participants fixed at the first arrival of the open generation -/
  expected : List Nat := []
  arrived : List Nat := []
  /-- arrivals held for the next generation (R474) -/
  held : List Nat := []
  /-- SCOPE 4: ranks whose token has come, and whether this package's token has gone up (R476, R634) -/
  tokens : List Nat := []
  sent : Bool := false
  deriving DecidableEq, Repr, Inhabited

/-- Sync ports and barriers. -/
structure SyncSt where
  mons : List Mon := []
  /-- waiting cores: core, start, limit in ns (R464) -/
  waits : List (Nat × Nat × Nat) := []
  /-- at most 256 (R468) -/
  watches : List Watch := []
  /-- FENCEs that read their word at each scheduler tick, for want of a watch (R468) -/
  polls : List Watch := []
  /-- remote LOADs by tag: core (R457) -/
  loads : List (Nat × Nat) := []
  /-- instances by barKey -/
  bars : List (Nat × Bar) := []
  /-- arrivals that wait for the core's earlier writes (R471): core, barrier -/
  arrivals : List (Nat × Nat) := []
  deriving DecidableEq, Repr, Inhabited

/-- A package group: the context that defined it, and its members by rank (R524). -/
structure Group where
  ctx : Nat
  members : List (Nat × Nat)
  deriving DecidableEq, Repr, Inhabited

/-- A piece of a collective that has arrived: source package, group, frame, ordinal, COUNTS, index, its parts, and the number of parts once the last one has come (R536–R538). -/
structure CPiece where
  src : Nat
  group : Nat
  frame : Nat
  ordinal : Nat
  counts : Bool
  piece : Nat
  parts : List (Nat × List Byte) := []
  total : Option Nat := none
  /-- it was used, or discarded for its length -/
  used : Bool := false
  /-- a part of it came in the guard band (R72, R73) -/
  band : Bool := false
  /-- a part of it came from a package out of step (R69) -/
  late : Bool := false
  deriving DecidableEq, Repr, Inhabited

/-- A collective of this package: its operation, context, group, frame and ordinal, its piece count and what it needs to judge pieces, the pieces whose result has been written with their delivered and carried counts, the pieces combined here, and whether every piece sent has been acknowledged (R538, R542, R544, R549). -/
structure CollRun where
  op : Nat
  ctx : Nat
  group : Nat
  frame : Nat
  ordinal : Nat
  /-- REDUCE, with its TRANSIT_FORMAT and number of elements; else EXCHANGE -/
  reduce : Bool
  fmt : Nat
  elems : Nat
  /-- it has sent its pieces -/
  sent : Bool := false
  acked : Bool := false
  done : List (Nat × Nat × Nat) := []
  combined : List Nat := []
  /-- straggler policy drop was in force at its admission (R375) -/
  drop : Bool := false
  deriving DecidableEq, Repr, Inhabited

/-- Collectives (ch. 15). -/
structure CollSt where
  pieces : List CPiece := []
  runs : List CollRun := []
  /-- collectives of frames that have ended, as far as a late piece's window goes: group, frame, ordinal, and whether a REDUCE (R74) -/
  past : List (Nat × Nat × Nat × Bool) := []
  /-- REDUCEs are closed to contributions of this frame (R34) -/
  closed : Bool := false
  /-- buffers of straits not freed because the staging area is full: strait, flits (R537) -/
  owed : List (Nat × Nat) := []
  deriving DecidableEq, Repr, Inhabited

/-! ### Stream ports (ch. 17) -/

/-- A row that another package replaces in flash: the sender and handle of the posted write, its sequence number, who is answered and under which tag, the row, its home, its map entry, and its new contents (R239, R240, R252, R366). -/
structure RowPut where
  src : Nat
  ctx : Nat
  handle : Nat
  e2e : Nat
  requester : Nat
  tag : Nat
  row : Nat
  addr : Nat
  pitch : Nat
  map : Nat
  undo : Bool
  bytes : List Byte
  deriving DecidableEq, Repr, Inhabited

/-- A row that is served to another package from flash: who asks under which tag, context and replica, columns, its home, its map entry, the shard and number of its place, and the shard and index of the row where this package counts its read (R178, R261, R265). -/
structure RowServe where
  pkg : Nat
  tag : Nat
  ctx : Nat
  desc : Nat
  first : Nat
  count : Nat
  addr : Nat
  map : Nat
  shard : Nat
  place : Nat
  own : Nat
  row : Nat
  /-- version slot by which the request was resolved -/
  slot : Nat × Nat × Nat
  /-- ranges still to be read, and what has come -/
  rest : List (Nat × Nat)
  got : List (Nat × List Byte) := []
  deriving DecidableEq, Repr, Inhabited

/-- What a flash request is for. -/
inductive FlashFor where
  /-- a piece of a tensor at an address, for an operation (R759) -/
  | piece (op addr : Nat)
  /-- bursts of a row that a GATHER of this package reads: operation, item, address (R183, R184, R622) -/
  | row (op item addr : Nat)
  /-- bytes read for another package: package, its tag, address, bytes -/
  | serve (pkg tag addr len : Nat)
  /-- bursts of a row read for another package, at an address (R232) -/
  | serveRow (r : RowServe) (addr : Nat)
  /-- a piece of a row that moves: context, descriptor, shard, index, address (R258) -/
  | move (ctx desc shard index addr : Nat)
  /-- the old contents of a row that another package replaces (R252) -/
  | oldRow (r : RowPut)
  /-- a frame of the new contents of such a row; the last one is answered with the old contents (R240, R366) -/
  | newRow (r : RowPut) (old : List Byte) (last : Bool)
  /-- a piece that something other than an operation waits for -/
  | wait (w : WaitFor) (addr : Nat)
  /-- a write of an operation, with the context and address of the row map entry to poison if it fails (R623) -/
  | write (op : Option Nat) (rowMap : Option (Nat × Nat))
  deriving DecidableEq, Repr, Inhabited

/-- A flash request outstanding on channel 63 (R620, R622). -/
structure FlashReq where
  tag : Nat
  off : Nat
  len : Nat
  at_ : Nat
  got : List (Nat × List Byte)
  what : FlashFor
  /-- rows written since the request went out, by window offset: a read that is still out returns them (R238) -/
  laid : List (Nat × List Byte) := []
  /-- the bytes that a write carries, to be queued again at a reset of the port (R616) -/
  bytes : List Byte := []
  deriving DecidableEq, Repr, Inhabited

/-- A flash request that found 4,096 outstanding (R620). -/
structure FlashWait where
  off : Nat
  len : Nat
  data : List Byte
  what : FlashFor
  laid : List (Nat × List Byte) := []
  deriving DecidableEq, Repr, Inhabited

/-- A stream frame accepted and not yet copied (R611). -/
structure BufFrame where
  alive : Nat
  end_ : Bool
  payload : List Byte
  deriving DecidableEq, Repr, Inhabited

/-- A channel of a ferry beside its registers. -/
structure FCh where
  unacked : List (FFrame × Nat) := []
  /-- frames waiting for credit (R610) -/
  queue : List FFrame := []
  /-- allotment of the peer, blocks it has freed, and blocks sent since the last HELLO (R610) -/
  allot : Nat := 0
  peerFreed : Nat := 0
  sent : Nat := 0
  buf : List BufFrame := []
  /-- blocks freed since the last HELLO and since the last CREDIT (R603, R610) -/
  freed : Nat := 0
  freedSince : Nat := 0
  /-- frames accepted since the last ACK (R607) -/
  ackSince : Nat := 0
  nakAt : Option Nat := none
  deriving DecidableEq, Repr, Inhabited

/-- A ferry beside its registers. -/
structure Ferry where
  chs : List (Nat × FCh) := []
  reqs : List FlashReq := []
  /-- requests that found 4,096 outstanding (R620) -/
  wait : List FlashWait := []
  /-- HELLOs carry RESTART until the peer's HELLO comes (R615) -/
  restart : Bool := false
  hello : Bool := false
  /-- the frame stream that it sends, in blocks (R600, R601) -/
  line : Line := {}
  deriving DecidableEq, Repr, Inhabited

/-! ### Carried contributions (R376, R377) -/

/-- A SCATTER record held for the next step of its home's partition (R377). -/
structure GradCarry where
  ctx : Nat
  key : Nat
  row : Nat
  segment : Nat
  /-- COL_FIRST from which the segments count (log entry 21) -/
  first : Nat
  count : Nat
  vals : List W32
  deriving DecidableEq, Repr, Inhabited

/-- A REDUCE contribution held for the first REDUCE of a context and group in one frame (R376). -/
structure RedCarry where
  ctx : Nat
  group : Nat
  frame : Nat
  piece : Nat
  rank : Nat
  vals : List W32
  deriving DecidableEq, Repr, Inhabited

/-! ### Embedding tables (ch. 5, ch. 6) -/

/-- A queued move of a row (R255–R258, R266). -/
structure Move where
  ctx : Nat
  desc : Nat
  /-- shard of the row and local index -/
  shard : Nat
  index : Nat
  /-- target: shard and slot, or none for the tail -/
  target : Option (Nat × Nat)
  /-- addresses of the target place, its optimiser state and its tag (0 for the tail) -/
  place : Nat
  state : Nat
  tag : Nat
  /-- ROW_VER of the source when the row and its state were copied -/
  copied : Option Nat := none
  /-- where the source was then, and the last frame in whose slack phase it is known not to have been written since (R258) -/
  source : Nat := 0
  checked : Option Nat := none
  /-- reads of a source that lies elsewhere, and what they brought -/
  reads : List Outst := []
  data : List (Nat × List Byte) := []
  deriving DecidableEq, Repr, Inhabited

/-- A home's ledger for a table in a frame (R209–R211). -/
structure Ledger where
  ctx : Nat
  key : Nat
  frame : Nat
  /-- close notices: sender, announced count, operation handle -/
  notices : List (Nat × Nat × Nat) := []
  /-- contribution counts received -/
  got : Nat := 0
  /-- row of the first record discarded, and the late-error reason (R205, R206) -/
  bad : Option (Nat × Nat) := none
  /-- an UPDATE has read the rows (R210) -/
  closed : Bool := false
  /-- traffic for it came in the guard band (R72, R73) -/
  band : Bool := false
  deriving DecidableEq, Repr, Inhabited

/-- Substitutions that a frame's GATHERs made for a table replica (R268, R269). -/
structure Subs where
  desc : Nat
  part : Nat
  invalid : Nat := 0
  missing : Nat := 0
  poisoned : Nat := 0
  /-- first invalid or missing index, by admission number of its GATHER -/
  first : Option (Nat × Nat) := none
  deriving DecidableEq, Repr, Inhabited

/-- A gradient record added into an accumulator in this frame: what an interruption takes back, or adds again where another package sent it (R44, R634). -/
structure AccRec where
  part : Nat
  remote : Bool
  key : Nat
  pitch : Nat
  cols : Nat
  first : Nat
  count : Nat
  stamp : Nat
  vals : List W32
  old : List Byte
  deriving DecidableEq, Repr, Inhabited

/-- A partial sum of a region's merge unit (R197): operation, region, row and home, segment, cluster, the row's first position in the region's replay, entries added and their sum. -/
structure Partial where
  op : Nat
  region : Nat
  row : Nat
  home : Nat
  seg : Nat
  cluster : Nat
  first : Nat
  count : Nat
  vals : List W32
  deriving DecidableEq, Repr, Inhabited

/-- A replica that a context has named: table key, descriptor address, and what was fetched of its structures on other packages (log entry 20). -/
structure Known where
  ctx : Nat
  key : Nat
  desc : Nat
  fetched : List (Nat × List Byte) := []
  deriving DecidableEq, Repr, Inhabited

/-- A FUNCTION 0 admitted in this frame: replica, partition, admission number, and the staged image, or none once it has failed (R245, R246). -/
structure Switch where
  desc : Nat
  part : Nat
  op : Nat
  image : List Byte
  deriving DecidableEq, Repr, Inhabited

/-- Table state beside the structures in memory. -/
structure TblSt where
  known : List Known := []
  moves : List Move := []
  switches : List Switch := []
  /-- gradient records of this frame (R44, R634) -/
  accs : List AccRec := []
  /-- partials of the regions' merge units (R197, R199) -/
  merge : List Partial := []
  /-- rows that received a contribution in a step: partition, table key, row (R207, R241) -/
  touched : List (Nat × Nat × Nat) := []
  ledgers : List Ledger := []
  subs : List Subs := []
  /-- load counts since the last tick: control block address × 8 + counter (R265) -/
  loads : List (Nat × Nat) := []
  /-- frames since the last sketch decay, while decay is enabled (R262) -/
  decayAt : Nat := 0
  /-- sketches as the slack phase found them, by the FUNCTION 4 that copies them (R264) -/
  snaps : List (Nat × List Byte) := []
  deriving DecidableEq, Repr, Inhabited

/-! ### Parity shoals (ch. 18) -/

/-- A parity delta staged or journalled by a holder (R645). -/
structure Delta where
  src : Nat
  sealNo : Nat
  slot : Nat
  part : Nat
  data : List Byte
  deriving DecidableEq, Repr, Inhabited

/-- A seal that this package formed and that some member has not acknowledged (R644, R650). -/
structure SealOut where
  no : Nat
  wait : List Nat
  /-- what the 256-byte parts that it changed held before: key and bytes -/
  old : List (Nat × List Byte)
  deriving DecidableEq, Repr, Inhabited

/-- What a read of a stripe is for. -/
inductive ShoalFor where
  /-- a parity slot of this package, computed afresh (R649, R656) -/
  | slot (s : Nat)
  /-- a protected line of this package, and the partitions whose open step had written it (R653) -/
  | repair (line : Nat) (parts : List Nat)
  /-- a line of the lost member, for its standby or the spread area (R656, R657) -/
  | line (line : Nat)
  deriving DecidableEq, Repr, Inhabited

/-- One line of a stripe that a package reads: position in the stripe, or none with the parity index for parity. -/
structure ShoalPiece where
  pos : Option Nat
  par : Nat
  pkg : Nat
  line : Nat
  tag : Nat
  got : List (Nat × List Byte)
  deriving DecidableEq, Repr, Inhabited

/-- A stripe read under way (R651). -/
structure ShoalJob where
  id : Nat
  stripe : Nat
  what : ShoalFor
  pieces : List ShoalPiece
  deriving DecidableEq, Repr, Inhabited

/-- The shoal beside its registers. -/
structure ShoalSt where
  staged : List Delta := []
  /-- seals that wait to be applied: source, number, delta count -/
  seals : List (Nat × Nat × Nat) := []
  /-- latest seal applied, by source package -/
  applied : List (Nat × Nat) := []
  journal : List Delta := []
  out : List SealOut := []
  /-- what the moves and version switches of the next tick found in protected lines: key and bytes, latest first (R644) -/
  tick : List (Nat × List Byte) := []
  jobs : List ShoalJob := []
  nextJob : Nat := 0
  /-- next slot of a pass of INIT, if one runs (R649) -/
  initNext : Option Nat := none
  /-- SEAL_REPORTs collected by the coordinator: member, seal (R654) -/
  reports : List (Nat × Nat) := []
  /-- rebuild seal of the lost member (R654) -/
  rebuildSeal : Option Nat := none
  /-- parity slots rebuilt by a standby (R656) -/
  rebuilt : Nat := 0
  /-- when a standby adopted its alias, until its first admitted frame (R662) -/
  aliasAt : Option Nat := none
  deriving DecidableEq, Repr, Inhabited

/-! ### Graphs (ch. 4) -/

/-- An edge accepted by APPEND and not yet published (R145): its graph by canonical address, its partition. -/
structure Append where
  graph : Nat
  part : Nat
  /-- key of the source's node entry -/
  node : Nat
  ts : Nat
  deriving DecidableEq, Repr, Inhabited

/-- A queued alias rebuild: graph descriptor, shard arrays and node entry (R147). -/
structure AliasReq where
  graph : Nat
  ctx : Nat
  node : Nat
  edgeAddr : Nat
  aliasA : Nat
  aliasB : Nat
  deriving DecidableEq, Repr, Inhabited

/-- Graph state beside the images in memory. -/
structure GraphSt where
  appends : List Append := []
  /-- header counts to publish: graph, partition (64 for none), counter number, amount -/
  counts : List (Nat × Nat × Nat × Nat) := []
  queue : List AliasReq := []
  /-- rebuilds to publish: graph, node entry key, context, ALIAS_N -/
  done : List (Nat × Nat × Nat × Nat) := []
  /-- blocks open in the dedup hash of their region: cluster, operation (R172) -/
  openBlocks : List (Nat × Nat) := []
  /-- clusters that wait to open a block, and for which operation (R172) -/
  waitBlocks : List (Nat × Nat) := []
  /-- headers of graphs described on other packages, as last read or written here (R140) -/
  heads : List (Nat × List Byte) := []
  /-- graphs that a context's operations have named since its reset (R153) -/
  named : List (Nat × Nat) := []
  /-- node entries whose alias array changed while an unfinished frame of a partition had used the other one (R151) -/
  flips : List (Nat × Nat) := []
  deriving DecidableEq, Repr, Inhabited

/-! ### The vector unit (ch. 8) -/

/-- The registers of one element under a micro-op program (R317). -/
structure Lane where
  row : Nat
  col : Nat
  v : List W32
  deriving DecidableEq, Repr, Inhabited

/-- A vector unit: the operation whose program it runs, its lanes, how many row reductions and RANDs it has run (R321), and whether OUT has ended the program. After reset its 32 lanes are two tile rows of 16. -/
structure Vu where
  op : Op := default
  lanes : List Lane := (List.range 32).map (fun i => ⟨i / 16, i % 16, List.replicate 16 0⟩)
  red : Nat := 0
  rand : Nat := 0
  /-- r of each lane once OUT has run (R280) -/
  out : List W32 := []
  deriving DecidableEq, Repr, Inhabited

/-- An accumulator bank: the operation and task whose tile it holds, and its entries (R305). -/
structure Bank where
  tile : Option (Nat × Nat) := none
  entries : List FV := []
  deriving DecidableEq, Repr, Inhabited

/-- The two accumulator banks of a matrix engine, and which of them takes the next tile while the other drains (R305). -/
structure Accum where
  next : Nat := 0
  banks : List Bank := [{}, {}]
  deriving DecidableEq, Repr, Inhabited

/-! ### Bring-up, clocks and the causeway (ch. 19) -/

/-- Bring-up, clocks, firmware and the causeway beside their registers. -/
structure BootSt where
  /-- identity memory images as read, by shell (R695) -/
  shells : List (Nat × List Byte) := []
  /-- serial flash, by offset; an unlisted byte reads 0 (R678, R682, R689; log entry 3) -/
  flash : List Host.Cell := []
  /-- SVN of the running image (R680) -/
  fwSvn : Nat := 0
  /-- crystal windows passed in a row, and start-up attempts that failed (R666, R672, R675) -/
  good : Nat := 0
  tries : Nat := 0
  /-- the references return to the crystal at the next tick (R675) -/
  toCrystal : Bool := false
  /-- start of a reference holdover (R674) -/
  holdSince : Option Nat := none
  /-- PLLs whose output stays on the safe clock: kind (0 core, 1 HBM, 2 optical port) and unit (R677) -/
  safe : List (Nat × Nat) := []
  /-- STATUS of each die in the reef map: 0 passed, 1 failed self-test, 2 failed HBM, 3 die fault pending reset (R683) -/
  dieStat : List Nat := [0, 0, 0, 0, 0, 0, 0, 0]
  /-- regions withheld after a region fault (R681, R683) -/
  withheld : List Nat := []
  /-- full service opens at the next tick (R670) -/
  fullDue : Bool := false
  /-- dies that join at the next tick (R668) -/
  joining : List Nat := []
  /-- physical cores to be mapped out at the next frame boundary, and whether their logical core becomes absent (R16, R18) -/
  coresDue : List (Nat × Bool) := []
  /-- cells that this package has originated: its SEQ (R685) -/
  cells : Nat := 0
  /-- when the last STATUS cell went out, and the STAGE that it gave (R691) -/
  statusAt : Nat := 0
  statusStage : Option Nat := none
  deriving DecidableEq, Repr, Inhabited

/-! ### The whole state -/

/-- The whole state of the package. -/
structure State where
  /-- commands waiting, first in, first out (the row's cut) -/
  pending : List Instr := []
  /-- fuses, locks, rails, causeway address -/
  hard : Hard := {}
  /-- how many free values have been taken (the model's own counter; log entry 2) -/
  fresh : Nat := 0
  /-- registers that differ from their reset value, by `Reg.key` -/
  regs : List (Nat × Word) := []
  /-- bytes that differ from zero, by address key -/
  mem : List Host.Cell := []
  /-- poisoned 64-byte bursts, by key / 64 (R401) -/
  poison : List Nat := []
  frm : FrameTime := {}
  evt : EvtSt := {}
  ctxs : List (Nat × Ctx) := []
  ops : List Op := []
  /-- next admission sequence number -/
  nextSeq : Nat := 0
  host : HostSt := {}
  pwr : Pwr := {}
  hbm : MemSt := {}
  parts : List (Nat × Part) := []
  tasks : List Task := []
  /-- energy charged per region in this frame (R428) -/
  charged : List (Nat × Nat) := []
  /-- logical cores absent (R18), and physical cores mapped out (R15) -/
  absent : List Nat := []
  /-- L0 caches: logical core, and its valid lines, most recently used first, by canonical address / 64 with their 64 bytes (R395) -/
  l0 : List (Nat × List (Nat × List Byte)) := []
  outCores : List Nat := []
  net : NetSt := {}
  sync : SyncSt := {}
  /-- group table by group ID (R524) -/
  groups : List (Nat × Group) := []
  coll : CollSt := {}
  ferries : List (Nat × Ferry) := []
  /-- live gather records (R189, R190) -/
  charts : List Chart := []
  /-- carry buffer of SCATTER records, at most 65,536, and carried REDUCE contributions -/
  gradCarry : List GradCarry := []
  redCarry : List RedCarry := []
  tbl : TblSt := {}
  shoal : ShoalSt := {}
  graph : GraphSt := {}
  /-- the vector units of the logical cores; one that is not listed is as after reset (R12, R317) -/
  vus : List (Nat × Vu) := []
  /-- the accumulators of the logical cores' matrix engines; one that is not listed is empty (R305) -/
  accs : List (Nat × Accum) := []
  boot : BootSt := {}
  /-- what left the package, oldest first: the model's log of outputs -/
  outbox : List Output := []
  deriving DecidableEq, Repr, Inhabited

/-- The machine right after reset: every field at the value the spec states, or the one its log entry names. -/
def State.reset : State := {}

end Sys2Proof.Machine
end

