-- ==== Sys2Proof/Machine/Ops.lean ====
section
/-! DEFINITION. The named operations over registers and memory that every family shares. -/

namespace Sys2Proof.Machine

/-! ### Registers -/

/-- CSW_ADDR as the causeway address makes it read (R687). -/
def Hard.cswAddr (h : Hard) : Word :=
  BitVec.ofNat 64 (h.cswPos % 64 + h.cswChassis % 64 * 64 + (if h.cswValid then 4096 else 0))

/-- The value of a register. DEV_LOCK, CSW_ADDR and the SVN field of DEV_FW read from `hard`, their one home. -/
def State.reg (s : State) (r : Reg) : Word :=
  match r with
  | .devLock => s.hard.lock
  | .cswAddr => s.hard.cswAddr
  | .devFw => F.devFw_SVN_FUSE.put (sgetD r.key r.reset s.regs) s.hard.svn
  | r => sgetD r.key r.reset s.regs

/-- Store a register's value, in the canonical form: a register at its reset value is not listed. -/
def State.setReg (s : State) (r : Reg) (v : Word) : State :=
  { s with regs := if v = r.reset then sdel r.key s.regs else sput r.key v s.regs }

/-- The value of a field of a register. -/
def State.fld (s : State) (r : Reg) (f : Fld) : Nat := f.get (s.reg r)

/-- A one-bit field as a Bool. -/
def State.bit (s : State) (r : Reg) (f : Fld) : Bool := s.fld r f == 1

/-- Set a field of a register; a value wider than the field wraps. -/
def State.setFld (s : State) (r : Reg) (f : Fld) (x : Nat) : State := s.setReg r (f.put (s.reg r) x)

/-- Add to a wrapping count (R720). -/
def State.wrapFld (s : State) (r : Reg) (f : Fld) (n : Nat) : State := s.setFld r f (s.fld r f + n)

/-- Add to a saturating count, without the event of R719. -/
def State.satRaw (s : State) (r : Reg) (f : Fld) (n : Nat) : State :=
  s.setFld r f (satAdd f.w (s.fld r f) n)

/-- The frame in progress (FRM_NUMBER). -/
def State.frame (s : State) : Nat := s.fld .frmNumber F.frmNumber_FRAME

/-- Crystal cycles after which the counter reads at least `t` ns (R55). -/
def State.cyclesTo (s : State) (t : Nat) : Nat :=
  cdiv (t * 2 ^ 32 - (s.frm.now * 2 ^ 32 + s.frm.frac)) (max 1 s.frm.inc)

/-- The counter after `n` crystal cycles, in 2^-32 ns: each adds the increment (R55). -/
def State.counterAfter (s : State) (n : Nat) : Nat := s.frm.now * 2 ^ 32 + s.frm.frac + n * max 1 s.frm.inc

/-- The machine with other frame time. -/
def State.withFrm (s : State) (f : FrameTime) : State := { s with frm := f }

/-- Let the crystal run until system time reads at least `t`; it never runs backward (R55; log entry 66). -/
def State.reach (s : State) (t : Nat) : State :=
  let n := s.cyclesTo t
  s.withFrm { s.frm with now := s.counterAfter n / 2 ^ 32, frac := s.counterAfter n % 2 ^ 32, cycles := s.frm.cycles + n }

/-! ### Free values -/

/-- Take the next free value. -/
def State.free (s : State) (w : Nat) : BitVec w × State :=
  (Config.freeBits s.fresh w, { s with fresh := s.fresh + 1 })

/-- `n` free bytes. -/
def State.freeBytes (s : State) (n : Nat) : List Byte × State :=
  ((List.range n).map (fun i => Config.freeBits (s.fresh + i) 8), { s with fresh := s.fresh + n })

/-! ### Addresses (R389, R390) -/

/-- Space code of a global address. -/
def spaceOf (a : Nat) : Nat := bitsN a 60 4

/-- Package ID of a global address. -/
def pkgOf (a : Nat) : Nat := bitsN a 44 12

/-- Offset of a global address. -/
def offOf (a : Nat) : Nat := a % 2 ^ 44

/-- The global address of an offset. -/
def mkAddr (space pkg off : Nat) : Nat := space * 2 ^ 60 + pkg * 2 ^ 44 + off % 2 ^ 44

/-- This package's ID: chassis number above ring position (R687). -/
def State.ownId (s : State) : Nat := s.hard.cswChassis % 64 * 64 + s.hard.cswPos % 64

/-- Whether an ID names this package: its own, or the alias in force (R655). -/
def State.isOwn (s : State) (p : Nat) : Bool :=
  p == s.ownId || (s.bit .rasAlias F.rasAlias_VALID && s.fld .rasAlias F.rasAlias_ID == p)

/-- Whether an address lies in space 0 or 1 of this package. -/
def State.isLocal (s : State) (a : Nat) : Bool := spaceOf a ≤ 1 && s.isOwn (pkgOf a)

/-- The key under which `mem` holds a byte of space 0 or 1 of this package; host memory keys lie above 2^64, by requester. -/
def memKey (a : Nat) : Nat := spaceOf a * 2 ^ 60 + offOf a

/-- The key of a host byte as a requester sees it: function, and PASID plus 2^20 where one is carried (R578). -/
def hostKey (fn pasid a : Nat) : Nat := 2 ^ 64 * (fn * 2 ^ 21 + pasid + 1) + offOf a

/-! ### Bytes of memory: the sparse store keeps rising keys and lists no zero byte -/

/-- Read the byte under a key; an unlisted byte reads 0 (R411, R681; log entry 6). -/
def memRd (m : List Host.Cell) (k : Nat) : Byte := sgetD k 0 m

/-- Write the byte under a key. -/
def memWr (m : List Host.Cell) (k : Nat) (b : Byte) : List Host.Cell := if b = 0 then sdel k m else sput k b m

/-- The canonical form of memory. -/
def memWf (m : List Host.Cell) : Bool := rising m && m.all (fun c => decide (c.2 ≠ 0))

/-- Write a run of bytes at rising keys. -/
def memWrL (m : List Host.Cell) (k : Nat) : List Byte → List Host.Cell
  | [] => m
  | b :: bs => memWrL (memWr m k b) (k + 1) bs

/-- Read `n` bytes under rising keys. -/
def memRdL (m : List Host.Cell) (k : Nat) (n : Nat) : List Byte := (List.range n).map (fun i => memRd m (k + i))

/-! ### Where space 0 lies (R393, R394) -/

/-- Bytes of one die's range of space 0 (R393). -/
def dieRange : Nat := 0x1800000000

/-- Die, die channel and row of an offset, before any redirect of a mapped-out channel (R394). -/
def hbmHome (off : Nat) : Nat × Nat × Nat :=
  let o := off % dieRange
  let r := o / 2 ^ 17
  (off / dieRange, (o / 2048 % 64) ^^^ (r % 64), r)

/-- Die, die channel and byte of an offset under the map-outs in force (R394). -/
def hbmLocate (mapped : List (List Nat)) (off : Nat) : Nat × Nat × Nat :=
  let h := hbmHome off
  let m := nthD mapped h.1 []
  let k := m.length
  let rk := 786432 - 12288 * k
  match findIdxN (· == h.2.1) 0 m with
  | none => (h.1, h.2.1, h.2.2 * 2048 + off % dieRange % 2048)
  | some i =>
    let t := i * rk + h.2.2
    let working := (List.range 64).filter (fun c => c ∉ m)
    (h.1, nthD working (t % (64 - k)) 0, (rk + t / (64 - k)) * 2048 + off % dieRange % 2048)

/-- The package channel that serves a space 0 key. -/
def State.channelOf (s : State) (k : Nat) : Nat :=
  let l := hbmLocate s.hbm.mapped k
  64 * l.1 + l.2.1

/-- Whether a fenced channel serves a key: its reads are uncorrectable and its writes are discarded (R408). -/
def State.fencedKey (s : State) (k : Nat) : Bool :=
  !s.hbm.fenced.isEmpty && decide (k < 2 ^ 44) && decide (s.channelOf k ∈ s.hbm.fenced)

/-- Whether an immediate map-out lost the burst of a key (R410). -/
def State.lostKey (s : State) (k : Nat) : Bool :=
  decide (k < 2 ^ 44) && s.hbm.lost.any (fun l =>
    let h := hbmHome k
    l.ch == 64 * h.1 + h.2.1 && decide (l.fromRow ≤ h.2.2) && decide (k / 64 ∉ l.cleared))

/-- Read `n` bytes of a key. -/
def State.kRd (s : State) (k n : Nat) : List Byte := memRdL s.mem k n

/-- Bursts (key / 64) that a run of bytes touches. -/
def burstsOf (k n : Nat) : List Nat := if n = 0 then [] else (List.range ((k % 64 + n + 63) / 64)).map (fun i => k / 64 + i)

/-- Bursts that a run of bytes covers whole. -/
def wholeBursts (k n : Nat) : List Nat := (burstsOf k n).filter (fun b => decide (k ≤ 64 * b) && decide (64 * b + 64 ≤ k + n))

/-- Bytes of a run that a fenced channel does not discard, as cells. -/
def State.kWrFenced (s : State) (k : Nat) : List Byte → List Host.Cell → List Host.Cell
  | [], m => m
  | b :: bs, m => s.kWrFenced (k + 1) bs (if s.fencedKey k then m else memWr m k b)

/-- Write bytes at a key. A burst written whole loses its poison (R401); a fenced channel discards its bytes (R408). -/
def State.kWr (s : State) (k : Nat) (bs : List Byte) : State :=
  let m := if s.hbm.fenced.isEmpty then memWrL s.mem k bs else s.kWrFenced k bs s.mem
  let p := if s.poison.isEmpty then [] else s.poison.filter (fun p => p ∉ wholeBursts k bs.length)
  let l := if s.hbm.lost.isEmpty then [] else
    s.hbm.lost.map (fun l => { l with cleared := l.cleared ++ wholeBursts k bs.length })
  { s with mem := m, poison := p, hbm := { s.hbm with lost := l } }

/-- Read `n` bytes at a local global address. -/
def State.rd (s : State) (a n : Nat) : List Byte := s.kRd (memKey a) n

/-- Read a little-endian number of `n` bytes at a local global address. -/
def State.rdN (s : State) (a n : Nat) : Nat := leBytes (s.rd a n)

/-- Write bytes at a local global address. -/
def State.wr (s : State) (a : Nat) (bs : List Byte) : State := s.kWr (memKey a) bs

/-- Whether a run of `n` bytes at a key touches a burst that reads as uncorrectable: poisoned, lost or fenced (R401, R408, R410). -/
def State.poisoned (s : State) (k n : Nat) : Bool :=
  s.poison.any (fun p => decide (64 * p < k + n) && decide (k < 64 * p + 64))
  || (!(s.hbm.fenced.isEmpty && s.hbm.lost.isEmpty) && (burstsOf k n).any (fun b => s.fencedKey (64 * b) || s.lostKey (64 * b)))

/-! ### What a command may change -/

/-- Run an effect of the powered package, which keeps fuses, locks, rails, the causeway address and the queue of commands; with a rail outside its window all logic but the causeway stands still (R665). -/
def State.onDev (f : State → State) (s : State) : State :=
  if s.hard.rails then { f s with hard := s.hard, pending := s.pending } else s

/-- Run an effect of the management ring interface, which works while VCSW is in its window (R745). -/
def State.onCsw (f : State → State) (s : State) : State :=
  if s.hard.vcsw then { f s with hard := s.hard, pending := s.pending } else s

/-- Apply an effect where a condition holds, and else leave the state. -/
def State.iff (s : State) (c : Bool) (f : State → State) : State := if c then f s else s

/-- Apply an effect for each element of a list, in order. -/
def State.each {α : Type} (s : State) (l : List α) (f : State → α → State) : State := l.foldl f s

/-- Put something on the log of what left the package. -/
def State.emit (s : State) (o : Output) : State := { s with outbox := s.outbox ++ [o] }

/-! ### Contexts and operations -/

/-- The context in service, if any. -/
def State.ctx? (s : State) (c : Nat) : Option Ctx := sget c s.ctxs

/-- The context in service, or an empty one. -/
def State.ctx (s : State) (c : Nat) : Ctx := sgetD c { id := c } s.ctxs

/-- Store a context in service. -/
def State.setCtx (s : State) (x : Ctx) : State := { s with ctxs := sput x.id x s.ctxs }

/-- The function that owns a context (CTX_CTRL.FUNCTION). -/
def State.fnOf (s : State) (c : Nat) : Nat := s.fld (.ctxCtrl c) F.ctxCtrl_FUNCTION

/-- The partitions in service. -/
def State.activeParts (s : State) : List Nat := (List.range 64).filter (fun p => s.bit (.hstPartCtrl p) F.hstPartCtrl_ACTIVE)

/-- The partition of a context (CTX_CTRL.PARTITION). -/
def State.partOf (s : State) (c : Nat) : Nat := s.fld (.ctxCtrl c) F.ctxCtrl_PARTITION

/-- The PASID key of a context: 2^20 added when requests carry it (R578). -/
def State.pasidOf (s : State) (c : Nat) : Nat :=
  let p := s.fld (.ctxPasid c) F.ctxPasid_PASID
  if s.bit (.ctxPasid c) F.ctxPasid_PASID_EN then p + 2 ^ 20 else 0

/-- The memory key of an address as a context reaches it: space 0 and 1 of this package, or host memory. -/
def State.ctxKey (s : State) (c a : Nat) : Nat :=
  if spaceOf a = 2 then hostKey (s.fnOf c) (s.pasidOf c) a else memKey a

/-- Bytes that a context reads: local, host, or fetched from elsewhere for the operation. -/
def State.ctxRd (s : State) (c a n : Nat) : List Byte := s.kRd (s.ctxKey c a) n

/-- Bytes that a context writes to local or host memory. -/
def State.ctxWr (s : State) (c a : Nat) (bs : List Byte) : State := s.kWr (s.ctxKey c a) bs

/-- The operation with an admission number. -/
def State.op? (s : State) (q : Nat) : Option Op := s.ops.find? (fun o => o.seq == q)

/-- Change the operation with an admission number. -/
def State.modOp (s : State) (q : Nat) (f : Op → Op) : State :=
  { s with ops := s.ops.map (fun o => if o.seq = q then f o else o) }

/-- A field of a descriptor: byte offset and number of bytes (R10). -/
def dField (d : Desc) (off n : Nat) : Nat := bitsN d.toNat (8 * off) (8 * n)

/-- OPCODE of a descriptor. -/
def Op.opcode (o : Op) : Nat := dField o.desc 0 1

/-- A bit of FLAGS. -/
def Op.flagBit (o : Op) (i : Nat) : Bool := bitN (dField o.desc 2 2) i

/-- TAG of a descriptor. -/
def Op.tag (o : Op) : Nat := dField o.desc 16 8

/-- Whether a finished operation succeeded (R104): status 0x00 or 0x01. -/
def Op.ok (o : Op) : Bool := o.status == 0

/-- Set a completion flag of an operation (bits 2 to 7 of R115). -/
def Op.addFlag (o : Op) (i : Nat) : Op := if bitN o.flags i then o else { o with flags := o.flags + 2 ^ i }

end Sys2Proof.Machine
end

