-- ==== Sys2Proof/Machine/Events.lean ====
section
/-! DEFINITION. Events, the event ring, interrupt sources, MSI-X moderation and telemetry (ch. 20; R590, R591). -/

namespace Sys2Proof.Machine

/-! ### Interrupt lines -/

/-- The level condition of an interrupt source (R708). -/
def State.level (s : State) (src : Nat) : Bool :=
  if 128 ≤ src ∧ src < 136 then bitN (s.fld .pwrStatus F.pwrStatus_THROTTLE) (src - 128)
  else if 648 ≤ src ∧ src < 680 then
    let st := s.fld (.strStatus (src - 648)) F.strStatus_STATE; st == 5 || st == 6 || st == 7
  else if 680 ≤ src ∧ src < 684 then
    let st := s.fld (.fryStatus (src - 680)) F.fryStatus_STATE; st == 4 || st == 6
  else if src = 684 then s.fld .hstLink F.hstLink_RATE == 0
  else if src = 685 then !s.bit .cswStatus F.cswStatus_LIGHT
  else if src = 686 then !s.bit .frmStatus F.frmStatus_IN_STEP || s.bit .frmStatus F.frmStatus_HOLDOVER
  else if src = 687 then s.fld .evtRingTail F.evtRingTail_TAIL != s.fld .evtRingHead F.evtRingHead_HEAD
  else if src = 688 then s.bit .evtStatus F.evtStatus_FULL
  else if src = 753 then s.fld .clkStatus F.clkStatus_REF != 1
  else if src = 755 then
    let st := s.fld .rasShoalStatus F.rasShoalStatus_STATE; st == 3 || st == 5
  else false

/-- Whether a source is in service at a processor or a host vector (R709, R711, R712). -/
def EvtSt.inService (e : EvtSt) (src : Nat) : Bool :=
  e.cpStacks.any (fun st => st.any (fun p => p.2 == src)) || e.hostSvc.any (fun p => p.2 == src)

/-- Whether the event ring and every completion ring naming a vector of the physical function are empty (R715). -/
def State.vecIdle (s : State) (fn vec : Nat) : Bool :=
  s.evt.unread == 0 &&
  s.ctxs.all (fun c => !(s.fnOf c.1 == fn && s.fld (.ctxCtrl c.1) F.ctxCtrl_CQ_VECTOR == vec) || c.2.unread == 0)

/-- Whether every completion ring naming a vector is empty (R590). -/
def State.cqIdle (s : State) (fn vec : Nat) : Bool :=
  s.ctxs.all (fun c => !(s.fnOf c.1 == fn && s.fld (.ctxCtrl c.1) F.ctxCtrl_CQ_VECTOR == vec) || c.2.unread == 0)

/-- Note whether a source's host vector is idle now (R715). -/
def State.noteIdle (s : State) (src : Nat) : State :=
  let v := s.vecIdle 0 (s.fld (.irqSrc src) F.irqSrc_VECTOR)
  { s with evt := { s.evt with idleRec := sput src v s.evt.idleRec } }

/-- Set PENDING of a source, and whether only its level condition set it. -/
def State.pend (s : State) (src : Nat) (byLevel : Bool) : State :=
  let was := s.bit (.irqSrc src) F.irqSrc_PENDING
  let s := s.setFld (.irqSrc src) F.irqSrc_PENDING 1
  let s := if was then s else s.noteIdle src
  { s with evt := { s.evt with lvlOnly :=
      if byLevel && !was then insertNew src s.evt.lvlOnly
      else if byLevel then s.evt.lvlOnly else s.evt.lvlOnly.filter (· ≠ src) } }

/-- Clear PENDING of a source. -/
def State.unpend (s : State) (src : Nat) : State :=
  let s := s.setFld (.irqSrc src) F.irqSrc_PENDING 0
  { s with evt := { s.evt with lvlOnly := s.evt.lvlOnly.filter (· ≠ src), free := s.evt.free.filter (· ≠ src) } }

/-- A one-cycle pulse on a source's line (R708, R709). -/
def State.pulse (s : State) (src : Nat) : State :=
  if 759 ≤ src ∧ src ≤ 767 then s
  else if s.fld (.irqSrc src) F.irqSrc_SENSE = 0 then s.pend src false
  else if s.bit (.irqSrc src) F.irqSrc_LINE then s
  else s.pend src false

/-- Re-evaluate a source's level condition after a change (R709). -/
def State.relevel (s : State) (src : Nat) : State :=
  let old := s.bit (.irqSrc src) F.irqSrc_LINE
  let new := s.level src
  let s := s.setFld (.irqSrc src) F.irqSrc_LINE (if new then 1 else 0)
  let sense := s.fld (.irqSrc src) F.irqSrc_SENSE
  if sense = 0 then
    if new then (if s.evt.inService src then s else s.pend src true)
    else if src ∈ s.evt.lvlOnly then s.unpend src else s
  else if (sense = 1 ∧ new ∧ !old) ∨ (sense = 2 ∧ !new ∧ old) ∨ (sense = 3 ∧ new ≠ old) then s.pend src false
  else s

/-- Re-sample a level source at an EOI or acknowledgement (R711, R712). -/
def State.resample (s : State) (src : Nat) : State :=
  if s.fld (.irqSrc src) F.irqSrc_SENSE = 0 ∧ s.level src then s.pend src true else s

/-! ### Events -/

/-- The sources of a written record wait no longer; their vectors' idleness is the one just before the write (R715, R716). -/
def State.recVisible (s : State) (covers : List Nat) : State :=
  let s := s.each covers State.noteIdle
  { s with evt := { s.evt with waitRec := s.evt.waitRec.filter (fun x => x ∉ covers) } }

/-- An entry joins the pending buffer (R705). -/
def State.push (s : State) (e : Event) : State :=
  let s := { s with evt := { s.evt with pend := s.evt.pend ++ [e] } }
  s.setFld .evtStatus F.evtStatus_PENDING s.evt.pend.length

/-- An event is counted as lost (R706). -/
def State.coalesce (s : State) (e : Event) : State :=
  let c := s.evt.coal.getD ⟨0, [], e.frame, e.frame⟩
  let c := { c with count := c.count + 1, srcs := insertNew e.src c.srcs, last := e.frame }
  let s := { s with evt := { s.evt with coal := some c } }
  let s := s.setFld .evtStatus F.evtStatus_COALESCING 1
  let s := s.satRaw .evtLost F.evtLost_COUNT 1
  s.satRaw (.irqSrc e.src) F.irqSrc_LOST 1

/-- Coalescing ends with the EVENTS_LOST entry, unless the source's LOG is 0 (R707). -/
def State.endCoalescing (s : State) (c : Coalesce) : State :=
  let s := { s with evt := { s.evt with coal := none } }
  let s := s.setFld .evtStatus F.evtStatus_COALESCING 0
  let s := s.pulse 687
  if s.bit (.irqSrc 687) F.irqSrc_LOG then
    s.push ⟨0x0001, 687, c.count, c.last, s.frm.now, none, none, 0,
      c.srcs.length + c.srcs.foldl min 1023 * 2 ^ 16 + c.srcs.foldl max 0 * 2 ^ 32 + c.first % 2 ^ 64 * 2 ^ 64, 687 :: c.srcs⟩
  else s.recVisible c.srcs

/-- Coalescing that the buffer's emptying has ended takes in no further event (R706, R707). -/
def State.emptied (s : State) : State :=
  match s.evt.coal with
  | some c => if s.evt.pend.isEmpty then s.endCoalescing c else s
  | none => s

/-- Put an event into the pending buffer, or coalesce it (R705–R707). -/
def State.enqueue (s : State) (e : Event) : State :=
  let s := s.emptied
  if s.evt.coal.isSome ∨ 64 ≤ s.evt.pend.length then s.coalesce e else s.push e

/-- An event occurs: its source is pulsed, and a record is owed unless LOG is 0 (R698, R708, R709). -/
def State.event (s : State) (typ src : Nat) (ctx part : Option Nat) (detail0 data : Nat) : State :=
  let s := s.pulse src
  if s.bit (.irqSrc src) F.irqSrc_LOG then
    let s := { s with evt := { s.evt with waitRec := insertNew src s.evt.waitRec } }
    s.enqueue ⟨typ, src, 1, s.frame, s.frm.now, ctx, part, detail0, data, [src]⟩
  else s

/-- A saturating count that has just reached all ones raises COUNTER_SATURATED (R719). -/
def State.saturated (s : State) (r : Reg) (f : Fld) (before : Nat) : State :=
  if before < 2 ^ f.w - 1 ∧ s.fld r f = 2 ^ f.w - 1 then s.event 0x0003 758 none none r.key f.lo else s

/-- Add to a saturating count (R719). -/
def State.satFld (s : State) (r : Reg) (f : Fld) (n : Nat) : State :=
  (s.satRaw r f n).saturated r f (s.fld r f)

/-- An event from any agent, firmware included (R701), with the counts of R706 watched under R719. -/
def State.eventW (s : State) (typ src : Nat) (ctx part : Option Nat) (detail0 data : Nat) : State :=
  let l := s.fld .evtLost F.evtLost_COUNT
  let k := s.fld (.irqSrc src) F.irqSrc_LOST
  ((s.event typ src ctx part detail0 data).saturated .evtLost F.evtLost_COUNT l).saturated (.irqSrc src) F.irqSrc_LOST k

/-- The 64 bytes of a record (R698, R699). -/
def Event.bytes (e : Event) (seq : Nat) (gen : Nat) : List Byte :=
  toLe 64 (e.typ % 2 ^ 16 + e.src % 2 ^ 10 * 2 ^ 16 + e.count % 2 ^ 32 * 2 ^ 32 + seq % 2 ^ 64 * 2 ^ 64
    + e.frame % 2 ^ 64 * 2 ^ 128 + e.time % 2 ^ 64 * 2 ^ 192
    + (match e.ctx with | some c => c % 2 ^ 13 + 2 ^ 15 | none => 0) * 2 ^ 256
    + (match e.part with | some p => p % 2 ^ 6 + 2 ^ 7 | none => 0) * 2 ^ 272
    + e.detail0 % 2 ^ 32 * 2 ^ 288 + e.data % 2 ^ 128 * 2 ^ 320 + gen % 2 * 2 ^ 511)

/-- Entries of the event ring (R702). -/
def State.evtSize (s : State) : Nat := 2 ^ s.fld .evtRingCtrl F.evtRingCtrl_LOG2

/-- Global address of the event ring. -/
def State.evtBase (s : State) : Nat := s.fld .evtRingBase F.evtRingBase_BASE * 4096

/-- The memory key of the event ring: space 0, or host memory under the physical function without PASID (R702). -/
def State.evtKey (s : State) : Nat :=
  if spaceOf s.evtBase = 2 then hostKey 0 0 s.evtBase else memKey s.evtBase

/-- Whether stop mode holds the ring full (R704). -/
def State.evtFull (s : State) : Bool :=
  s.bit .evtRingCtrl F.evtRingCtrl_ENABLE && s.bit .evtRingCtrl F.evtRingCtrl_MODE &&
  (s.fld .evtRingTail F.evtRingTail_TAIL + 1) % s.evtSize == s.fld .evtRingHead F.evtRingHead_HEAD

/-- Bring FULL and the two event-ring levels up to date (R704, R708). -/
def State.evtLevels (s : State) : State :=
  ((s.setFld .evtStatus F.evtStatus_FULL (if s.evtFull then 1 else 0)).relevel 687).relevel 688

/-- Write the oldest pending event to the ring at TAIL (R703–R705). -/
def State.writeRecord (s : State) (e : Event) (rest : List Event) : State :=
  let n := s.evtSize
  let t := s.fld .evtRingTail F.evtRingTail_TAIL
  let g := s.fld .evtRingTail F.evtRingTail_GEN
  let seq := s.fld .evtSeq F.evtSeq_SEQ
  let s := s.recVisible e.covers
  let s := s.kWr (s.evtKey + 64 * t) (e.bytes seq g)
  let o := s.fld .evtStatus F.evtStatus_OVERWRITTEN
  let past := s.evt.unread = n
  let s := if past then s.satRaw .evtStatus F.evtStatus_OVERWRITTEN 1 else s
  let s := { s with evt := { s.evt with pend := rest, unread := if past then n else s.evt.unread + 1 } }
  let s := s.setFld .evtStatus F.evtStatus_PENDING rest.length
  let s := s.setFld .evtSeq F.evtSeq_SEQ (seq + e.count)
  let s := s.setFld .evtRingTail F.evtRingTail_TAIL ((t + 1) % n)
  let s := if (t + 1) % n = 0 then s.setFld .evtRingTail F.evtRingTail_GEN (1 - g) else s
  (s.evtLevels).saturated .evtStatus F.evtStatus_OVERWRITTEN o

/-- EVENT_RECORD_WRITE: the writer takes the oldest pending entry; `ok` says whether a write to host memory succeeds (R705). -/
def eventRecordWrite (ok : Bool) (at_ : Nat) (s : State) : State :=
  let s := s.reach at_
  match s.evt.pend with
  | [] => s
  | e :: rest =>
    if !s.bit .evtRingCtrl F.evtRingCtrl_ENABLE then s
    else if s.evtFull then s.evtLevels
    else if spaceOf s.evtBase = 2 ∧ (!ok ∨ s.fld .hstLink F.hstLink_RATE = 0) then s
    else s.writeRecord e rest

/-- EVENTS_LOST: the pending buffer has emptied during coalescing, so one entry stands for what was lost (R707). -/
def eventsLost (s : State) : State :=
  match s.evt.coal with
  | none => s
  | some c =>
    if s.evt.pend ≠ [] then s else s.endCoalescing c

/-- EVENT_COALESCING: an event occurs, and while the pending buffer is full or coalescing runs it is counted as lost (R706). -/
def eventCoalescing (typ src detail0 : Nat) (s : State) : State :=
  if src < 1024 then s.eventW typ src none none detail0 0 else s

/-- A write of EVT_RING_HEAD frees entries (R704). -/
def evtHeadWrite (v : Nat) (s : State) : State :=
  if v < s.evtSize then
    let s := s.setFld .evtRingHead F.evtRingHead_HEAD v
    let t := s.fld .evtRingTail F.evtRingTail_TAIL
    let s := { s with evt := { s.evt with unread := (t + s.evtSize - v) % s.evtSize } }
    s.evtLevels
  else s

/-- Whether the ring base obeys R702. -/
def State.evtBaseOk (s : State) : Bool :=
  spaceOf s.evtBase == 2 || (spaceOf s.evtBase == 0 && s.isOwn (pkgOf s.evtBase))

/-- Event effects of a write of EVT_RING_CTRL that leaves the register's fields `enable`, `mode`, `log2` asked for (R702). -/
def evtCtrlWrite (enable mode log2 : Nat) (s : State) : State :=
  let on := s.bit .evtRingCtrl F.evtRingCtrl_ENABLE
  let s := s.setFld .evtRingCtrl F.evtRingCtrl_MODE mode
  let s := if !on ∧ 6 ≤ log2 ∧ log2 ≤ 16 then s.setFld .evtRingCtrl F.evtRingCtrl_LOG2 log2 else s
  if enable = 0 then (s.setFld .evtRingCtrl F.evtRingCtrl_ENABLE 0).evtLevels
  else if on then s.evtLevels
  else if s.evtBaseOk then
    let s := s.setFld .evtRingCtrl F.evtRingCtrl_ENABLE 1
    let s := s.setFld .evtRingTail F.evtRingTail_TAIL 0
    let s := s.setFld .evtRingHead F.evtRingHead_HEAD 0
    let s := s.setFld .evtRingTail F.evtRingTail_GEN 1
    ({ s with evt := { s.evt with unread := 0 } } : State).evtLevels
  else s

/-! ### MSI-X messages and moderation (R590, R591) -/

/-- Key of a vector of a function. -/
def vecKey (fn vec : Nat) : Nat := fn * 4096 + vec

/-- The mask bit of an MSI-X table entry (bit 0 of the vector control word; PCIe resets it to 1). -/
def State.masked (s : State) (fn vec : Nat) : Bool :=
  match sget (vecKey fn vec) s.evt.msix with
  | some e => bitN e.toNat 96
  | none => true

/-- The host vector goes into service at a priority (R712). -/
def State.serve (s : State) (fn vec : Nat) (p : Option Nat) : State :=
  match p with
  | none => s
  | some p =>
    if fn = 0 then
      (s.setFld (.irqVec vec) F.irqVec_IN_SERVICE 1).setFld (.irqVec vec) F.irqVec_LEVEL
        (if s.bit (.irqVec vec) F.irqVec_IN_SERVICE then max p (s.fld (.irqVec vec) F.irqVec_LEVEL) else p)
    else s

/-- Send one message, or hold it under the mask (R591). -/
def State.sendMsix (s : State) (fn vec : Nat) (p : Option Nat) : State :=
  let s := s.serve fn vec p
  if s.masked fn vec then { s with evt := { s.evt with msixPend := insertNew (vecKey fn vec) s.evt.msixPend } }
  else s.emit (.msix fn vec)

/-- TIMER of a vector in µs. -/
def State.modTimer (s : State) (fn vec : Nat) : Nat :=
  if fn = 0 then s.fld (.hstMsixMod vec) F.hstMsixMod_TIMER else s.fld (.vfMsixMod fn vec) F.vfMsixMod_TIMER

/-- COUNT of a vector. -/
def State.modCount (s : State) (fn vec : Nat) : Nat :=
  if fn = 0 then s.fld (.hstMsixMod vec) F.hstMsixMod_COUNT else s.fld (.vfMsixMod fn vec) F.vfMsixMod_COUNT

/-- The higher of two optional priorities. -/
def maxPrio : Option Nat → Option Nat → Option Nat
  | none, b => b
  | a, none => a
  | some a, some b => some (max a b)

/-- An interrupt on a vector of a function; `idle` as judged by R590 or R715 (R590). -/
def State.raiseVector (s : State) (fn vec : Nat) (idle : Bool) (p : Option Nat) : State :=
  let k := vecKey fn vec
  let m := sgetD k {} s.evt.moder
  if s.modTimer fn vec = 0 then s.sendMsix fn vec p
  else if idle then
    let s := s.sendMsix fn vec p
    { s with evt := { s.evt with moder := sput k { m with since := s.frm.now } s.evt.moder } }
  else if m.pend + 1 ≥ s.modCount fn vec then
    let s := s.sendMsix fn vec (maxPrio m.prio p)
    { s with evt := { s.evt with moder := sput k ⟨0, m.since, none, false⟩ s.evt.moder } }
  else
    let m' : Moder := ⟨m.pend + 1, if m.pend = 0 then s.frm.now else m.since, maxPrio m.prio p, m.ring || p.isNone⟩
    { s with evt := { s.evt with moder := sput k m' s.evt.moder } }

/-- A moderated vector's message goes out, and its count starts anew (R590). -/
def State.flushVector (s : State) (fn vec : Nat) : State :=
  let k := vecKey fn vec
  let s := s.sendMsix fn vec (sgetD k {} s.evt.moder).prio
  { s with evt := { s.evt with moder := sput k ⟨0, s.frm.now, none, false⟩ s.evt.moder } }

/-- While a vector is in service, a message for interrupt sources alone waits unless one of them has a priority above the in-service one (R712; log entry 91). -/
def State.modHeld (s : State) (fn vec : Nat) : Bool :=
  let m := sgetD (vecKey fn vec) {} s.evt.moder
  fn == 0 && !m.ring && s.bit (.irqVec vec) F.irqVec_IN_SERVICE &&
    (match m.prio with | some p => decide (p ≤ s.fld (.irqVec vec) F.irqVec_LEVEL) | none => false)

/-- MODERATION_TIMER: TIMER µs after the first pending interrupt, one message covers all of them (R590). -/
def moderationTimer (fn vec at_ : Nat) (s : State) : State :=
  let s := s.reach at_
  let k := vecKey fn vec
  let m := sgetD k {} s.evt.moder
  if 0 < m.pend ∧ m.since + 1000 * s.modTimer fn vec ≤ s.frm.now ∧ s.modHeld fn vec = false then s.flushVector fn vec else s

/-- Write an MSI-X table entry; clearing its mask sends a held message (R591). -/
def State.msixWrite (s : State) (fn vec : Nat) (e : BitVec 128) : State :=
  let k := vecKey fn vec
  let s := { s with evt := { s.evt with msix := sput k e s.evt.msix } }
  if k ∈ s.evt.msixPend ∧ !bitN e.toNat 96 then
    ({ s with evt := { s.evt with msixPend := s.evt.msixPend.filter (· ≠ k) } } : State).emit (.msix fn vec)
  else s

/-! ### Delivery (R710–R716) -/

/-- The enabled pending sources whose TARGET is given. -/
def State.candidates (s : State) (target : Nat) : List Nat :=
  s.regs.filterMap (fun kv =>
    if 0xE0000 ≤ kv.1 ∧ kv.1 < 0xE2000 ∧ F.irqSrc_PENDING.get kv.2 = 1 ∧ F.irqSrc_ENABLE.get kv.2 = 1
        ∧ F.irqSrc_TARGET.get kv.2 = target
    then some ((kv.1 - 0xE0000) / 8) else none)

/-- Priority of a source. -/
def State.prio (s : State) (src : Nat) : Nat := s.fld (.irqSrc src) F.irqSrc_PRIORITY

/-- The candidate of highest priority, the lowest index breaking ties (R710). -/
def State.bestOf (s : State) : List Nat → Option Nat
  | [] => none
  | a :: r =>
    match s.bestOf r with
    | none => some a
    | some b => if s.prio b > s.prio a ∨ (s.prio b = s.prio a ∧ b < a) then some b else some a

/-- Top of a processor's stack. -/
def State.running (s : State) (c : Nat) : Nat := match nthD s.evt.cpStacks c [] with | [] => 0 | p :: _ => p.1

/-- The source that R710 lets a processor take now, if any. -/
def State.cpBest (s : State) (c : Nat) : Option Nat :=
  match s.bestOf (s.candidates c) with
  | none => none
  | some b => if s.prio b > s.fld (.irqCp c) F.irqCp_THRESH ∧ s.prio b > s.running c then some b else none

/-- Keep DEPTH and RUNNING of a processor in step with its stack. -/
def State.cpRegs (s : State) (c : Nat) : State :=
  (s.setFld (.irqCp c) F.irqCp_DEPTH (nthD s.evt.cpStacks c []).length).setFld (.irqCp c) F.irqCp_RUNNING (s.running c)

/-- Deliver a source to a processor; the hold goes on while another source is held (R710, R711, R714). -/
def State.cpDeliver (s : State) (c src : Nat) : State :=
  let p := s.prio src
  let held := (s.candidates c).any (fun b => b != src && decide (b ∉ s.evt.free))
  let s := s.unpend src
  let s := { s with evt := { s.evt with cpStacks := s.evt.cpStacks.set c ((p, src) :: nthD s.evt.cpStacks c []),
                                        hold := if held then s.evt.hold else s.evt.hold.set c none } }
  (s.cpRegs c).setFld (.irqCp c) F.irqCp_IDLE 0

/-- The hold of a processor ends: what it held may be delivered (R714; log entry 91). -/
def State.holdEnd (s : State) (c : Nat) : State :=
  { s with evt := { s.evt with
      hold := s.evt.hold.set c none, free := (s.candidates c).foldl (fun l b => insertNew b l) s.evt.free } }

/-- Delivery to a control processor, at once or held under R714. -/
def State.cpTry (s : State) (c : Nat) : State :=
  match s.cpBest c with
  | none => s
  | some b =>
    let timer := s.fld (.irqCp c) F.irqCp_TIMER
    if timer = 0 ∨ s.prio b = 15 ∨ s.bit (.irqCp c) F.irqCp_IDLE ∨ b ∈ s.evt.free then s.cpDeliver c b
    else
      match nthD s.evt.hold c none with
      | some t0 => if t0 + 1000 * timer ≤ s.frm.now then (s.holdEnd c).cpDeliver c b else s
      | none => { s with evt := { s.evt with hold := s.evt.hold.set c (some s.frm.now) } }

/-- The sources that may be delivered to their host vector now (R710, R712, R715). -/
def State.hostReady (s : State) : List Nat :=
  (s.candidates 4).filter (fun b =>
    let v := s.fld (.irqSrc b) F.irqSrc_VECTOR
    decide (b ∉ s.evt.waitRec) && decide (s.prio b > s.fld (.irqVec v) F.irqVec_THRESH) &&
    (!s.bit (.irqVec v) F.irqVec_IN_SERVICE || decide (s.prio b > s.fld (.irqVec v) F.irqVec_LEVEL)))

/-- Deliver the best ready source to its host vector, moderated (R712, R715). -/
def State.hostTry (s : State) : State :=
  match s.bestOf s.hostReady with
  | none => s
  | some b =>
    let v := s.fld (.irqSrc b) F.irqSrc_VECTOR
    let p := s.prio b
    let s := s.unpend b
    let s := { s with evt := { s.evt with hostSvc := insertNew (v, b) s.evt.hostSvc } }
    s.raiseVector 0 v (sgetD b false s.evt.idleRec) (some p)

/-- IRQ_DELIVERY: a pending enabled source above threshold and running priority goes to its target, processor 0–3 or a host vector (4) (R710). -/
def irqDelivery (target at_ : Nat) (s : State) : State :=
  let s := s.reach at_
  if target < 4 then s.cpTry target else if target = 4 then s.hostTry else s

/-- CP_HOLD_TIMER: the hold timer of a processor has run out (R714). -/
def cpHoldTimer (c at_ : Nat) (s : State) : State :=
  let s := s.reach at_
  match nthD s.evt.hold c none with
  | none => s
  | some t0 =>
    if t0 + 1000 * s.fld (.irqCp c) F.irqCp_TIMER ≤ s.frm.now then
      let s := s.holdEnd c
      match s.cpBest c with
      | none => s
      | some b => s.cpDeliver c b
    else s

/-- IRQ_CP_EOI: the end-of-handler write pops the stack and re-samples the popped source when it is a level source (R711). -/
def cpEoi (c : Nat) (s : State) : State :=
  match nthD s.evt.cpStacks c [] with
  | [] => s
  | p :: rest =>
    let s := { s with evt := { s.evt with cpStacks := s.evt.cpStacks.set c rest } }
    (s.cpRegs c).resample p.2

/-- IRQ_HOST_ACK: service of a vector ends, and every level source that targets it is re-sampled (R712). -/
def hostAck (vec : Nat) (s : State) : State :=
  if s.bit (.irqVec vec) F.irqVec_IN_SERVICE then
    let s := s.setFld (.irqVec vec) F.irqVec_IN_SERVICE 0
    let s := s.setFld (.irqVec vec) F.irqVec_LEVEL 0
    let s := { s with evt := { s.evt with hostSvc := s.evt.hostSvc.filter (fun p => p.1 ≠ vec) } }
    let srcs := (s.regs.filterMap (fun kv =>
      if 0xE0000 ≤ kv.1 ∧ kv.1 < 0xE2000 ∧ F.irqSrc_TARGET.get kv.2 = 4 ∧ F.irqSrc_VECTOR.get kv.2 = vec
      then some ((kv.1 - 0xE0000) / 8) else none))
    s.each srcs State.resample
  else s

/-- When a processor stops, its sources target the one taking over, and its stack is cleared (R717). -/
def State.cpTakeover (s : State) (c by_ : Nat) : State :=
  let srcs := (List.range 1024).filter (fun n => s.fld (.irqSrc n) F.irqSrc_TARGET == c)
  let s := s.each srcs (fun s n => s.setFld (.irqSrc n) F.irqSrc_TARGET by_)
  let s := { s with evt := { s.evt with cpStacks := s.evt.cpStacks.set c [], hold := s.evt.hold.set c none } }
  s.cpRegs c

/-! ### Performance counters (R720–R723) -/

/-- Count occurrences of a performance event at a unit (R721). -/
def State.perf (s : State) (ev unit n : Nat) : State :=
  s.each (List.range 32) (fun s i =>
    if s.fld (.evtPerfSel i) F.evtPerfSel_EVENT = ev ∧ s.fld (.evtPerfSel i) F.evtPerfSel_UNIT = unit
    then s.wrapFld (.evtPerfCnt i) F.evtPerfCnt_COUNT n else s)

/-- TELEMETRY_SNAPSHOT: all 32 counters are copied at once (R723); the record is owed in the slack phase. -/
def telemetrySnapshot (s : State) : State :=
  let fr := s.fld .evtTelemCtrl F.evtTelemCtrl_FRAMES
  if s.evt.snap ∨ (fr ≠ 0 ∧ s.frame % fr = 0) then
    let s := s.each (List.range 32) (fun s i =>
      s.setFld (.evtPerfSnap i) F.evtPerfSnap_COUNT (s.fld (.evtPerfCnt i) F.evtPerfCnt_COUNT))
    let s := s.setFld .evtSnapFrame F.evtSnapFrame_FRAME s.frame
    { s with evt := { s.evt with snap := false, telem := true } }
  else s

/-- In the slack phase, the TELEMETRY record that is owed is raised (R723). -/
def State.telemRecord (s : State) : State :=
  if s.evt.telem then
    ({ s with evt := { s.evt with telem := false } } : State).eventW 0x0002 758 none none 0 (s.fld .evtSnapFrame F.evtSnapFrame_FRAME)
  else s

end Sys2Proof.Machine
end

