-- ==== Sys2Proof/Machine/Contexts.lean ====
section
/-! DEFINITION. Contexts, segments, rings, doorbells, host memory and BAR4 (ch. 16). -/

namespace Sys2Proof.Machine

/-! ### Memory that exists (R389, R391–R393, R407) -/

/-- Bytes of the SRAM window of space 1: 768 KiB for each of 16,384 logical cores (R392). -/
def sramSize : Nat := 16384 * 0xC0000

/-- Usable bytes at the bottom of a die's range (R393). -/
def State.usable (s : State) (d : Nat) : Nat := s.fld (.memDieStatus d) F.memDieStatus_USABLE_MIB * 2 ^ 20

/-- Whether `n` bytes at an offset of space 0 or 1 of this package exist (R391–R393). -/
def State.exists_ (s : State) (space off n : Nat) : Bool :=
  if space = 0 then
    decide (off / dieRange < 8) && decide (off % dieRange + n ≤ s.usable (off / dieRange))
  else space == 1 && decide (off + n ≤ sramSize)

/-- Whether two byte ranges overlap. -/
def overlap (a n b m : Nat) : Bool := decide (0 < n) && decide (0 < m) && decide (a < b + m) && decide (b < a + n)

/-- Whether a range of space 0 touches a map-out reserve in force (R407). -/
def State.inReserve (s : State) (off n : Nat) : Bool :=
  s.bit .memCtrl F.memCtrl_RESERVE &&
  (List.range 8).any (fun d => overlap off n (d * dieRange + s.usable d - 1536 * 2 ^ 20) (1536 * 2 ^ 20))

/-- The areas of a partition in space 0: undo area and chart spill area, as (offset, bytes). -/
def State.partAreas (s : State) (p : Nat) : List (Nat × Nat) :=
  [(offOf (s.fld (.schUndoBase p) F.schUndoBase_BASE * 65536), s.fld (.schUndoSize p) F.schUndoSize_UNITS * 65536),
   (offOf (s.fld (.tblChartSpillBase p) F.tblChartSpillBase_BASE * 65536), s.fld (.tblChartSpillSize p) F.tblChartSpillSize_LINES * 2048)]

/-! ### Host memory (R577–R580) -/

/-- Whether the host link is up (R561). -/
def State.hostUp (s : State) : Bool := s.fld .hstLink F.hstLink_RATE != 0

/-- Translate one page, through the cache; a miss is counted and the answer kept (R579). -/
def State.translate (s : State) (fn pasid page : Nat) (w : Bool) : Bool × State :=
  match s.host.atc.find? (fun e => e.1 == fn && e.2.1 == pasid && e.2.2.1 == page && (e.2.2.2 || !w)) with
  | some _ => (true, s)
  | none =>
    let ok := s.hostUp && Config.hostGrants fn pasid page w s.host.epoch
    let s := s.wrapFld .hstAts F.hstAts_MISSES 1
    (ok, if ok then { s with host := { s.host with atc := ((fn, pasid, page, w) :: s.host.atc).take 16384 } } else s)

/-- Translate every page of a range (R579). -/
def State.translateAll (s : State) (fn pasid : Nat) (w : Bool) : List Nat → Bool × State
  | [] => (true, s)
  | p :: ps =>
    match s.translate fn pasid p w with
    | (false, s) => (false, s)
    | (true, s) => s.translateAll fn pasid w ps

/-- The 4 KiB pages of a range. -/
def pagesOf (a n : Nat) : List Nat := (List.range ((a % 4096 + n + 4095) / 4096)).map (fun i => offOf a / 4096 + i)

/-- ATS_INVALIDATION: the named translations stop being used, and the invalidation completes (R580). -/
def atsInvalidation (fn pasid page pages : Nat) (s : State) : State :=
  let s := { s with host := { s.host with
    epoch := s.host.epoch + 1,
    atc := s.host.atc.filter (fun e => !(e.1 == fn && e.2.1 == pasid && decide (page ≤ e.2.2.1) && decide (e.2.2.1 < page + pages))) } }
  s.wrapFld .hstAts F.hstAts_INVALIDATIONS 1

/-! ### Segments (R574–R577) -/

/-- One segment entry from its 16 bytes, and whether it breaks the segment rules (R574). -/
def parseSeg (b : Nat) : Seg × Bool :=
  let g : Seg := ⟨bitsN b 44 4, bitsN b 0 44, bitsN b 64 44, bitN b 48, bitN b 49, bitN b 50, bitN b 51⟩
  (g, g.space ≤ 1 && g.base % 64 == 0 && (g.limit + 1) % 64 == 0 && decide (g.base ≤ g.limit)
      && bitsN b 52 12 == 0 && bitsN b 108 20 == 0)

/-- The segment table address of a context. -/
def State.segAddr (s : State) (c : Nat) : Nat := s.fld (.ctxSeg c) F.ctxSeg_SEG_ADDR * 64

/-- SEG_COUNT of a context. -/
def State.segCount (s : State) (c : Nat) : Nat := s.fld (.ctxPasid c) F.ctxPasid_SEG_COUNT

/-- The segment table as memory holds it, with whether each entry obeys the rules. -/
def State.readSegs (s : State) (c : Nat) : List (Seg × Bool) :=
  (List.range (s.segCount c)).map (fun i => parseSeg (s.rdN (s.segAddr c + 16 * i) 16))

/-- Whether a segment covers a protected area or another function's segment (R575). -/
def State.segProtected (s : State) (c : Nat) (g : Seg) : Bool :=
  let n := g.limit + 1 - g.base
  (g.space == 0 &&
    (s.inReserve g.base n
     || (List.range 64).any (fun p => (s.partAreas p).any (fun a => overlap g.base n a.1 a.2))
     || s.ctxs.any (fun x => x.1 != c && overlap g.base n (offOf (s.segAddr x.1)) (16 * s.segCount x.1))))
  || s.ctxs.any (fun x => s.fnOf x.1 != s.fnOf c &&
       x.2.segs.any (fun h => h.space == g.space && overlap g.base n h.base (h.limit + 1 - h.base)))

/-- The error code of a context's segment table: 0 none, 0x04 or 0x05 (R571, R575, R391). -/
def State.segErr (s : State) (c : Nat) : Nat :=
  let n := s.segCount c
  let a := s.segAddr c
  if n = 0 ∨ 64 < n ∨ !s.isLocal a ∨ spaceOf a ≠ 0 ∨ !s.exists_ 0 (offOf a) (16 * n) ∨ s.poisoned (memKey a) (16 * n) then 4
  else
    let l := s.readSegs c
    if l.any (fun g => !g.2 || !s.exists_ g.1.space g.1.base (g.1.limit + 1 - g.1.base)) then 4
    else if l.any (fun g => s.segProtected c g.1) then 5
    else 0

/-- Whether a range lies wholly within one segment with the permissions asked for (R574). -/
def segCovers (l : List Seg) (space off n : Nat) (p : Seg → Bool) : Bool :=
  l.any (fun g => g.space == space && decide (g.base ≤ off) && decide (off + n ≤ g.limit + 1) && p g)

/-- The segment check of arriving traffic that names a context: REMOTE_R or REMOTE_W (R574, R575). -/
def State.remoteOk (s : State) (c a n : Nat) (write : Bool) : Bool :=
  match s.ctx? c with
  | none => false
  | some x => s.isLocal a && segCovers x.segs (spaceOf a) (offOf a) n (fun g => if write then g.remW else g.remR)
              && s.exists_ (spaceOf a) (offOf a) n

/-! ### Enabling a context (R571–R573, R581, R582) -/

/-- The address of a context's ring header. -/
def State.hdrAddr (s : State) (c : Nat) : Nat := s.fld (.ctxRing c) F.ctxRing_HDR_ADDR * 64

/-- Whether R573 lets a context place a ring part at an address. -/
def State.ringPlace (s : State) (c a : Nat) : Bool :=
  spaceOf a == 2 || (s.fnOf c == 0 && spaceOf a == 0 && s.isOwn (pkgOf a))

/-- The ring header's 64 bytes. -/
def State.hdrBytes (s : State) (c : Nat) : Nat := leBytes (s.ctxRd c (s.hdrAddr c) 64)

/-- Whether a ring header is readable and obeys the ring header rules (R573, R582). -/
def State.hdrOk (s : State) (c : Nat) : Bool :=
  let a := s.hdrAddr c
  let h := s.hdrBytes c
  let sq := bitsN h 64 64
  let cq := bitsN h 128 64
  s.ringPlace c a &&
  (if spaceOf a = 2 then s.hostUp && Config.hostGrants (s.fnOf c) (s.pasidOf c) (offOf a / 4096) true s.host.epoch
   else s.exists_ 0 (offOf a) 64 && !s.poisoned (memKey a) 64) &&
  decide (6 ≤ bitsN h 8 8) && decide (bitsN h 8 8 ≤ 16) && decide (6 ≤ bitsN h 16 8) && decide (bitsN h 16 8 ≤ 16) &&
  sq % 4096 == 0 && cq % 4096 == 0 && s.ringPlace c sq && s.ringPlace c cq &&
  bitsN h 24 40 == 0 && bitsN h 256 256 == 0

/-- The first check of R571 that fails, as its ERR code; 0 when all pass. -/
def State.enableErr (s : State) (c : Nat) : Nat :=
  let f := s.fnOf c
  let p := s.partOf c
  if f ≠ 0 ∧ (!s.host.vfEnable ∨ s.host.numVfs < f ∨
      s.ctxs.any (fun x => x.1 != c && s.fnOf x.1 == f
        && s.fld (.ctxCtrl x.1) F.ctxCtrl_SLOT == s.fld (.ctxCtrl c) F.ctxCtrl_SLOT)) then 1
  else if f ≠ 0 ∧ 8 ≤ s.fld (.ctxCtrl c) F.ctxCtrl_CQ_VECTOR then 2
  else if !s.hdrOk c then 3
  else if s.segErr c ≠ 0 then s.segErr c
  else if !(s.bit (.hstPartCtrl p) F.hstPartCtrl_ACTIVE || s.fld (.hstPartCtrl p) F.hstPartCtrl_PRIMARY == c) then 6
  else 0

/-- The context record of a successful enable: header and segments copied, indices zero (R572, R581). -/
def State.freshCtx (s : State) (c : Nat) : Ctx :=
  let h := s.hdrBytes c
  { id := c, version := bitsN h 0 8, sqLog2 := bitsN h 8 8, cqLog2 := bitsN h 16 8, sqAddr := bitsN h 64 64, cqAddr := bitsN h 128 64,
    segs := (s.readSegs c).map Prod.fst, quota := s.reg (.ctxQuota c) }

/-- The check made when ENABLE goes from 0 to 1 (R571). -/
def State.enableCheck (s : State) (c : Nat) : State :=
  let e := s.enableErr c
  if e = 0 then
    let s := s.setCtx (s.freshCtx c)
    let s := s.setFld (.ctxStatus c) F.ctxStatus_ACTIVE 1
    let s := s.setFld (.ctxStatus c) F.ctxStatus_ERR 0
    let s := s.setFld (.ctxStatus c) F.ctxStatus_SQ_HEAD 0
    s.setFld (.ctxStatus c) F.ctxStatus_CQ_TAIL 0
  else
    let s := s.setFld (.ctxCtrl c) F.ctxCtrl_ENABLE 0
    let s := s.setFld (.ctxStatus c) F.ctxStatus_ERR e
    s.eventW 0x0601 684 (some c) none c e

/-- SEG_RELOAD: the table is read and checked again; a good one is staged for the next tick (R576). -/
def State.segReload (s : State) (c : Nat) : State :=
  match s.ctx? c with
  | none => s
  | some x =>
    let e := s.segErr c
    if e = 0 then s.setCtx { x with staged := some ((s.readSegs c).map Prod.fst) }
    else
      let s := s.setFld (.ctxStatus c) F.ctxStatus_ERR e
      s.eventW 0x0601 684 (some c) none c e

/-! ### Sleep and wake (R454) -/

/-- A wake source brings the package out of S1 or S2: regions start at P2; leaving S2 zeroes SRAM (R454). -/
def State.wake (s : State) : State :=
  let st := s.fld .pwrStatus F.pwrStatus_STATE
  if st = 0 then s
  else
    let s := s.setFld .pwrStatus F.pwrStatus_STATE 0
    let s := s.setFld .pwrStatus F.pwrStatus_BUSY 0
    let s := s.each (List.range 128) (fun s r => s.setFld (.schRegState r) F.schRegState_PSTATE 2)
    let s := { s with pwr := { s.pwr with rising := List.range 128 } }
    let s := if st = 2 then { s with mem := s.mem.filter (fun c => decide (c.1 / 2 ^ 60 ≠ 1)), poison := s.poison.filter (fun b => decide (64 * b / 2 ^ 60 ≠ 1)), l0 := [] } else s
    s.eventW 0x0204 756 none none 0 0

/-! ### Doorbells (R584, R586–R588) -/

/-- The context that a doorbell page serves: function and page number (R588). -/
def State.pageCtx (s : State) (fn page : Nat) : Option Nat :=
  if fn = 0 then
    if page < 8192 ∧ s.fnOf page = 0 then some page else none
  else
    ((s.ctxs.find? (fun x => s.fnOf x.1 == fn && s.fld (.ctxCtrl x.1) F.ctxCtrl_SLOT == page)).map Prod.fst)

/-- A doorbell is ignored and counted (R587). -/
def State.doorbellUncalled (s : State) (c : Nat) : State := s.satFld (.ctxCount c) F.ctxCount_DB_IGNORED 1

/-- A doorbell at or above the ring size is ignored, counted and logged (R587). -/
def State.doorbellIgnored (s : State) (c v : Nat) : State :=
  (s.doorbellUncalled c).eventW 0x0602 684 (some c) none c (v % 2 ^ 32)

/-- Whether doorbells of a context are taken: ENABLE 1 and RESET_BUSY 0 (R587). -/
def State.doorbellsOn (s : State) (c : Nat) : Bool :=
  s.bit (.ctxCtrl c) F.ctxCtrl_ENABLE && !s.bit (.ctxStatus c) F.ctxStatus_RESET_BUSY

/-- A doorbell write wakes the package when it may (R454). -/
def State.doorbellWake (s : State) : State :=
  if s.bit .pwrCtrl F.pwrCtrl_WAKE_DOORBELL then s.wake else s

/-- The ring with a new tail, and the time at which it exposes descriptors (R442, R587). -/
def Ctx.expose (x : Ctx) (v now : Nat) : Ctx :=
  let n := 2 ^ x.sqLog2
  let t := x.fetched + (v + n - x.fetched % n) % n
  let old := x.exposed.filter (fun e => decide (e.1 ≤ t))
  { x with tail := v, exposed := if t = x.fetched ∨ old.any (fun e => e.1 == t) then old else old ++ [(t, now)] }

/-- When the oldest unfetched descriptor was exposed (R442). -/
def Ctx.waitsSince (x : Ctx) : Option Nat := (x.exposed.find? (fun e => decide (x.fetched < e.1))).map Prod.snd

/-- SQ_TAIL: the latest tail is kept for the next intake turn (R587). -/
def sqTail (fn page v at_ : Nat) (s : State) : State :=
  let s := s.reach at_
  match s.pageCtx fn page with
  | none => s
  | some c =>
    match s.ctx? c with
    | some x =>
      if s.doorbellsOn c then
        if v < 2 ^ x.sqLog2 then
          (s.setCtx (x.expose v s.frm.now)).doorbellWake
        else s.doorbellIgnored c v
      else s.doorbellUncalled c
    | none => s.doorbellUncalled c

/-- CQ_HEAD: completions below the head are read, and their slots are free (R584). -/
def cqHead (fn page v at_ : Nat) (s : State) : State :=
  let s := s.reach at_
  match s.pageCtx fn page with
  | none => s
  | some c =>
    match s.ctx? c with
    | some x =>
      if s.doorbellsOn c then
        if v < 2 ^ x.cqLog2 then
          let n := 2 ^ x.cqLog2
          let t := s.fld (.ctxStatus c) F.ctxStatus_CQ_TAIL
          (s.setCtx { x with cqHead := v, unread := (t + n - v) % n }).doorbellWake
        else s.doorbellIgnored c v
      else s.doorbellUncalled c
    | none => s.doorbellUncalled c

/-- A read of a doorbell page (R586, R588). -/
def State.doorbellRead (s : State) (fn page off : Nat) : Nat :=
  match s.pageCtx fn page with
  | none => 0
  | some c =>
    if off = 0x10 then (s.reg (.ctxStatus c)).toNat % 2 ^ 32
    else if off = 0x14 then (s.reg (.ctxStatus c)).toNat / 2 ^ 32
    else 0

/-! ### BAR4 (R564, R565) -/

/-- Where a BAR4 offset leads: space and offset, if usable (R564, R565). -/
def State.bar4 (s : State) (o n : Nat) : Option Nat :=
  if !s.bit .hstCtrl F.hstCtrl_BAR4_EN then none
  else if o < 0xC000000000 then (if s.exists_ 0 o n then some o else none)
  else if o ≤ 0xC2FFFFFFFF then (if s.exists_ 1 (o - 0xC000000000) n then some (2 ^ 60 + (o - 0xC000000000)) else none)
  else none

/-! ### Host link (R561) -/

/-- HOST_LINK_UP: training ends; the host's enumeration has set VF Enable and NumVFs (log entry 9). The time the link was down with a context enabled counts as unavailable (R662). -/
def hostLinkUp (rate width : Nat) (flit rev vfEnable : Bool) (numVfs at_ : Nat) (s : State) : State :=
  let s := s.reach at_
  let s := s.setFld .hstLink F.hstLink_RATE (if 1 ≤ rate ∧ rate ≤ 6 then rate else 1)
  let s := s.setFld .hstLink F.hstLink_WIDTH width
  let s := s.setFld .hstLink F.hstLink_FLIT (if flit then 1 else 0)
  let s := s.setFld .hstLink F.hstLink_REVERSED (if rev then 1 else 0)
  let s := match s.host.downAt with
    | some t => s.wrapFld .rasUnavail F.rasUnavail_NS (s.frm.now - t)
    | none => s
  let s := { s with host := { s.host with vfEnable := vfEnable, numVfs := min numVfs 255, downAt := none } }
  s.relevel 684

/-- HOST_LINK_DOWN: no ring in space 2 is fetched while RATE is 0 (R561). -/
def hostLinkDown (at_ : Nat) (s : State) : State :=
  let s := s.reach at_
  let d := if s.ctxs.isEmpty ∨ s.host.downAt.isSome then s.host.downAt else some s.frm.now
  let s := { s with host := { s.host with downAt := d, ide := [] } }
  (s.setReg .hstLink 0).relevel 684

end Sys2Proof.Machine
end

