-- ==== Sys2Proof/Machine/Desc.lean ====
section
/-! DEFINITION. Submission descriptors: fields, references, and the admission checks that need no unit's state (ch. 3, R78–R99, R112–R114, R756). -/

namespace Sys2Proof.Machine

/-! ### Fields of the header and parameter slot (R79, R97) -/

/-- Opcodes of the opcode table (R96). -/
inductive Opc where
  | nop | ingest | sample | gather | aggregate | dense | epilogue | loss | scatter | update | exchange
  | reduce | predict | copy | table | fence | commit | signal | control
  deriving DecidableEq, Repr

/-- The operation an OPCODE byte names (R96); 0x13–0xFF are reserved. -/
def opcOf : Nat → Option Opc
  | 0 => some .nop | 1 => some .ingest | 2 => some .sample | 3 => some .gather | 4 => some .aggregate | 5 => some .dense
  | 6 => some .epilogue | 7 => some .loss | 8 => some .scatter | 9 => some .update | 10 => some .exchange | 11 => some .reduce
  | 12 => some .predict | 13 => some .copy | 14 => some .table | 15 => some .fence | 16 => some .commit | 17 => some .signal
  | 18 => some .control
  | _ => none

def Desc.opcode (d : Desc) : Nat := dField d 0 1
def Desc.version (d : Desc) : Nat := dField d 1 1
def Desc.flags (d : Desc) : Nat := dField d 2 2
def Desc.flag (d : Desc) (i : Nat) : Bool := bitN d.flags i
def Desc.context (d : Desc) : Nat := dField d 4 2
def Desc.placeKind (d : Desc) : Nat := dField d 7 1 % 8
def Desc.placeIndex (d : Desc) : Nat := dField d 8 2
def Desc.depA (d : Desc) : Nat := dField d 10 2
def Desc.depB (d : Desc) : Nat := dField d 12 2
def Desc.tag (d : Desc) : Nat := dField d 16 8
def Desc.streamId (d : Desc) : Nat := dField d 24 4
def Desc.deadline (d : Desc) : Nat := dField d 28 2

/-- A field of the parameter slot F, by its byte offset within the slot (R97). -/
def Desc.param (d : Desc) (off n : Nat) : Nat := dField d (112 + off) n

/-- FUNCTION of TABLE and CONTROL, MODE of COPY: byte 0 of slot F. -/
def Desc.fn (d : Desc) : Nat := d.param 0 1

/-- Mode nibble of a hop of SAMPLE (R97). -/
def Desc.hopMode (d : Desc) (h : Nat) : Nat := bitsN (d.param 6 2) (4 * h) 4

/-- Fan-out of a hop of SAMPLE (R97). -/
def Desc.fanout (d : Desc) (h : Nat) : Nat := d.param (2 + h) 1

/-! ### References (R86–R93) -/

/-- A tensor reference (R86), with the offset of its slot. -/
structure Tensor where
  off : Nat
  addr : Nat
  rows : Nat
  fmt : Nat
  cols : Nat
  stride : Nat
  deriving DecidableEq, Repr, Inhabited

/-- The tensor reference in the slot at an offset (R86). -/
def Desc.tensor (d : Desc) (off : Nat) : Tensor :=
  ⟨off, dField d off 8, dField d (off + 8) 3, dField d (off + 11) 1, dField d (off + 12) 2, dField d (off + 14) 2⟩

/-- Bits of an element (R87); 0 for a reserved ELEMENT. -/
def elemBits : Nat → Nat
  | 0 => 32 | 1 => 16 | 2 => 16 | 3 => 8 | 4 => 8 | 5 => 8 | 6 => 4 | 7 => 32 | 8 => 64 | 9 => 8
  | _ => 0

def Tensor.elem (t : Tensor) : Nat := t.fmt % 16
def Tensor.scaled (t : Tensor) : Bool := bitN t.fmt 4
def Tensor.signed (t : Tensor) : Bool := bitN t.fmt 5
def Tensor.compressed (t : Tensor) : Bool := bitN t.fmt 6

/-- Row size in bytes (R89). -/
def Tensor.rowBytes (t : Tensor) : Nat := t.cols * elemBits t.elem / 8 + (if t.scaled then t.cols / 32 else 0)

/-- Distance between rows in bytes (R86, R89). -/
def Tensor.pitch (t : Tensor) : Nat := if t.stride = 0 then t.rowBytes else t.stride * 64

/-- The byte span of a tensor: for a compressed one the span of R331, else up to the last row's end. -/
def Tensor.span (t : Tensor) : Nat :=
  if t.compressed then
    let sc := if t.scaled then t.cols / 32 else 0
    64 + cdiv (8 * (t.rows + 1)) 64 * 64 + t.rows * (cdiv (8 + t.cols + cdiv (t.cols * elemBits t.elem) 8 + sc) 64 * 64)
  else (t.rows - 1) * t.pitch + t.rowBytes

/-- Whether a format code is valid under R88 for a reference, given whether its slot takes compressed tensors. -/
def Tensor.fmtOk (t : Tensor) (takesCompressed : Bool) : Bool :=
  decide (t.elem ≤ 9) &&
  (!t.scaled || (decide (3 ≤ t.elem) && decide (t.elem ≤ 6) && t.cols % 32 == 0)) &&
  (!t.signed || (decide (5 ≤ t.elem) && decide (t.elem ≤ 7))) &&
  (!t.compressed || (decide (1 ≤ t.elem) && decide (t.elem ≤ 6) && takesCompressed)) &&
  (t.elem != 6 || t.cols % 2 == 0)

/-- What a slot of an opcode holds (R96). -/
inductive Slot where
  /-- unused: all zero -/
  | unused
  /-- to be left out, with a status of its own where it is not (R271) -/
  | absent
  /-- a tensor; whether it is read, written, and may be compressed -/
  | tensor (rd wr comp : Bool)
  /-- present only when the slot is not all zero -/
  | optTensor (rd wr : Bool)
  | table
  | graph
  /-- a program, present only when the slot is not all zero for AGGREGATE -/
  | program (opt : Bool)
  /-- an address in bytes 0–7, the rest zero -/
  | addr
  | params
  deriving DecidableEq, Repr

/-- Whether some hop of a SAMPLE is typed (mode bit 3, R97). -/
def Desc.typed (d : Desc) : Bool :=
  (List.range (min (d.param 0 1) 4)).any (fun h => decide (8 ≤ d.hopMode h))

/-- The slots A to F of an operation (R96). -/
def Desc.slots (d : Desc) : Opc → List Slot
  | .nop => [.unused, .unused, .unused, .unused, .unused, .unused]
  | .ingest => [.tensor false true false, if d.flag 8 then .graph else .unused, .unused, .unused, .unused, .params]
  | .sample => [.graph, .tensor true false false, .tensor false true false, .unused, if d.typed then .addr else .unused, .params]
  | .gather => [.tensor true false false, .table, .tensor false true false, .unused, .unused, .params]
  | .aggregate => [.tensor true false false, .tensor true false true, .tensor false true false, .optTensor true false, .program true, .params]
  | .dense => [.tensor true false true, .tensor true false true, .tensor false true false,
      if d.flag 10 then .tensor true false false else .unused, if d.flag 11 then .tensor true false false else .unused, .params]
  | .epilogue => [.tensor true false true, .tensor false true false, .optTensor true false, .optTensor true false, .program false, .params]
  | .loss => [.tensor true false false, .tensor true false false, .tensor false true false, .tensor false true false, .unused, .params]
  | .scatter => [.tensor true false false, .table, .unused, .unused, .unused, .params]
  | .update => if d.flag 8 then [.table, .unused, .unused, .unused, .unused, .params]
      else [.tensor true true false, .tensor true false false, .optTensor true true, .optTensor true true, .unused, .params]
  | .exchange => [.tensor true false false, .tensor false true false, .unused, .unused, .unused, .params]
  | .reduce => [.tensor true false false, .tensor false true false, .unused, .unused, .unused, .params]
  | .predict => [.tensor true false true, .tensor true false false, .tensor true false false, .tensor false true false, .unused, .params]
  | .copy => [.tensor true false true, .tensor false true true, .optTensor false true, .unused, .unused, .params]
  | .table => [.table, if d.fn = 0 then .addr else if d.fn = 1 ∨ d.fn = 3 then .tensor true false false
        else if d.fn = 4 then .tensor false true false else .absent,
      if d.fn = 0 ∨ d.fn = 4 then .absent else .optTensor true false, .unused, .unused, .params]
  | .fence => [.unused, .unused, .unused, .unused, .unused, .params]
  | .commit => [.unused, .unused, .unused, .unused, .unused, .unused]
  | .signal => [.unused, .unused, .unused, .unused, .unused, .params]
  | .control => [if d.fn = 5 then .optTensor true false else .unused, .unused, .unused, .unused, .unused, .params]

/-- The raw 16 bytes of slot `i`. -/
def Desc.slotRaw (d : Desc) (i : Nat) : Nat := dField d (32 + 16 * i) 16

/-- The slots with their offsets. -/
def Desc.slotsAt (d : Desc) (o : Opc) : List (Nat × Slot) := (d.slots o).zipIdx.map (fun x => (32 + 16 * x.2, x.1))

/-- The tensor references that an operation really makes, with read and write. -/
def Desc.tensors (d : Desc) (o : Opc) : List (Tensor × Bool × Bool × Bool) :=
  (d.slotsAt o).filterMap (fun x => match x.2 with
    | .tensor r w c => some (d.tensor x.1, r, w, c)
    | .optTensor r w => if dField d x.1 16 = 0 then none else some (d.tensor x.1, r, w, false)
    | _ => none)

/-- The address fields of an operation, by offset (R91). ARG2 of CONTROL 0x02 is not among them: R758 handles whatever it holds (DESIGN CHOICE, log entry 70). -/
def Desc.addrFields (d : Desc) (o : Opc) : List Nat :=
  ((d.slotsAt o).filterMap (fun x => match x.2 with
    | .unused => none
    | .absent => none
    | .params => none
    | _ => some x.1)) ++
  (match o with | .update => [112] | .fence => [112] | .signal => [112] | _ => [])

/-! ### The checks (R84) -/

/-- A failed check: status and DETAIL. -/
abbrev Fail := Nat × Nat

/-- The order of a status in the table of R84. -/
def failOrder (st : Nat) : Nat :=
  if st ≤ 0x11 then st - 0x0F else if st ≤ 0x19 then st - 0x0F else if st = 0x25 then 9
  else if st ≤ 0x22 then st - 0x20 + 11 else 14

/-- The failure that R84 and R121 report: the earliest check, and in it the lowest offset. -/
def firstFail : List Fail → Option Fail
  | [] => none
  | f :: fs =>
    match firstFail fs with
    | none => some f
    | some g =>
      if failOrder g.1 < failOrder f.1 ∨ (failOrder g.1 = failOrder f.1 ∧ g.2 < f.2) then some g else some f

/-- One failure under a condition. -/
def failIf (c : Bool) (st detail : Nat) : List Fail := if c then [(st, detail)] else []

/-- Failures at the bytes of a run that must be zero: the lowest such byte (R121). -/
def reservedBytes (d : Desc) (off n : Nat) : List Fail :=
  match (List.range n).find? (fun i => dField d (off + i) 1 != 0) with
  | none => []
  | some i => [(0x12, off + i)]

/-- The assigned opcode flags (R98), as a mask of FLAGS. -/
def opfMask : Opc → Nat
  | .ingest => 0x100 | .sample => 0x100 | .aggregate => 0x100 | .dense => 0x1F00 | .epilogue => 0x1000
  | .scatter => 0x100 | .update => 0x100 | .fence => 0x100
  | _ => 0

/-- The bytes of slot F that the table of R97 names, for an opcode. -/
def paramBytes : Opc → List Nat
  | .ingest => [0, 1, 4, 5, 6, 7]
  | .sample => [0, 2, 3, 4, 5, 6, 7, 8, 9, 10, 11]
  | .gather => [0, 1, 2]
  | .aggregate => [0, 1]
  | .dense => List.range 12
  | .epilogue => List.range 8
  | .loss => [0, 4, 5, 6, 7]
  | .scatter => [0, 1, 2]
  | .update => List.range 9
  | .exchange => [0, 1, 2, 4, 5, 6, 7]
  | .reduce => [0, 1, 2, 3]
  | .predict => List.range 6
  | .copy => [0]
  | .table => [0, 2, 3]
  | .fence => List.range 13
  | .signal => List.range 15
  | .control => 0 :: (List.range 12).map (· + 4)
  | _ => []

/-- Check 3: reserved fields, reserved flags and unused slots (R7, R79, R91, R96–R98). DESIGN CHOICE (log entry 69): with PLACE_KIND 0 all of PLACE_INDEX is reserved, with an unassigned PLACE_KIND none of it is; a reserved opcode has no assigned opcode flag and no slot of its own. -/
def reservedFails (d : Desc) (o : Option Opc) : List Fail :=
  failIf (d.flags % 256 / 64 != 0) 0x12 2
  ++ failIf (d.flags / 256 &&& (0xFF - (o.map opfMask |>.getD 0) / 256) != 0) 0x12 3
  ++ failIf (d.context / 2 ^ 13 != 0) 0x12 5
  ++ reservedBytes d 6 1
  ++ failIf (dField d 7 1 / 8 != 0) 0x12 7
  ++ (let used := if d.placeKind = 1 then 7 else if d.placeKind = 2 then 10 else if d.placeKind = 3 then 14 else if d.placeKind = 0 then 0 else 16
      failIf (d.placeIndex / 2 ^ used != 0) 0x12 (if d.placeIndex / 2 ^ used * 2 ^ used % 256 != 0 then 8 else 9))
  ++ reservedBytes d 14 2 ++ reservedBytes d 30 2
  ++ (match o with
    | none => []
    | some o =>
      ((d.slotsAt o).flatMap (fun x => match x.2 with
        | .unused => failIf (dField d x.1 16 != 0) 0x12 x.1
        | .tensor .. => failIf (bitN (dField d (x.1 + 11) 1) 7) 0x12 (x.1 + 11)
        | .optTensor .. => failIf (bitN (dField d (x.1 + 11) 1) 7) 0x12 (x.1 + 11)
        | .graph => reservedBytes d (x.1 + 12) 4
        | .program _ => reservedBytes d (x.1 + 10) 6
        | .addr => reservedBytes d (x.1 + 8) 8
        | .table => []
        | .absent => []
        | .params =>
          ((List.range 16).filter (fun i => i ∉ paramBytes o)).flatMap (fun i => reservedBytes d (112 + i) 1)))
      ++ (d.addrFields o).flatMap (fun a => failIf (dField d (a + 7) 1 % 16 != 0) 0x12 (a + 7))
      ++ (match o with
        | .gather => failIf (d.param 2 1 / 32 != 0) 0x12 114
        | _ => []))

/-- Check 4: opcode and every other code field (R756). -/
def codeFails (d : Desc) (o : Option Opc) : List Fail :=
  failIf (d.placeKind ≥ 4) 0x13 7 ++
  (match o with
  | none => [(0x13, 0)]
  | some .aggregate => failIf (d.param 0 1 > 3) 0x13 112
  | some .loss => failIf (d.param 0 1 > 3) 0x13 112
  | some .sample => (List.range (min (d.param 0 1) 4)).flatMap (fun h => failIf (d.hopMode h % 8 > 3) 0x13 (118 + h / 2))
  | some .update => failIf (d.param 8 1 > 4) 0x13 120
  | some .exchange => failIf (d.param 2 1 > 1) 0x13 114
  | some .reduce => failIf (d.param 2 1 > 2) 0x13 114
  | some .copy => failIf (d.fn > 3) 0x13 112
  | some .table => failIf (d.fn > 4) 0x13 112
  | some .control => failIf (d.fn = 0 || d.fn > 6) 0x13 112
  | some .fence => failIf (d.param 12 1 > 2) 0x13 124
  | some .signal => failIf (d.param 12 1 > 2) 0x13 124
  | some _ => [])

/-- Check 5: format codes of references, the element kinds that the operand slot table names, and TRANSIT_FORMAT (R88, R96, R192). -/
def formatFails (d : Desc) (o : Opc) : List Fail :=
  ((d.tensors o).flatMap (fun x => failIf (!x.1.fmtOk x.2.2.2) 0x14 (x.1.off + 11)))
  ++ (match o with
    | .sample => failIf ((d.tensor 48).fmt != 8) 0x14 59 ++ failIf ((d.tensor 64).fmt != 9) 0x14 75
    | .aggregate => failIf ((d.tensor 32).fmt != 9) 0x14 43
    | .loss => failIf ((d.tensor 64).fmt != 0) 0x14 75
    | .copy => failIf (d.fn == 3 && d.slotRaw 2 != 0 && (d.tensor 64).fmt != 7) 0x14 75
    | .scatter => failIf (d.param 2 1 > 1) 0x14 114
    | .reduce => failIf (d.param 3 1 > 1) 0x14 115
    | _ => [])

/-- The largest node count of a seed (R99). -/
def Desc.nodesPerSeed (d : Desc) : Nat :=
  let f := fun h => if h < d.param 0 1 then d.fanout h else 0
  1 + f 0 + f 0 * f 1 + f 0 * f 1 * f 2 + f 0 * f 1 * f 2 * f 3

/-- Check 6 as far as ch. 3 goes: counts, strides and parameters (R86, R89, R90, R97, R99, R163, R589, R758). -/
def limitFails (d : Desc) (o : Opc) : List Fail :=
  ((d.tensors o).flatMap (fun x =>
    let t := x.1
    failIf (t.rows = 0) 0x15 (t.off + 8) ++ failIf (t.cols = 0) 0x15 (t.off + 12) ++
    failIf (t.compressed && t.stride != 0) 0x15 (t.off + 14) ++
    failIf (!t.compressed && t.stride != 0 && decide (t.stride * 64 < t.rowBytes)) 0x15 (t.off + 14)))
  ++ (match o with
    | .ingest => failIf (d.param 4 4 < 64 || d.param 4 4 % 64 != 0) 0x15 116 ++ failIf (d.param 0 1 / 4 != 0) 0x15 112
    | .sample =>
      let hops := d.param 0 1
      failIf (hops = 0 || hops > 4) 0x15 112
      ++ failIf ((List.range 4).any (fun h => if h < hops then d.fanout h = 0 || d.fanout h > 64 else d.fanout h != 0)) 0x15 114
      ++ (List.range 4).flatMap (fun h => failIf (hops ≤ h && d.hopMode h != 0) 0x15 (118 + h / 2))
      ++ failIf ((d.tensor 48).rows * (d.tensor 48).cols * d.nodesPerSeed > 2 ^ 32 - 1) 0x15 114
      ++ failIf (d.typed && dField d 96 8 = 0) 0x15 96
      ++ failIf (!(List.range (min hops 4)).any (fun h => d.hopMode h % 8 = 3) && d.param 8 4 != 0) 0x15 120
      ++ failIf ((List.range (min hops 4)).any (fun h => d.hopMode h % 8 = 3) && d.param 8 4 = 0) 0x15 120
    | .gather => failIf (d.param 2 1 % 32 = 0) 0x15 114
    | .aggregate =>
      failIf (d.param 1 1 > 3) 0x15 113
      ++ failIf ((d.param 0 1 = 3) != (d.slotRaw 3 != 0)) 0x15 80
    | .update => failIf (d.param 8 1 = 3 && !d.flag 8) 0x15 120
    | .exchange => failIf (d.param 0 2 = 0 || d.param 0 2 > 4095) 0x15 112
      ++ failIf (d.param 4 4 = 0 || d.param 4 4 > (d.tensor 32).rows) 0x15 116
    | .reduce => failIf (d.param 0 2 = 0 || d.param 0 2 > 4095) 0x15 112
    | .predict => failIf (d.param 4 2 = 0 || d.param 4 2 > 1000) 0x15 116
    | .copy => failIf ((d.fn = 3) != (d.slotRaw 2 != 0)) 0x15 64
    | .signal => failIf (d.param 12 1 = 2 && d.param 0 8 != 0) 0x15 112
    | _ => [])

/-- Whether an opcode permits FILLER (R100). -/
def fillerOk : Opc → Bool
  | .aggregate | .dense | .epilogue | .predict | .loss | .copy => true
  | _ => false

/-- Whether RELAXED is accepted (R114). -/
def relaxedOk : Opc → Bool
  | .copy | .signal => true
  | _ => false

/-- Check 9 as far as R112 and R114 go. -/
def flagRuleFails (d : Desc) (o : Opc) : List Fail :=
  failIf (d.flag 1 && !fillerOk o) 0x18 2 ++ failIf (d.flag 2 && !relaxedOk o) 0x18 2

/-- Check 10: address space codes (R91). -/
def spaceFails (d : Desc) (o : Opc) : List Fail :=
  (d.addrFields o).flatMap (fun a => failIf (dField d (a + 7) 1 / 16 ≥ 5) 0x19 (a + 7))

/-- Whether the reef map withholds a region: it failed, or its die did (R681, R683). -/
def State.withheldRegion (s : State) (r : Nat) : Bool :=
  decide (r ∈ s.boot.withheld) || decide (nthD s.boot.dieStat (r / 16) 0 ∈ [1, 2])

/-- Whether a region belongs to a partition in service and the reef map does not withhold it (R82). -/
def State.regionIn (s : State) (p r : Nat) : Bool :=
  decide (r < 128) && s.fld (.schRegState r) F.schRegState_PARTITION == p && !s.withheldRegion r

/-- Check 7: placement (R24, R82). -/
def State.placeFails (s : State) (p : Nat) (d : Desc) : List Fail :=
  let k := d.placeKind
  let i := d.placeIndex
  failIf (s.bit (.hstPartCtrl p) F.hstPartCtrl_VIEW && (k = 2 || k = 3)) 0x16 7
  ++ failIf (k = 1 && !s.regionIn p i) 0x16 8
  ++ failIf (k = 2 && !s.regionIn p (i / 8)) 0x16 8
  ++ failIf (k = 3 && !s.regionIn p (i / 128)) 0x16 8

/-- Check 8: dependency distances (R103). -/
def depFails (x : Ctx) (d : Desc) : List Fail :=
  failIf (d.depA ≥ 2 ^ x.sqLog2) 0x17 10 ++ failIf (d.depB ≥ 2 ^ x.sqLog2) 0x17 12

/-! ### Access checks (R80, R92, R390, R577, R579) -/

/-- Whether a package can be reached for the admission check: this one, or one whose route entry enables a strait (R84, R522). -/
def State.reachable (s : State) (p : Nat) : Bool :=
  s.isOwn p || s.bit (.rasRoute p) F.rasRoute_P_EN || s.bit (.rasRoute p) F.rasRoute_A1_EN || s.bit (.rasRoute p) F.rasRoute_A2_EN

/-- The access check of one range of a context: status 0x20, 0x21 or 0x22, or none (R92, R390, R574, R577, R579). DESIGN CHOICE (log entry 71): the package ID of a space 2 or 3 address names nothing and is not checked. -/
def State.rangeFail (s : State) (x : Ctx) (a n : Nat) (rd wr : Bool) : Option Nat :=
  let sp := spaceOf a
  if sp = 2 then
    if (s.translateAll (s.fnOf x.id) (s.pasidOf x.id) wr (pagesOf a n)).1 then none else some 0x21
  else if sp = 3 then
    if bitN (s.fld (.ctxCtrl x.id) F.ctxCtrl_FLASH) (offOf a / 2 ^ 42) then none else some 0x20
  else if s.isOwn (pkgOf a) then
    let lsp := if sp = 4 then offOf a / 2 ^ 43 else sp
    let off := if sp = 4 then offOf a % 2 ^ 43 else offOf a
    if s.exists_ lsp off n ∧ segCovers x.segs lsp off n (fun g => (!rd || g.r) && (!wr || g.w)) then none else some 0x20
  else if s.reachable (pkgOf a) then none else some 0x22

/-- Checks 11 to 13 over the tensor references and the program (R92, R574). -/
def State.accessFails (s : State) (x : Ctx) (d : Desc) (o : Opc) : List Fail :=
  failIf (d.context % 2 ^ 13 != x.id) 0x20 4
  ++ (d.tensors o).flatMap (fun t =>
      let rw := t.2.2.1 && d.flag 0
      match s.rangeFail x t.1.addr t.1.span (t.2.1 || rw) t.2.2.1 with
      | none => []
      | some st => [(st, t.1.off)])
  ++ (d.slotsAt o).flatMap (fun y => match y.2 with
      | .program opt =>
        if opt && dField d y.1 16 = 0 then []
        else match s.rangeFail x (dField d y.1 8) (4 * dField d (y.1 + 8) 2) true false with
          | none => []
          | some st => [(st, y.1)]
      | .addr =>
        if o = .sample then match s.rangeFail x (dField d y.1 8) 64 true false with
          | none => []
          | some st => [(st, y.1)]
        else []
      | _ => [])

/-- The translations that admission asks for, as a change of the cache and its counts (R579). -/
def State.translateDesc (s : State) (x : Ctx) (d : Desc) (o : Opc) : State :=
  s.each (d.tensors o) (fun s t =>
    if spaceOf t.1.addr = 2 then (s.translateAll (s.fnOf x.id) (s.pasidOf x.id) t.2.2.1 (pagesOf t.1.addr t.1.span)).2 else s)

/-! ### Classes and phases (R100) -/

/-- Primary operations run one at a time per partition (R100, R101). -/
def primary : Opc → Bool
  | .sample | .gather | .aggregate | .scatter | .dense | .epilogue | .predict | .loss | .update | .exchange | .reduce => true
  | _ => false

/-- Whether an operation is primary. -/
def Op.isPrimary (o : Op) : Bool := match opcOf o.opcode with | some c => primary c | none => false

/-- The phase in which an operation runs (R100): 1 intake, 2 work, 3 reduce, 4 commit; secondary ones of any phase give 2. -/
def opPhase (d : Desc) : Opc → Nat
  | .nop => 1
  | .ingest => 2
  | .update => if d.flag 8 then 2 else 4
  | .reduce => 3
  | .commit => 4
  | .fence | .signal | .control => 4
  | _ => 2

/-- AUX of an operation that has found nothing to report: all ones in the field that names the first invalid index or non-finite tile (R122). -/
def auxInit : Opc → Nat
  | .gather => 2 ^ 40 - 1
  | .aggregate | .dense | .epilogue | .loss => 2 ^ 32 - 1
  | _ => 0

/-- AUX of an operation before it has anything to report (R122). -/
def Op.aux0 (o : Op) : Nat := (opcOf (dField o.desc 0 1)).elim 0 auxInit

/-- Whether a descriptor is a CONTROL of the buffer pool (R758). -/
def Desc.poolControl (d : Desc) : Bool := opcOf d.opcode == some .control && (d.fn == 1 || d.fn == 2)

/-- Outputs always guarded (R100, R111). -/
def alwaysGuarded : Opc → Bool
  | .loss | .update => true
  | _ => false

/-- The output ranges of a descriptor, (address, bytes) (R107). -/
def Desc.outRanges (d : Desc) (o : Opc) : List (Nat × Nat) :=
  (d.tensors o).filterMap (fun t => if t.2.2.1 then some (t.1.addr, t.1.span) else none)

/-- The input ranges of a descriptor (R107). -/
def Desc.inRanges (d : Desc) (o : Opc) : List (Nat × Nat) :=
  (d.tensors o).filterMap (fun t => if t.2.1 then some (t.1.addr, t.1.span) else none)

end Sys2Proof.Machine
end

