-- ==== Sys2Proof/Machine/Memory.lean ====
section
/-! DEFINITION. HBM upkeep: the controller code, scrub, map-out, fences, bandwidth regulators and BAR4 (ch. 11; R564, R565). -/

namespace Sys2Proof.Machine

/-! ### The controller code, and errors of bursts (R398, R400, R401, R405, R406) -/

/-- The package channel of a burst (key / 64) of space 0. -/
def State.burstCh (s : State) (b : Nat) : Nat := s.channelOf (64 * b)

/-- The package channel and the row where a burst of space 0 lies (R394). -/
def State.burstPlace (s : State) (b : Nat) : Nat × Nat :=
  let l := hbmLocate s.hbm.mapped (64 * b)
  (64 * l.1 + l.2.1, l.2.2 / 2048)

/-- The check bits that lie beside a burst: the code of its bytes, channel and row (R398). -/
def State.checkBits (s : State) (b : Nat) : BitVec 32 := Config.burstCode (s.kRd (64 * b) 64) (s.burstPlace b).1 (s.burstPlace b).2

/-- What the code says of a burst that was read: nothing wrong, one symbol corrected, or uncorrectable, which contents of another place are in every case. -/
inductive CodeFinds where
  | clean | corrected | uncorrectable
  deriving DecidableEq, Repr

/-- The verdict of an SRAM die's SEC-DED code, which covers every 8 bytes: it corrects one bit of a word of 72 and detects two (ch. 11, The SRAM window). -/
def sramFinds (bits : List Nat) : CodeFinds :=
  let b := bits.eraseDups
  if b.isEmpty then .clean
  else if b.any (fun i => decide (2 ≤ b.countP (fun j => j / 72 == i / 72))) then .uncorrectable else .corrected

/-- The verdict of the code on a read: it corrects one erroneous 8-bit symbol and detects two, and a burst that comes from the wrong place; three or more count as detected (R398; log entry 86). -/
def State.codeFinds (s : State) (e : BurstErr) : CodeFinds :=
  if 2 ^ 44 ≤ 64 * e.burst then sramFinds e.symbols
  else if e.from_.any (fun p => p ≠ s.burstPlace e.burst) then .uncorrectable
  else match e.symbols.eraseDups.length with
    | 0 => .clean
    | 1 => .corrected
    | _ => .uncorrectable

/-- A burst is corrected: the channel counts it, or the SRAM (R400, R405). -/
def State.corrected (s : State) (b : Nat) : State :=
  if 2 ^ 44 ≤ 64 * b then { s with hbm := { s.hbm with sramCe := s.hbm.sramCe + 1 } }
  else
  let c := s.burstCh b
  let s := s.satFld (.hbmErrCnt c) F.hbmErrCnt_CORRECTED 1
  { s with hbm := { s.hbm with ceCount := smod c 0 (· + 1) s.hbm.ceCount } }

/-- Note an uncorrectable row of a channel; two different rows within 10 s make it a candidate for immediate map-out (R406). -/
def State.noteErrRow (s : State) (c row : Nat) : State :=
  let hit := match sget c s.hbm.errRow with
    | some (r, t) => decide (r ≠ row) && decide (s.frm.now ≤ t + 10000000000)
    | none => false
  { s with hbm := { s.hbm with
      errRow := sput c (row, s.frm.now) s.hbm.errRow,
      cand := if hit then insertNew (c, true) s.hbm.cand else s.hbm.cand } }

/-- A burst is found uncorrectable: it is counted, written back with the poison code and logged (R401). -/
def State.uncorrectable (s : State) (b : Nat) : State :=
  let s := { s with poison := insertNew b s.poison }
  if 64 * b < 2 ^ 44 then
    let l := hbmLocate s.hbm.mapped (64 * b)
    let c := 64 * l.1 + l.2.1
    let s := s.satFld (.hbmErrCnt c) F.hbmErrCnt_UNCORRECTED 1
    let s := s.eventW 0x0301 (136 + c) none none (l.2.2 / 2048) 0
    s.noteErrRow c (l.2.2 / 2048)
  else s

/-- A controller has read a burst: it is left, corrected, or found uncorrectable (R398, R400, R401). -/
def State.codeApply (s : State) (e : BurstErr) : State :=
  match s.codeFinds e with
  | .clean => s
  | .corrected => s.corrected e.burst
  | .uncorrectable => s.uncorrectable e.burst

/-- SCRUB: one pass of a stack reads every written line; each burst found erroneous is corrected or found uncorrectable, in ascending package channel and row order, and their write-backs lose to foreground writes (R398, R402–R404). -/
def scrub (stack : Nat) (errs : List BurstErr) (at_ : Nat) (s : State) : State :=
  let s := s.reach at_
  let key := fun (e : BurstErr) => let p := s.burstPlace e.burst; (p.1 * 786432 + p.2) * 32 + e.burst % 32
  let mine := (errs.filter (fun e => decide (64 * e.burst < 2 ^ 44) && s.burstCh e.burst / 32 == stack)).foldl (fun m e => sput (key e) e m) []
  let s := s.each mine (fun s x => s.codeApply x.2)
  s.satFld .memScrubStatus F.memScrubStatus_PASSES 1

/-- BOUNDED_SLOT: a background activity at risk of its floor takes one slot of at most 2 µs, at most once in 20 µs on its unit (R403, R449). -/
def boundedSlot (activity src at_ : Nat) (s : State) : State :=
  let s := s.reach at_
  match s.hbm.slots.find? (fun x => x.1 == activity && x.2.1 == src) with
  | some x =>
    if s.frm.now < x.2.2.1 + 20000 then s
    else
      let s := if activity = 0 then s.satFld .memScrubStatus F.memScrubStatus_STARVED 1 else s
      { s with hbm := { s.hbm with slots := s.hbm.slots.map (fun y =>
          if y.1 = activity ∧ y.2.1 = src then (activity, src, s.frm.now, y.2.2.2 + 1) else y) } }
  | none =>
    let s := if activity = 0 then s.satFld .memScrubStatus F.memScrubStatus_STARVED 1 else s
    { s with hbm := { s.hbm with slots := s.hbm.slots ++ [(activity, src, s.frm.now, 1)] } }

/-- One event for each unit that took bounded slots in the frame that ends (R449). -/
def State.slotEvents (s : State) : State :=
  let l := s.hbm.slots
  let s := s.each (l.filter (fun x => x.2.2.2 ≠ 0)) (fun s x => s.eventW 0x0202 x.2.1 none none x.1 x.2.2.2)
  { s with hbm := { s.hbm with slots := (l.map (fun x => (x.1, x.2.1, x.2.2.1, 0))).filter (fun x => decide (s.frm.now < x.2.2.1 + 20000)) } }

/-- CE_WINDOW_END: a 3,600 s window of a channel ends (R405). -/
def ceWindowEnd (c : Nat) (s : State) : State :=
  let th := s.fld .memCtrl F.memCtrl_CE_THRESH
  let past := th ≠ 0 ∧ th < sgetD c 0 s.hbm.ceCount
  { s with hbm := { s.hbm with
      ceCount := sdel c s.hbm.ceCount,
      cand := if past then insertNew (c, false) s.hbm.cand else s.hbm.cand } }

/-! ### Map-out and fences (R393, R407–R413, R417) -/

/-- CAPACITY of a stack: 937 less for each channel mapped out or fenced (R417). -/
def State.stackCapacity (s : State) (k : Nat) : Nat :=
  let lost := (List.range 32).countP (fun i =>
    let c := 32 * k + i
    decide (c ∈ s.hbm.fenced) || decide (c % 64 ∈ nthD s.hbm.mapped (c / 64) []))
  30000 - 937 * lost

/-- The sum of RATE over a stack's buckets (R416). -/
def State.rateSum (s : State) (k : Nat) : Nat :=
  sumN ((List.range 65).map (fun b => s.fld (.hbmReg k b) F.hbmReg_RATE))

/-- Bring HBM_REG_STATUS of a stack up to date (R416, R417). -/
def State.stackStatus (s : State) (k : Nat) : State :=
  let s := s.setFld (.hbmRegStatus k) F.hbmRegStatus_CAPACITY (s.stackCapacity k)
  s.setFld (.hbmRegStatus k) F.hbmRegStatus_OVERCOMMIT (if s.stackCapacity k < s.rateSum k then 1 else 0)

/-- Whether R408 lets a die map a channel out in service. -/
def State.mapoutOk (s : State) (d : Nat) : Bool :=
  (nthD s.hbm.mapped d []).isEmpty && s.bit .memCtrl F.memCtrl_RESERVE && s.hbm.copy.isNone && s.hbm.ready.isNone

/-- Bring MEM_DIE_STATUS (nothing is usable of a die that failed, R668), MEM_CH_MAPPED and MEM_CH_FENCED of a die up to date (R393, R413). -/
def State.dieStatus (s : State) (d : Nat) : State :=
  let m := nthD s.hbm.mapped d []
  let f := (s.hbm.fenced.filter (fun c => c / 64 == d)).map (· % 64)
  let s := s.setFld (.memDieStatus d) F.memDieStatus_MAPPED m.length
  let s := s.setFld (.memDieStatus d) F.memDieStatus_RESERVE_FREE (if s.mapoutOk d then 1 else 0)
  let s := s.setFld (.memDieStatus d) F.memDieStatus_FENCED f.length
  let s := s.setFld (.memDieStatus d) F.memDieStatus_USABLE_MIB
    (if nthD s.boot.dieStat d 0 = 1 ∨ nthD s.boot.dieStat d 0 = 2 then 0 else 98304 - 1536 * m.length)
  let s := s.setReg (.memChMapped d) (BitVec.ofNat 64 (sumN (m.map (fun i => 2 ^ i))))
  let s := s.setReg (.memChFenced d) (BitVec.ofNat 64 (sumN (f.map (fun i => 2 ^ i))))
  (s.stackStatus (2 * d)).stackStatus (2 * d + 1)

/-- Fence a channel until the next reset of its die (R408, R412). -/
def State.fence (s : State) (c : Nat) : State :=
  let s := { s with hbm := { s.hbm with fenced := insertNew c s.hbm.fenced, cand := s.hbm.cand.filter (fun x => x.1 ≠ c) } }
  (s.dieStatus (c / 64)).eventW 0x0303 (128 + c / 64) none none c 0

/-- Apply the layout with one more channel mapped out (R394, R409, R410, R413). -/
def State.mapOut (s : State) (c : Nat) (immediate : Bool) : State :=
  let d := c / 64
  let s := { s with hbm := { s.hbm with
    mapped := s.hbm.mapped.set d (nthD s.hbm.mapped d [] ++ [c % 64]),
    cand := s.hbm.cand.filter (fun x => x.1 ≠ c), copy := none, ready := none } }
  let s := s.dieStatus d
  let s := s.setFld .memMapout F.memMapout_CHANNEL c
  let s := s.setFld .memMapout F.memMapout_ACTIVE 0
  let s := s.setFld .memMapout F.memMapout_IMMEDIATE (if immediate then 1 else 0)
  let s := s.setFld .memMapout F.memMapout_LINES_LEFT 0
  s.eventW 0x0302 (128 + d) none none c ((if immediate then 1 else 0) + s.fld (.memDieStatus d) F.memDieStatus_USABLE_MIB * 2 ^ 32)

/-- Lines that a planned map-out copies (R394 with k = 1). -/
def copyLines : Nat := 774144

/-- PLANNED_MAPOUT: a candidate's lines are copied in background, `lines` of them in this command; a candidate that cannot be mapped out is fenced (R408, R409). -/
def plannedMapout (c lines : Nat) (s : State) : State :=
  match s.hbm.copy with
  | some (k, n) =>
    if k = c then
      let n' := min (n + lines) copyLines
      let s := s.setFld .memMapout F.memMapout_LINES_LEFT (copyLines - n')
      if n' = copyLines then
        { s with hbm := { s.hbm with copy := none, ready := some c } }
      else { s with hbm := { s.hbm with copy := some (c, n') } }
    else if (c, false) ∈ s.hbm.cand then s.fence c else s
  | none =>
    if (c, false) ∈ s.hbm.cand then
      if s.mapoutOk (c / 64) then
        let n' := min lines copyLines
        let s := s.setFld .memMapout F.memMapout_CHANNEL c
        let s := s.setFld .memMapout F.memMapout_ACTIVE 1
        let s := s.setFld .memMapout F.memMapout_IMMEDIATE 0
        let s := s.setFld .memMapout F.memMapout_LINES_LEFT (copyLines - n')
        let s := { s with hbm := { s.hbm with
          copy := if n' = copyLines then none else some (c, n'),
          ready := if n' = copyLines then some c else none } }
        s.each (List.range 8) State.dieStatus
      else s.fence c
    else s

/-- At the first tick after the copy ends, the new layout and capacity apply (R409). -/
def State.mapoutTick (s : State) : State :=
  match s.hbm.ready with
  | none => s
  | some c => (s.mapOut c false).each (List.range 8) State.dieStatus

/-- The memory side of an immediate map-out: the layout at once, and lines without a copy poisoned (R410). -/
def State.mapOutNow (s : State) (c : Nat) : State :=
  let done := match s.hbm.copy with
    | some (k, n) => if k = c then n else 0
    | none => if s.hbm.ready = some c then copyLines else 0
  let s := { s with hbm := { s.hbm with lost := s.hbm.lost ++ [LostCh.mk c done []] } }
  s.mapOut c true

/-- A reset of a die applies pending map-outs and zeroes its range (R408, R411, R412). -/
def State.rebuildDie (s : State) (d : Nat) : State :=
  let mine := s.hbm.fenced.filter (fun c => c / 64 == d)
  let m := (nthD s.hbm.mapped d [] ++ mine.map (· % 64)).take 8
  let inDie := fun k => decide (k < 2 ^ 44) && k / dieRange == d
  let s := { s with
    mem := s.mem.filter (fun c => !inDie c.1)
    poison := s.poison.filter (fun p => !inDie (64 * p))
    hbm := { s.hbm with
      mapped := s.hbm.mapped.set d m
      fenced := s.hbm.fenced.filter (fun c => !(c / 64 == d && decide (c % 64 ∈ m)))
      cand := s.hbm.cand.filter (fun x => x.1 / 64 ≠ d)
      lost := s.hbm.lost.filter (fun l => l.ch / 64 ≠ d)
      copy := match s.hbm.copy with | some (k, n) => if k / 64 = d then none else some (k, n) | none => none
      ready := match s.hbm.ready with | some k => if k / 64 = d then none else some k | none => none } }
  s.dieStatus d

/-! ### Bandwidth regulators (R414) -/

/-- TOKEN_REFILL: at the 1 µs tick written HBM_REG values take effect, counts are cut to DEPTH, and every bucket receives RATE tokens up to DEPTH (R414, R416, R419). -/
def State.refillTokens (s : State) : State :=
  let all := s.hbm.tokens.map (fun t => (t.1, (0, 0)))
  let add : List (Nat × Nat × Nat) := s.regs.filterMap (fun kv =>
    if 0x70000 ≤ kv.1 ∧ kv.1 < 0x74000
    then some ((kv.1 - 0x70000) / 0x400 * 128 + (kv.1 - 0x70000) % 0x400 / 8, (F.hbmReg_RATE.get kv.2, F.hbmReg_DEPTH.get kv.2))
    else none)
  let add := add ++ all.filter (fun t => !add.any (fun x => x.1 == t.1))
  let s := { s with hbm := { s.hbm with tokens := add.foldl (fun t (x : Nat × Nat × Nat) => smod x.1 0 (fun n => min (n + x.2.1) x.2.2) t) s.hbm.tokens } }
  s.each ((add.map (fun (x : Nat × Nat × Nat) => x.1 / 128)).eraseDups) State.stackStatus

/-- A served request takes one token per burst from a bucket (R414). -/
def State.takeTokens (s : State) (bucket k n : Nat) : State :=
  if k < 2 ^ 44 ∧ ¬ s.hbm.tokens.isEmpty then
    s.each (burstsOf k n) (fun s b =>
      { s with hbm := { s.hbm with tokens := smod (128 * (s.burstCh b / 32) + bucket) 0 (fun n => n - 1) s.hbm.tokens } })
  else s

/-! ### BAR4 (R564, R565) -/

/-- BAR4_READ: device memory, or zero for an unusable offset, which is counted (R564). -/
def bar4Read (off n : Nat) (s : State) : State :=
  match s.bar4 off n with
  | none => (s.satFld .hstErr F.hstErr_BAR4_MISS 1).emit (.bar4Data off (List.replicate n 0))
  | some k => (s.takeTokens 64 k n).emit (.bar4Data off (s.kRd k n))

end Sys2Proof.Machine
end

