-- ==== Sys2Proof/Machine/Caches.lean ====
section
/-! DEFINITION. Where an address leads, the operand ranges of a task, and the L0 read caches of the cores (R389, R390, R395, R396). -/

namespace Sys2Proof.Machine

/-! ### Where an address leads -/

/-- The space 4 form of an address of another package, 44 bits (R389, R499). -/
def remoteOff (a : Nat) : Nat := if spaceOf a = 4 then offOf a else spaceOf a % 2 * 2 ^ 43 + offOf a % 2 ^ 43

/-- The key in this package's memory that a space 4 offset names (R389). -/
def remoteKey (off : Nat) : Nat := off / 2 ^ 43 % 2 * 2 ^ 60 + off % 2 ^ 43

/-- Where an address leads, seen from this package: 0 local memory, 1 host memory of this package, 2 flash of this package, 3 another package (R175, R389, R390). Only spaces 0, 1 and 4 name a package (log entry 71). -/
def State.place (s : State) (a : Nat) : Nat :=
  if spaceOf a = 2 then 1 else if spaceOf a = 3 then 2 else if !s.isOwn (pkgOf a) then 3 else 0

/-- Key of local memory for an address of space 0, 1 or 4 of this package (R389, R390). -/
def localKey (a : Nat) : Nat := if spaceOf a = 4 then remoteKey (offOf a) else memKey a

/-- Key of an address of this package's memory or host, as a context reaches it. -/
def State.keyOf (s : State) (ctx a : Nat) : Nat :=
  if spaceOf a = 2 then hostKey (s.fnOf ctx) (s.pasidOf ctx) a else localKey a

/-- One number for all addresses that reach the same byte, as a context sees it: the space 0 or 1 form here, the space 4 form elsewhere (R390), host memory by function and PASID (R578). -/
def State.canon (s : State) (ctx a : Nat) : Nat :=
  match s.place a with
  | 0 => let k := localKey a; mkAddr (k / 2 ^ 60) 0 (k % 2 ^ 60)
  | 1 => 2 ^ 64 + hostKey (s.fnOf ctx) (s.pasidOf ctx) a
  | 2 => mkAddr 3 0 (offOf a)
  | _ => mkAddr 4 (pkgOf a) (remoteOff a)

/-- The piece that covers a run of bytes, if one was fetched. -/
def fetchedAt (l : List (Nat × List Byte)) (a n : Nat) : Option (List Byte) :=
  match l.find? (fun p => decide (p.1 ≤ a) && decide (a + n ≤ p.1 + p.2.length)) with
  | some p => some ((p.2.drop (a - p.1)).take n)
  | none => none

/-! ### The operand ranges of a task (R301, R304, R306, R420) -/

/-- The summation shapes (R301, R302). -/
inductive Shape where
  | g | e | p | s
  deriving DecidableEq, Repr

def isInt (elem : Nat) : Bool := elem == 5 || elem == 6

/-- The shape of an operand pair (R301). -/
def shapeOf (x w : Tensor) : Shape :=
  if isInt x.elem && isInt w.elem then (if x.scaled || w.scaled then .g else .e)
  else
    let rank := fun (e : Nat) => if e = 0 then 2 else if e ≤ 2 then 1 else 0
    match max (rank x.elem) (rank w.elem) with
    | 0 => .g
    | 1 => .p
    | _ => .s

/-- Tile rows of a shape (R304). -/
def Shape.tileRows : Shape → Nat
  | .g => 16
  | .e => 16
  | .p => 8
  | .s => 2

/-- What is left of `n` items for part `i` of parts of `k` items. -/
def partLen (n k i : Nat) : Nat := min k (n - k * i)

/-- The rows and columns of output tile `i` (R304). -/
def tileDims (rows cols tr i : Nat) : Nat × Nat :=
  let tpr := max 1 (cdiv cols 16)
  (partLen rows tr (i / tpr), partLen cols 16 (i % tpr))

/-- The bytes of a block of a tensor: `n` rows from `r`, `m` columns from `c`, with the scale bytes of those columns; of a compressed tensor all of it (R86, R89, R275). -/
def Tensor.block (t : Tensor) (r n c m : Nat) : List (Nat × Nat) :=
  if t.compressed then [(t.addr, t.span)]
  else
    let lo := c * elemBits t.elem / 8
    let hi := cdiv ((c + m) * elemBits t.elem) 8
    (List.range n).flatMap (fun i =>
      let a := t.addr + (r + i) * t.pitch
      (a + lo, hi - lo) :: (if t.scaled then [(a + t.cols * elemBits t.elem / 8 + c / 32, cdiv (c + m) 32 - c / 32)] else []))

/-- The operand bytes that task `i` of a matrix-engine or vector-unit operation reads; none for other operations. An AGGREGATE task takes an equal share of the input rows (R304, R305, R315, R420; log entry 85). -/
def taskReads (d : Desc) (o : Opc) (i : Nat) : List (Nat × Nat) :=
  match o with
  | .dense =>
    let x := d.tensor 32
    let w := d.tensor 48
    let y := d.tensor 64
    let tr := (shapeOf x w).tileRows
    let t := tileDims y.rows y.cols tr i
    let r := i / max 1 (cdiv y.cols 16) * tr
    let c := i % max 1 (cdiv y.cols 16) * 16
    (if d.flag 8 then x.block 0 x.rows r t.1 else x.block r t.1 0 x.cols)
      ++ (if d.flag 9 then w.block 0 w.rows c t.2 else w.block c t.2 0 w.cols)
      ++ (if d.flag 10 then (d.tensor 80).block r t.1 c t.2 else [])
      ++ (if d.flag 11 then (d.tensor 96).block 0 1 c t.2 else [])
  | .epilogue =>
    let y := d.tensor 48
    let t := tileDims y.rows y.cols 16 i
    let r := i / max 1 (cdiv y.cols 16) * 16
    let c := i % max 1 (cdiv y.cols 16) * 16
    let aux := fun (off : Nat) (present : Bool) =>
      let a := d.tensor off
      if present then a.block (if a.rows = 1 then 0 else r) (if a.rows = 1 then min 1 t.1 else t.1) (if a.cols = 1 then 0 else c) (if a.cols = 1 then min 1 t.2 else t.2)
      else []
    (d.tensor 32).block r t.1 c t.2 ++ aux 64 (d.slotRaw 2 != 0) ++ aux 80 (d.slotRaw 3 != 0)
  | .loss =>
    let x := d.tensor 32
    let l := d.tensor 48
    x.block (16 * i) (partLen x.rows 16 i) 0 x.cols ++ l.block (16 * i) (partLen l.rows 16 i) 0 l.cols
  | .predict =>
    let x := d.tensor 32
    let u := d.tensor 48
    let v := d.tensor 64
    x.block 0 x.rows 0 x.cols ++ u.block 0 u.rows 0 u.cols ++ v.block (16 * i) (partLen v.rows 16 i) 0 v.cols
  | .aggregate =>
    let b := d.tensor 32
    let x := d.tensor 48
    let k := max 1 (cdiv x.rows (max 1 b.rows))
    b.block i (partLen b.rows 1 i) 0 b.cols ++ x.block (k * i) (partLen x.rows k i) 0 x.cols
  | _ => []

/-! ### The L0 caches (R395, R396) -/

/-- Whether the matrix engine or the vector unit reads an operation's operands (R395). -/
def Op.coreReads (o : Op) : Bool :=
  match opcOf o.opcode with
  | some .aggregate | some .dense | some .epilogue | some .loss | some .predict => true
  | _ => false

/-- Whether a core caches what it reads at an address: spaces 0 and 4, and space 1 of another package (R395). -/
def State.cacheable (s : State) (a : Nat) : Bool :=
  spaceOf a == 0 || spaceOf a == 4 || (spaceOf a == 1 && !s.isOwn (pkgOf a))

/-- The line that holds an address. -/
def State.lineOf (s : State) (o : Op) (a : Nat) : Nat := s.canon o.ctx a / 64

/-- The copy of the line at an address that a core running an operation's tasks holds, the earliest of those cores first (R395; log entry 85). -/
def State.l0Line (s : State) (o : Op) (a : Nat) : Option (List Byte) :=
  if o.coreReads && !s.l0.isEmpty && s.cacheable a then
    o.cores.findSome? (fun c => sget (s.lineOf o a) (sgetD c [] s.l0))
  else none

/-- Bytes that an operation reads at an address, given what lies there: each whole or partial line that is cached is the copy (R396). -/
def State.viaL0 (s : State) (o : Op) (a : Nat) (bs : List Byte) : List Byte :=
  if !o.coreReads || s.l0.isEmpty || o.cores.isEmpty then bs
  else bs.zipIdx.map (fun x =>
    match s.l0Line o (a + x.2) with
    | some l => l.getD ((a + x.2) % 64) 0
    | none => x.1)

/-- A cache of 1,024 lines, most recently used first, after a read of a line: a line that it does not hold takes the place of the least recently used of its set of 8, where its bytes are known (R395; log entry 85). -/
def l0Use (c : List (Nat × List Byte)) (line : Nat) (bs : Option (List Byte)) : List (Nat × List Byte) :=
  match sget line c, bs with
  | some l, _ => (line, l) :: c.filter (fun x => x.1 ≠ line)
  | none, none => c
  | none, some l =>
    let full := decide (8 ≤ (c.filter (fun x => x.1 % 128 == line % 128)).length)
    (line, l) :: (if full then (c.reverse.eraseP (fun x => x.1 % 128 == line % 128)).reverse else c)

/-- The addresses of the lines that ranges touch. -/
def linesOf (rs : List (Nat × Nat)) : List Nat :=
  rs.flatMap (fun r => (List.range (cdiv (r.1 % 64 + r.2) 64)).map (fun i => (r.1 / 64 + i) * 64))

/-- A core reads operands of a task: lines that it holds are hits, which EVENT 5 counts, and others that lie here or have come are allocated (R395, R721). -/
def State.l0Read (s : State) (o : Op) (core : Nat) (rs : List (Nat × Nat)) : State :=
  let l := (linesOf rs).filter s.cacheable
  if l.isEmpty then s
  else
    let x := l.foldl (fun (x : List (Nat × List Byte) × Nat) a =>
      let bs := if s.place a ≤ 1 then some (s.kRd (s.keyOf o.ctx a) 64) else fetchedAt o.fetched a 64
      (l0Use x.1 (s.lineOf o a) bs, x.2 + (if (sget (s.lineOf o a) x.1).isSome then 1 else 0))) (sgetD core [] s.l0, 0)
    let s : State := { s with l0 := sput core x.1 s.l0 }
    if x.2 = 0 then s else s.perf 5 core x.2

/-- A task of a matrix-engine or vector-unit operation starts on a core: it reads its operands through the core's L0 (R395). -/
def State.l0Task (s : State) (o : Op) (idx core : Nat) : State :=
  if o.coreReads then
    (s.modOp o.seq (fun o => { o with cores := o.cores ++ [core] })).l0Read o core ((opcOf o.opcode).elim [] (fun c => taskReads o.desc c idx))
  else s

/-- What has come from elsewhere for an operation goes into the L0 of the cores whose tasks read it (R395). -/
def State.l0Fetched (s : State) (o : Op) : State :=
  if o.coreReads then
    s.each (s.tasks.filter (fun t => t.op == o.seq)) (fun s t =>
      match t.at_ with
      | .running core => s.l0Read o core (((opcOf o.opcode).elim [] (fun c => taskReads o.desc c t.idx)).filter (fun r => decide (1 < s.place r.1)))
      | _ => s)
  else s

/-- The L0 lines of the cores that a test names are invalid (R396). -/
def State.l0Drop (s : State) (f : Nat → Bool) : State := { s with l0 := s.l0.filter (fun x => !f x.1) }

/-- Every L0 line of a partition's cores is invalid (R396). -/
def State.l0Part (s : State) (p : Nat) : State := s.l0Drop (fun c => s.regionIn p (c / 128))

end Sys2Proof.Machine
end

