-- ==== Sys2Proof/Machine/Sched.lean ====
section
/-! DEFINITION. Tasks, energy credits, dispatch, deadlines and shedding (ch. 12, R420–R450). -/

namespace Sys2Proof.Machine

/-! ### Partitions and regions -/

/-- The partition in service, or an empty one. -/
def State.part (s : State) (p : Nat) : Part := sgetD p { id := p } s.parts

/-- Store a partition. -/
def State.setPart (s : State) (x : Part) : State := { s with parts := sput x.id x s.parts }

/-- Change a partition. -/
def State.modPart (s : State) (p : Nat) (f : Part → Part) : State := s.setPart (f (s.part p))

/-- SCH_PART_CFG of a partition as in force until the next tick (R455). -/
def State.partCfg (s : State) (p : Nat) : Word := sgetD p (s.reg (.schPartCfg p)) s.pwr.cfg

/-- The regions of a partition, rising. -/
def State.regionsOf (s : State) (p : Nat) : List Nat := (List.range 128).filter (fun r => s.regionIn p r)

/-- Clock state of a region (0 P0, 1 P1, 2 P2). -/
def State.pstate (s : State) (r : Nat) : Nat := s.fld (.schRegState r) F.schRegState_PSTATE

/-- Cycle time of a clock state in thirds of a picosecond (R28, R452): 1.25 GHz, 1.0 GHz, 0.6 GHz. -/
def cycle3 : Nat → Nat
  | 0 => 2400
  | 1 => 3000
  | _ => 5000

/-- Whole nanoseconds of a number of cycles at a clock state. -/
def cyclesNs (n st : Nat) : Nat := n * cycle3 st / 3000

/-- The charge of a class bound at a clock state (R429). -/
def chargeAt (bound : Nat) : Nat → Nat
  | 0 => bound
  | 1 => bound * 7 / 8
  | _ => bound * 3 / 4

/-- Usable logical cores of a region (R18). -/
def State.coresOf (s : State) (r : Nat) : Nat := 128 - (s.absent.filter (fun c => c / 128 == r)).length

/-- Balance, committed and free credit of a region (R429). -/
def State.balance (s : State) (r : Nat) : Nat := s.fld (.schRegCredit r) F.schRegCredit_BALANCE
def State.committed (s : State) (r : Nat) : Nat :=
  sumN ((s.tasks.filter (fun t => t.region == r && (match t.at_ with | .running _ => false | _ => true))).map
    (fun t => chargeAt t.bound (s.pstate r)))
def State.freeCredit (s : State) (r : Nat) : Nat := s.balance r - s.committed r

/-! ### Estimates (R420–R424) -/

/-- Number of tasks of an operation by the table of R420, `k.1` being the rows of an UPDATE of a table; 0 for front-end operations. -/
def taskCount (d : Desc) (o : Opc) (k : Nat × Nat) : Nat :=
  match o with
  | .sample => (d.tensor 64).rows
  | .gather | .scatter => cdiv (d.tensor 32).rows 256
  | .aggregate => max 1 (d.tensor 32).rows
  | .dense => cdiv (d.tensor 64).rows (shapeOf (d.tensor 32) (d.tensor 48)).tileRows * cdiv (d.tensor 64).cols 16
  | .epilogue => cdiv (d.tensor 48).rows 16 * cdiv (d.tensor 48).cols 16
  | .loss => cdiv (d.tensor 32).rows 16
  | .predict => cdiv (d.tensor 80).cols 16
  | .copy => cdiv (d.tensor 32).rows 64
  | .exchange | .reduce => cdiv (d.tensor 32).span (256 * 1024)
  | .update => if d.flag 8 then max 1 (cdiv k.1 256) else cdiv (d.tensor 32).span (64 * 1024)
  | _ => 0

/-- The counts of work of a task: matrix-engine and vector-unit cycles, SRAM bytes, HBM bursts, and edges of a sampler (R422). -/
structure Work where
  mac : Nat := 0
  vec : Nat := 0
  sram : Nat := 0
  hbm : Nat := 0
  edges : Nat := 0
  deriving DecidableEq, Repr, Inhabited

def Work.add (a b : Work) : Work := ⟨a.mac + b.mac, a.vec + b.vec, a.sram + b.sram, a.hbm + b.hbm, a.edges + b.edges⟩

/-- Bytes of an operand as work: SRAM bytes in space 1, bursts elsewhere (R422; log entry 28). -/
def bytesWork (addr n : Nat) : Work := if spaceOf addr = 1 then { sram := n } else { hbm := cdiv n 64 }

/-- Bytes that `n` elements of a tensor take, block scales in proportion. -/
def Tensor.elemsBytes (t : Tensor) (n : Nat) : Nat := cdiv (n * t.rowBytes) (max 1 t.cols)

/-- One part of a tensor whose rows are divided among parts of `k` rows as those of `n` rows are; of another tensor an equal share. -/
def rowsWork (n k i : Nat) (t : Tensor) : Work :=
  if t.rows = n then bytesWork t.addr (partLen n k i * t.rowBytes) else bytesWork t.addr (cdiv t.span (max 1 (cdiv n k)))

/-- Cycles of a DENSE tile: K, or half of it for a pair of INT4 operands (R301, R306). -/
def denseCycles (x w : Tensor) (k : Nat) : Nat := if x.elem = 6 ∧ w.elem = 6 then cdiv k 2 else k

/-- The counts of work of task `i` of an operation, as its descriptor fixes them; `k` is what its program costs for 32 elements, and its row reductions, or the rows of a table's UPDATE and the bursts of each (R324, R420–R424; log entry 28). -/
def taskWork (d : Desc) (o : Opc) (k : Nat × Nat) (i : Nat) : Work :=
  let ts := (d.tensors o).map Prod.fst
  let all := fun (l : List Work) => l.foldl Work.add {}
  let roles := (d.tensors o).flatMap (fun x => (if x.2.1 then [x.1] else []) ++ (if x.2.2.1 then [x.1] else []))
  let even := all (roles.map (fun t => bytesWork t.addr (cdiv t.span (max 1 (taskCount d o k)))))
  match o with
  | .sample =>
    let sd := d.tensor 48
    let c := d.tensor 64
    let n := sd.rows * sd.cols
    let seeds := (i + 1) * n / max 1 c.rows - i * n / max 1 c.rows
    let e := seeds * (d.nodesPerSeed - 1)
    all [{ edges := e, hbm := e }, bytesWork sd.addr (8 * seeds), bytesWork c.addr c.pitch]
  | .gather =>
    let x := d.tensor 32
    let c := d.tensor 64
    all ({ hbm := partLen x.rows 256 i * cdiv c.rowBytes 64 } :: [x, c].map (rowsWork x.rows 256 i))
  | .scatter =>
    let x := d.tensor 32
    all [{ hbm := partLen x.rows 256 i * cdiv x.rowBytes 64 }, rowsWork x.rows 256 i x]
  | .copy => all (ts.map (rowsWork (d.tensor 32).rows 64 i))
  | .loss =>
    let x := d.tensor 32
    all ({ vec := cdiv (partLen x.rows 16 i * x.cols) 32 } :: ts.map (rowsWork x.rows 16 i))
  | .dense =>
    let x := d.tensor 32
    let w := d.tensor 48
    let y := d.tensor 64
    let inner := if d.flag 8 then x.rows else x.cols
    let t := tileDims y.rows y.cols (shapeOf x w).tileRows i
    all ([{ mac := denseCycles x w inner }, bytesWork x.addr (x.elemsBytes (t.1 * inner)), bytesWork w.addr (w.elemsBytes (t.2 * inner)),
        bytesWork y.addr (y.elemsBytes (t.1 * t.2))]
      ++ (if d.flag 10 then [bytesWork (d.tensor 80).addr ((d.tensor 80).elemsBytes (t.1 * t.2))] else [])
      ++ (if d.flag 11 then [bytesWork (d.tensor 96).addr t.2] else []))
  | .epilogue =>
    let y := d.tensor 48
    let t := tileDims y.rows y.cols 16 i
    all ({ vec := cdiv (t.1 * t.2) 32 * k.1, mac := cdiv (t.1 * k.2 * cdiv y.cols 32) (max 1 (cdiv y.cols 16)) } :: ts.map (fun x =>
      bytesWork x.addr (x.elemsBytes ((if x.rows = 1 then min 1 t.1 else t.1) * (if x.cols = 1 then min 1 t.2 else t.2)))))
  | .aggregate => even.add { vec := cdiv (cdiv ((d.tensor 64).rows * (d.tensor 64).cols) (taskCount d o k)) 32 * k.1 }
  | .predict =>
    let m := (d.tensor 32).rows * (d.tensor 32).cols * (d.tensor 48).rows + (d.tensor 32).rows * (d.tensor 48).rows * (d.tensor 80).cols
    even.add { mac := cdiv (cdiv m (max 1 (taskCount d o k))) 256 }
  | .update => if d.flag 8 then { hbm := partLen k.1 256 i * k.2 } else even
  | .exchange | .reduce => all [bytesWork (d.tensor 32).addr (partLen (d.tensor 32).span (256 * 1024) i), even]
  | _ => even

/-- Estimate E of a task in nJ (R422). -/
def taskEnergy (w : Work) : Nat := cdiv (w.mac * 61500 + w.vec * 15000 + w.sram * 7000 + w.hbm * 940000 + w.edges * 30000 + 2000000) 1000000

/-- Cycle estimate T of a task (R424). -/
def taskCycles (w : Work) : Nat := max w.mac (max w.vec (cdiv (w.sram + 64 * w.hbm) 64))

/-- The bound of an energy class (R423). -/
def classBound (c : Nat) : Nat := (4 + c % 4) * 2 ^ (c / 4)

/-- The charge at P0 of an estimate: the lowest class bound at or above it, or E itself above class 63 (R423). -/
def boundOf (e : Nat) : Nat :=
  match (List.range 64).find? (fun c => decide (e ≤ classBound c)) with
  | some c => classBound c
  | none => e

/-! ### Frame times (R30, R36, R81) -/

/-- Period in 10 ns units in force. -/
def State.period (s : State) : Nat := s.fld .frmPeriod F.frmPeriod_PERIOD

/-- Offset in ns from the tick of the boundary that ends phase 1 intake, 2 work, 3 reduce, 4 commit, 5 slack (R36). -/
def State.boundary (s : State) (ph : Nat) : Nat :=
  let b := match ph with
    | 0 => 0
    | 1 => s.fld .frmPhase F.frmPhase_INTAKE_END
    | 2 => s.fld .frmPhase F.frmPhase_WORK_END
    | 3 => s.fld .frmPhase F.frmPhase_REDUCE_END
    | 4 => s.fld .frmPhase F.frmPhase_COMMIT_END
    | _ => 1000
  s.period * b / 1000 * 10

/-- Deadline of an operation in ns after the tick (R79, R81). -/
def State.deadlineOf (s : State) (d : Desc) (o : Opc) : Nat :=
  let e := s.boundary (opPhase d o)
  if d.deadline = 0 then e else min (d.deadline * 1000) e

/-! ### Placement (R433) -/

/-- Tasks waiting in a cluster's queue, the delay list counted (R437). -/
def State.clusterLoad (s : State) (c : Nat) : Nat :=
  (s.tasks.filter (fun t => t.cluster == c && (match t.at_ with | .running _ => false | _ => true))).length

/-- Whether a cluster has a core in service (R18, R433). -/
def State.clusterUsable (s : State) (c : Nat) : Bool := (List.range 16).any (fun i => decide (16 * c + i ∉ s.absent))

/-- The least loaded of some clusters, the first among equals. -/
def State.leastOf (s : State) (cs : List Nat) (none : Nat) : Nat :=
  cs.tail.foldl (fun b c => if s.clusterLoad c < s.clusterLoad b then c else b) (cs.head?.getD none)

/-- The least loaded usable cluster of a region, the lowest index among equals; the lowest of the region where none is usable. -/
def State.leastCluster (s : State) (r : Nat) : Nat :=
  s.leastOf (((List.range 8).map (fun i => 8 * r + i)).filter s.clusterUsable) (8 * r)

/-- Where the first input range of task `i` of an operation starts (R420, R433). -/
def taskFirst (d : Desc) (o : Opc) (i : Nat) : Option Nat :=
  match taskReads d o i with
  | r :: _ => some r.1
  | [] =>
    ((d.tensors o).find? (fun x => x.2.1)).map (fun x =>
      let t := x.1
      t.addr + (match o with
        | .gather | .scatter => 256 * i * t.pitch
        | .copy => 64 * i * t.pitch
        | .update => 65536 * i
        | .exchange | .reduce => 262144 * i
        | .sample => i * (t.rows * t.cols) / max 1 (d.tensor 64).rows / max 1 t.cols * t.pitch
        | _ => 0))

/-- The cluster of a task: pinned, or by the steps of R433. -/
def State.placeTask (s : State) (p : Nat) (d : Desc) (o : Opc) (t : Nat) : Nat :=
  if d.placeKind = 1 then s.leastCluster d.placeIndex
  else if d.placeKind = 2 then d.placeIndex % 1024
  else if d.placeKind = 3 then d.placeIndex % 16384 / 16
  else
    let step1 := (taskFirst d o t).bind (fun a =>
      let c := offOf a / 0xC0000 / 16
      if spaceOf a = 1 ∧ s.isOwn (pkgOf a) ∧ offOf a < sramSize ∧ s.regionIn p (c / 8) ∧ s.clusterUsable c then some c else none)
    let ok := fun c => if s.clusterLoad c < 192 then some c else none
    match step1.bind ok with
    | some c => c
    | none =>
      match ((sget t (s.part p).lastPlace).filter (fun c => s.regionIn p (c / 8))).bind ok with
      | some c => c
      | none =>
        let rs := s.regionsOf p
        s.leastCluster (nthD rs (t % max 1 rs.length) 0)

/-- The cluster that replays a chunk: the one that gathered it, or the lowest usable one of its region (R194). -/
def State.replayCluster (s : State) (c : Nat) : Nat :=
  if s.clusterUsable c then c else (((List.range 8).map (fun i => c / 8 * 8 + i)).find? s.clusterUsable).getD c

/-- The cluster of a task: a SCATTER's follows the chunk that it replays, once that chunk has been gathered, whatever the descriptor's placement (R194; log entry 77); any other by R433. -/
def State.taskPlace (s : State) (c p : Nat) (d : Desc) (o : Opc) (t : Nat) : Nat :=
  let chunk := if o = .scatter then (s.charts.find? (fun x => x.ctx == c && x.id == d.param 0 2)).bind (fun x => x.chunks[t]?) else none
  match chunk with
  | some k => s.replayCluster k.cluster
  | none => s.placeTask p d o t

/-- A SCATTER starts: its waiting tasks go to the clusters of their chunks (R194). -/
def State.placeReplay (s : State) (q : Nat) : State :=
  match s.op? q with
  | none => s
  | some o =>
    { s with tasks := s.tasks.map (fun t =>
        if t.op = q then
          let c := s.taskPlace o.ctx o.part o.desc .scatter t.idx
          { t with cluster := c, region := c / 8 }
        else t) }

/-- Tasks of a region beyond the 256 of each cluster's queue: they wait in the region queue (R440, R441). -/
def State.regionDepth (s : State) (r : Nat) : Nat := sumN ((List.range 8).map (fun i => s.clusterLoad (8 * r + i) - 256))

/-- Bring SCH_REG_QUEUE and COMMITTED of a region up to date. -/
def State.queueRegs (s : State) (r : Nat) : State :=
  let s := s.setFld (.schRegQueue r) F.schRegQueue_REGION_DEPTH (min (s.regionDepth r) 1024)
  let s := s.setFld (.schRegQueue r) F.schRegQueue_MAX_CLUSTER
    (min (((List.range 8).map (fun i => s.clusterLoad (8 * r + i))).foldl max 0) 256)
  s.setFld (.schRegCredit r) F.schRegCredit_COMMITTED (s.committed r)

/-- Split tasks off an operation while its next task finds room in its region's queues (R420, R421, R433, R440, R441). -/
def State.splitTasks (s : State) (q : Nat) (opc : Opc) : Nat → State
  | 0 => s
  | n + 1 =>
    match s.op? q with
    | none => s
    | some o =>
      if o.tasksLeft = 0 then s
      else
        let t := taskCount o.desc opc o.pcost - o.tasksLeft
        let c := s.taskPlace o.ctx o.part o.desc opc t
        if 256 ≤ s.clusterLoad c ∧ 1024 ≤ s.regionDepth (c / 8) then s
        else
          let w := taskWork o.desc opc o.pcost t
          let bound := boundOf (taskEnergy w)
          let dl := s.frm.lastTick + s.deadlineOf o.desc opc
          let tk : Task := ⟨q, t, o.part, c / 8, c, bound, taskCycles w, dl, o.flagBit 1, .ready⟩
          let s : State := { s with tasks := s.tasks ++ [tk] }
          let s := s.modOp q (fun o => { o with tasksLeft := o.tasksLeft - 1, charge := o.charge - o.charge / o.tasksLeft })
          s.splitTasks q opc n

/-- Split what can be split of a partition's operations, in admission order (R440, R441). -/
def State.splitMore (s : State) (p : Nat) : State :=
  let l := s.ops.filter (fun o => o.part == p && o.tasksLeft != 0)
  if l.isEmpty then s
  else
    let s := s.each l (fun s o => match opcOf o.opcode with
      | some c => s.splitTasks o.seq c o.tasksLeft
      | none => s)
    s.each (s.regionsOf p) State.queueRegs

/-- Remove the tasks of operations that a test names, uncharged. -/
def State.dropTasks (s : State) (f : Task → Bool) : State :=
  let rs := ((s.tasks.filter f).map Task.region).eraseDups
  let s := { s with tasks := s.tasks.filter (fun t => !f t) }
  s.each rs State.queueRegs

/-- Whether a task's operation has started (R101, R102). -/
def State.taskReady (s : State) (t : Task) : Bool :=
  t.at_ == .ready && (match s.op? t.op with
    | some o => o.stage == .started || o.stage == .ran
    | none => false)

/-- Number of a phase: 1 intake to 5 slack, 0 while no frame runs (R30). -/
def phaseNo : Phase → Nat
  | .idle => 0 | .intake => 1 | .work => 2 | .reduce => 3 | .commit => 4 | .slack => 5

/-! ### Dispatch (R434–R437) -/

/-- Whether a task goes before another: deadline, admission order, index (R434). -/
def Task.before (a b : Task) : Bool :=
  decide (a.deadline < b.deadline) ||
  (a.deadline == b.deadline && (decide (a.op < b.op) || (a.op == b.op && decide (a.idx < b.idx))))

/-- The task that goes first. -/
def firstTask : List Task → Option Task
  | [] => none
  | t :: r =>
    match firstTask r with
    | none => some t
    | some u => if u.before t then some u else some t

/-- Whether a task can run on a core: its cluster, and its core where pinned to a logical core that is not absent (R19, R79). -/
def State.runsOn (s : State) (t : Task) (core : Nat) : Bool :=
  match s.op? t.op with
  | some o => o.desc.placeKind != 3 || decide (o.desc.placeIndex ∈ s.absent) || o.desc.placeIndex == core
  | none => true

/-- Whether a logical core is free to take a task. -/
def State.coreFree (s : State) (core : Nat) : Bool :=
  decide (core < 16384) && decide (core ∉ s.absent) && decide (core / 2048 ∉ s.pwr.stopped) &&
  !s.tasks.any (fun t => t.at_ == .running core)

/-- Neighbouring regions of the same partition, rising (R436). -/
def State.neighbours (s : State) (r : Nat) : List Nat :=
  let p := s.fld (.schRegState r) F.schRegState_PARTITION
  let d := r / 16
  let i := r % 16
  ((if 4 ≤ i then [16 * d + i - 4] else []) ++ (if i % 4 ≠ 0 then [16 * d + i - 1] else [])
    ++ (if i % 4 ≠ 3 then [16 * d + i + 1] else []) ++ (if i < 12 then [16 * d + i + 4] else [])).filter (fun q => s.regionIn p q)

/-- The die whose controller runs a task of an UPDATE: that of the task's first parameter byte, or of its first row's accumulator (R350, R393, R420; log entry 28). -/
def Op.unitDie (o : Op) (idx : Nat) : Nat := (o.unit.1 + idx * o.unit.2) / dieRange

/-- The region that pays for a task on a core: its own, and for an UPDATE the lowest region of its partition on the die whose controller runs it, else the lowest of the partition (R429). -/
def State.payer (s : State) (t : Task) (core : Nat) : Nat :=
  match (s.op? t.op).filter (fun o => opcOf o.opcode == some .update) with
  | some o =>
    let rs := s.regionsOf t.part
    ((rs.find? (fun r => r / 16 == o.unitDie t.idx)).orElse (fun _ => rs.head?)).getD (core / 128)
  | none => core / 128

/-! ### The region's dedup hash (R172) -/

/-- Whether an operation is a SAMPLE that builds its blocks with deduplication (R166, R172). -/
def Op.dedups (o : Op) : Bool := opcOf o.opcode == some .sample && !o.desc.flag 8

/-- Whether a task of an operation runs in a cluster. -/
def State.samples (s : State) (x : Nat × Nat) : Bool :=
  s.tasks.any (fun t => t.op == x.2 && t.cluster == x.1 && (match t.at_ with | .running _ => true | _ => false))

/-- Blocks whose task has ended leave the hash, and clusters without one wait no longer (R172). -/
def State.dedupTrim (s : State) : State :=
  { s with graph := { s.graph with openBlocks := s.graph.openBlocks.filter s.samples, waitBlocks := s.graph.waitBlocks.filter s.samples } }

/-- Whether the hash of a cluster's region can open another block: at most 4 are open (R172). -/
def State.dedupFree (s : State) (cluster : Nat) : Bool := decide ((s.graph.openBlocks.filter (fun x => x.1 / 8 == cluster / 8)).length < 4)

/-- A cluster that samples for an operation opens its block, or waits until one of its region closes (R172). -/
def State.dedupEnter (s : State) (x : Nat × Nat) : State :=
  if x ∈ s.graph.openBlocks ∨ x ∈ s.graph.waitBlocks then s
  else if s.dedupFree x.1 then { s with graph := { s.graph with openBlocks := s.graph.openBlocks ++ [x] } }
  else { s with graph := { s.graph with waitBlocks := s.graph.waitBlocks ++ [x] } }

/-- DEDUP_BLOCK_OPEN: a block of another cluster of the region closes, and a cluster that waits opens its own; at most 4 are open in a region (R172). -/
def dedupBlockOpen (cluster closing : Nat) (s : State) : State :=
  let s := s.dedupTrim
  match s.graph.waitBlocks.find? (fun x => x.1 == cluster) with
  | none => s
  | some x =>
    let t : State := { s with graph := { s.graph with
      openBlocks := s.graph.openBlocks.filter (fun y => !(y.1 == closing && closing / 8 == cluster / 8)), waitBlocks := s.graph.waitBlocks.filter (· ≠ x) } }
    if t.dedupFree cluster then { t with graph := { t.graph with openBlocks := t.graph.openBlocks ++ [x] } } else s

/-- A task of an operation runs in a cluster: the partition notes where the tasks of its latest primary operation ran (R433). -/
def Part.placed (p : Part) (o : Op) (idx cluster : Nat) : Part :=
  if !o.isPrimary then p
  else { p with lastOp := some o.seq, lastPlace := sput idx cluster (if p.lastOp = some o.seq then p.lastPlace else []) }

/-- Charge a region and start a task on a core; a SAMPLE with deduplication opens its block in the region's hash (R172, R429, R434). -/
def State.startTask (s : State) (t : Task) (core region : Nat) : State :=
  let c := chargeAt t.bound (s.pstate region)
  let s := s.setFld (.schRegCredit region) F.schRegCredit_BALANCE (s.balance region - c)
  let tk : List Task := s.tasks.map (fun u => if u.op = t.op ∧ u.idx = t.idx then { u with at_ := .running core } else u)
  let s := { s with charged := smod region 0 (· + c) s.charged, tasks := tk }
  let s := match s.op? t.op with
    | some o =>
      let s := s.modPart t.part (fun p => p.placed o t.idx t.cluster)
      let s := if o.desc.placeKind = 3 ∧ o.desc.placeIndex ∈ s.absent then s.modOp t.op (fun o => o.addFlag 5) else s
      (s.l0Task o t.idx core).iff o.dedups (fun s => s.dedupTrim.dedupEnter (t.cluster, t.op))
    | none => s
  s.queueRegs t.region

/-- CREDIT_BORROW: the first neighbour whose free credit covers the shortfall grants all of it (R436). -/
def State.borrow (s : State) (r need : Nat) : Option State :=
  match (s.neighbours r).find? (fun q => decide (need ≤ s.freeCredit q)) with
  | none => none
  | some q =>
    let s := s.setFld (.schRegCredit q) F.schRegCredit_BALANCE (s.balance q - need)
    let s := s.setFld (.schRegCredit r) F.schRegCredit_BALANCE (s.balance r + need)
    let s := s.wrapFld (.schRegBorrow q) F.schRegBorrow_LENT need
    some (s.wrapFld (.schRegBorrow r) F.schRegBorrow_BORROWED need)

/-- The next 1 µs scheduler tick. -/
def nextMicro (t : Nat) : Nat := (t / 1000 + 1) * 1000

/-- Put a task on its delay list (R437). -/
def State.delayTask (s : State) (t : Task) : State :=
  let tk : List Task := s.tasks.map (fun u =>
    if u.op = t.op ∧ u.idx = t.idx then { u with at_ := .delayed (nextMicro s.frm.now) } else u)
  { s with tasks := tk, pwr := { s.pwr with waited := insertNew t.region s.pwr.waited } }

/-- Whether a partition accepts filler tasks of another (SCH_FILL, R550). -/
def State.acceptsFiller (s : State) (p q : Nat) : Bool := bitN (sgetD p (s.reg (.schFill p)) s.pwr.fill).toNat q

/-- The tasks of its partition and cluster that a core can take now (R434, R435). -/
def State.readyOn (s : State) (core : Nat) : List Task :=
  let p := s.fld (.schRegState (core / 128)) F.schRegState_PARTITION
  s.tasks.filter (fun t => t.cluster == core / 16 && t.part == p && s.taskReady t && s.runsOn t core)

/-- The filler tasks of other partitions that a core can take now: not pinned, accepted, payable, and done before the next boundary (R81, R113, R550–R552). -/
def State.fillers (s : State) (core : Nat) : List Task :=
  let r := core / 128
  let p := s.fld (.schRegState r) F.schRegState_PARTITION
  s.tasks.filter (fun t => t.filler && t.part != p && (s.op? t.op).any (fun o => o.desc.placeKind == 0) && s.taskReady t && s.acceptsFiller p t.part
    && decide (chargeAt t.bound (s.pstate r) ≤ s.balance r)
    && decide (s.frm.now + cyclesNs t.cycles (s.pstate r) ≤ s.frm.lastTick + s.boundary (phaseNo s.frm.phase)))

/-- Whether a cluster's running tasks of its own partition all wait on EXCHANGE or REDUCE pieces: it then counts as having no ready task of its own (R551). -/
def State.bubble (s : State) (core : Nat) : Bool :=
  let p := s.fld (.schRegState (core / 128)) F.schRegState_PARTITION
  let l := s.tasks.filter (fun t => t.cluster == core / 16 && t.part == p && (match t.at_ with | .running _ => true | _ => false))
  !l.isEmpty && l.all (fun t => s.coll.runs.any (fun r => r.op == t.op && r.sent) && (s.op? t.op).any (fun o => o.stage == .started))

/-- The tasks of its own partition that a core goes for: none while its cluster's run waits on pieces and a filler task is at hand (R434, R551). -/
def State.ownReady (s : State) (core : Nat) : List Task :=
  if s.bubble core && !(s.fillers core).isEmpty then [] else s.readyOn core

/-- TASK_DISPATCH: a free core takes the earliest-deadline payable task, and a filler task only when none is ready and it ends before the next boundary; one that cannot be paid borrows or waits (R434–R437, R113, R550–R552). -/
def taskDispatch (core at_ : Nat) (s : State) : State :=
  let s := s.reach at_
  if !s.coreFree core then s
  else
    let cost := fun (t : Task) => chargeAt t.bound (s.pstate (s.payer t core))
    match firstTask (s.ownReady core) with
    | none =>
      match firstTask (s.fillers core) with
      | none => s
      | some t => s.startTask t core (core / 128)
    | some t =>
      let r := s.payer t core
      if cost t ≤ s.balance r then s.startTask t core r
      else
        match s.borrow r (cost t - s.balance r) with
        | some s => s.startTask t core r
        | none =>
          let s := s.delayTask t
          match firstTask ((s.readyOn core).filter (fun u => decide (cost u ≤ s.balance (s.payer u core)))) with
          | none => s
          | some u => s.startTask u core (s.payer u core)

/-- Whether an operation whose data effect has happened has finished: no task, read, contribution or acknowledged-before-finish item is left. -/
def State.opDone (s : State) (o : Op) : Bool :=
  o.reads.isEmpty && o.await == 0 && o.tasksLeft == 0 && !s.tasks.any (fun t => t.op == o.seq)

/-- Mark an operation finished when nothing of it is left. -/
def State.settleOp (s : State) (q : Nat) : State :=
  match s.op? q with
  | some o => if o.stage = .ran ∧ s.opDone o then s.modOp q (fun o => { o with stage := .finished }) else s
  | none => s

/-- TASK_FINISH: the task's last tile drains, so that no bank holds an entry, and the core is free; a SAMPLE's block closes, and none ends while its cluster waits to open it (R172, R305, R306, R435). -/
def taskFinish (core at_ : Nat) (s : State) : State :=
  let s := s.reach at_
  match s.tasks.find? (fun t => t.at_ == .running core) with
  | none => s
  | some t =>
    if (t.cluster, t.op) ∈ s.graph.waitBlocks then s
    else
      let s : State := { s with tasks := s.tasks.filter (fun u => !(u.op == t.op && u.idx == t.idx)), accs := sdel core s.accs }
      ((s.splitMore t.part).settleOp t.op).dedupTrim

/-! ### Deadlines and shedding (R33, R443–R446) -/

/-- The context that a signal sheds: lowest PRIORITY, then higher ID, among the others than the primary with unstarted operations (R445). -/
def State.shedVictim (s : State) (p : Nat) : Option Nat :=
  let prim := s.fld (.hstPartCtrl p) F.hstPartCtrl_PRIMARY
  let cs := ((s.ops.filter (fun o => o.part == p && o.stage == .admitted && o.ctx != prim)).map Op.ctx).eraseDups
  cs.foldl (fun b c =>
    match b with
    | none => some c
    | some b =>
      let pb := s.fld (.ctxCtrl b) F.ctxCtrl_PRIORITY
      let pc := s.fld (.ctxCtrl c) F.ctxCtrl_PRIORITY
      if pc < pb ∨ (pc = pb ∧ b < c) then some c else some b) none

/-- SHED: the victim loses its unstarted operations, which complete with status 0x50 (R445). -/
def State.shed (s : State) (p : Nat) : State :=
  match s.shedVictim p with
  | none => s
  | some c =>
    let mine := s.ops.filter (fun o => o.part == p && o.stage == .admitted && o.ctx == c)
    let s := s.dropTasks (fun t => mine.any (fun o => o.seq == t.op))
    let s := s.each mine (fun s o => s.modOp o.seq (fun o => { o with stage := .finished, status := 0x50, detail := 0, tasksLeft := 0 }))
    s.satFld (.schPartMiss p) F.schPartMiss_SHED mine.length

/-- A deadline miss of an operation is signalled, at most once (R33, R443–R446). -/
def State.missSignal (s : State) (q : Nat) : State :=
  match s.op? q with
  | none => s
  | some o =>
    let p := s.part o.part
    if q ∈ p.missed then s
    else
      let s := s.setPart { p with missed := q :: p.missed }
      let s := s.satFld (.schPartMiss o.part) F.schPartMiss_MISSES 1
      if F.schPartCfg_POLICY.get (s.partCfg o.part) = 1 then s.shed o.part else s

/-- DEADLINE_RISK: at a scheduler tick, operations with a queued task that can no longer meet its deadline (R443). -/
def State.atRisk (s : State) (r : Nat) : List Nat :=
  let q := s.tasks.filter (fun t => t.region == r && (match t.at_ with | .running _ => false | _ => true))
  (q.filter (fun t =>
    let work := sumN ((q.filter (fun u => u.before t || (u.op == t.op && u.idx == t.idx))).map Task.cycles)
    decide ((t.deadline - s.frm.now) * 384000 < work * cycle3 (s.pstate r)))).map Task.op |>.eraseDups

/-- Signals for a phase's unfinished running tasks at its boundary (R33). -/
def State.phaseMiss (s : State) (ph : Nat) : State :=
  let l := s.ops.filter (fun o => (match opcOf o.opcode with
    | some c => opPhase o.desc c == ph && (o.stage == .started || o.stage == .ran) && s.tasks.any (fun t => t.op == o.seq)
    | none => false))
  s.each l (fun s o => s.missSignal o.seq)

/-! ### Refill at the tick (R425–R428) -/

/-- WATTS less RESERVE, of the PWR_BUDGET in force until the next tick (R425, R455). -/
def State.watts (s : State) : Nat :=
  let b := s.pwr.budget.getD (s.reg .pwrBudget)
  F.pwrBudget_WATTS.get b - F.pwrBudget_RESERVE.get b

/-- Pool Q in nJ (R425). -/
def State.poolQ (s : State) : Nat := s.watts * s.period * 10

/-- The weight of a region's partition; 0 outside every partition. -/
def State.weightOf (s : State) (r : Nat) : Nat :=
  let p := s.fld (.schRegState r) F.schRegState_PARTITION
  if p < 64 then F.schPartCfg_WEIGHT.get (s.partCfg p) else 0

/-- Sum of the weights over every region that belongs to a partition (R425). -/
def State.weightSum (s : State) : Nat := sumN ((List.range 128).map s.weightOf)

/-- The refill R_r of a region before the correction of R428 (R425). -/
def State.refill (s : State) (r : Nat) : Nat :=
  s.poolQ * s.weightOf r * s.fld (.pwrDie (r / 16)) F.pwrDie_TRIM / (max 1 s.weightSum * 1000)

/-- THERMAL_TRIM: f_d in thousandths from T_d in 0.125 °C (R427). -/
def trimOf (t : Nat) : Nat := if t ≤ 760 then 1000 else if t < 800 then 1000 - (t - 760) * 125 / 10 else 500

/-- The governor of one die: TEMP, TRIM and THROTTLE (R427). -/
def State.thermal (s : State) (d t : Nat) : State :=
  let s := s.setFld (.pwrDie d) F.pwrDie_TEMP t
  let s := s.setFld (.pwrDie d) F.pwrDie_TRIM (trimOf t)
  let th := s.fld .pwrStatus F.pwrStatus_THROTTLE
  let was := bitN th d
  let hot := decide (800 ≤ t)
  let s := s.setFld .pwrStatus F.pwrStatus_THROTTLE (th - (if was then 2 ^ d else 0) + (if hot then 2 ^ d else 0))
  let s := if hot then
      s.eventW 0x0203 (128 + d) none none t 0
    else s
  s.relevel (128 + d)

/-- OVERSPEND_CORRECTION: rail energy beyond the charges and the die's share of the reserve (R428). -/
def State.overspend (s : State) (d energy : Nat) : State :=
  let made := sumN ((List.range 16).map (fun i => sgetD (16 * d + i) 0 s.charged))
  let allow := made + F.pwrBudget_RESERVE.get (s.pwr.budget.getD (s.reg .pwrBudget)) * s.period * 10 / 8
  let x := energy - allow
  let s := s.setFld (.pwrDie d) F.pwrDie_EXCESS (min x (2 ^ 32 - 1))
  { s with pwr := { s.pwr with excess := sput d x s.pwr.excess } }

/-- CREDIT_REFILL of one region: refill less its share of the die's excess, plus the capped carry (R425, R426, R428). -/
def State.refillRegion (s : State) (r : Nat) : State :=
  let d := r / 16
  let wd := sumN ((List.range 16).map (fun i => s.weightOf (16 * d + i)))
  let x := sgetD d 0 s.pwr.excess * s.weightOf r / max 1 wd
  let ref := s.refill r - x
  let bal := ref + min (s.balance r) (ref / 4)
  let s := s.setFld (.schRegCredit r) F.schRegCredit_BALANCE (min bal (2 ^ 32 - 1))
  s.queueRegs r

/-- The end of a frame for one region: waits, good frames, and the marks of borrowing (R438, R439). -/
def State.regionFrameEnd (s : State) (r : Nat) : State :=
  let good := r ∉ s.pwr.waited ∧ s.refill r ≤ 8 * s.balance r ∧ s.weightOf r ≠ 0
  let s := { s with pwr := { s.pwr with good := sput r (if good then sgetD r 0 s.pwr.good + 1 else 0) s.pwr.good } }
  let s := s.setFld (.schRegState r) F.schRegState_WAIT_TICKS 0
  s.setReg (.schRegBorrow r) 0

/-- P_STATE_CHANGE at the tick: one step down on a hot die; else changes asked for, steps up after a wake, and steps down to a lowered PMAX; P2 throughout harbour mode (R427, R438, R439, R451, R454, R455, R668). -/
def State.pstateTick (s : State) (r : Nat) : State :=
  let p := s.fld (.schRegState r) F.schRegState_PARTITION
  let cur := s.pstate r
  let pmax := if p < 64 then min 2 (s.fld (.schPartCfg p) F.schPartCfg_PMAX) else cur
  let want :=
    if bitN (s.fld .pwrStatus F.pwrStatus_THROTTLE) (r / 16) then min 2 (cur + 1)
    else if cur < pmax then cur + 1
    else match sget r s.pwr.change with
      | some n => max pmax (min 2 n)
      | none => if s.pwr.rising.contains r ∧ pmax < cur then cur - 1 else cur
  let s : State := if p < 64 ∧ ((sget r s.pwr.change).isSome ∨ want ≤ pmax) then
    { s with pwr := { s.pwr with rising := s.pwr.rising.filter (· ≠ r) } } else s
  s.setFld (.schRegState r) F.schRegState_PSTATE (if s.fld .devStatus F.devStatus_STAGE = 5 then 2 else want)

/-- CREDIT_WAIT_STEP_DOWN: a region whose tasks waited 10 scheduler ticks in the frame steps down at the next tick (R438). -/
def creditWaitStepDown (r : Nat) (s : State) : State :=
  if 10 ≤ s.fld (.schRegState r) F.schRegState_WAIT_TICKS then
    { s with pwr := { s.pwr with change := sput r (min 2 (s.pstate r + 1)) s.pwr.change } }
  else s

/-- CREDIT_STEP_UP: a region without credit waits in 8 good frames steps up at the next tick, unless its die is hot (R439). -/
def creditStepUp (r : Nat) (s : State) : State :=
  if 8 ≤ sgetD r 0 s.pwr.good ∧ ¬ bitN (s.fld .pwrStatus F.pwrStatus_THROTTLE) (r / 16) then
    { s with pwr := { s.pwr with change := sput r (s.pstate r - 1) s.pwr.change, good := sput r 0 s.pwr.good } }
  else s

/-- LAG_ALARM: an unfetched descriptor has waited beyond SCH_LAG.LIMIT; one event until ALARM is cleared (R442). -/
def lagAlarm (c at_ : Nat) (s : State) : State :=
  let s := s.reach at_
  match s.ctx? c with
  | none => s
  | some x =>
    if x.waitsSince.any (fun t => decide (t + s.fld .schLag F.schLag_LIMIT * 1000 < s.frm.now)) ∧ !s.bit .schLag F.schLag_ALARM then
      (s.setFld .schLag F.schLag_ALARM 1).eventW 0x0201 (689 + s.partOf c) (some c) (some (s.partOf c)) c 0
    else s

end Sys2Proof.Machine
end

