-- ==== Sys2Proof/Machine/Wire.lean ====
section
/-! DEFINITION. The bytes and symbols of what leaves the package on its links: flits, codewords and lanes of a strait, frames, codewords and lanes of a stream port (R9, R484–R489, R493, R498, R499, R517, R599–R604, R646). -/

namespace Sys2Proof.Machine

/-! ### Check values (R489, R604, R694) -/

/-- Reverse the low `w` bits. -/
def revBits (w x : Nat) : Nat := sumN ((List.range w).map (fun i => if bitN x i then 2 ^ (w - 1 - i) else 0))

/-- One bit through the check register. -/
def checkBit (w poly c : Nat) (b : Bool) : Nat :=
  let top := bitN c (w - 1) != b
  let c := c * 2 % 2 ^ w
  if top then c ^^^ (poly % 2 ^ w) else c

/-- One byte, most significant bit first, reflected where REFIN is set. -/
def checkByte (w poly : Nat) (refin : Bool) (c : Nat) (x : Byte) : Nat :=
  let v := if refin then revBits 8 x.toNat else x.toNat
  (List.range 8).foldl (fun c i => checkBit w poly c (bitN v (7 - i))) c

/-- check(bytes) of R604. -/
def checkValue (w poly init : Nat) (refin refout invert : Bool) (bs : List Byte) : Nat :=
  let c := bs.foldl (checkByte w poly refin) (init % 2 ^ w)
  let c := if refout then revBits w c else c
  if invert then c ^^^ (2 ^ w - 1) else c

/-- CRC-32 of R489. -/
def crc32 (bs : List Byte) : Nat := checkValue 32 0x1EDC6F41 0xFFFFFFFF true true true bs

/-- CRC-16 of R694. -/
def crc16 (bs : List Byte) : Nat := checkValue 16 0x1021 0xFFFF false false false bs

/-! ### Messages and flits (R487–R489, R493, R498, R499, R517, R646) -/

/-- Consecutive fields, each a value and its width in bits, from bit 0. -/
def packBits : List (Nat × Nat) → Nat
  | [] => 0
  | (v, w) :: r => v % 2 ^ w + 2 ^ w * packBits r

/-- MSG code of a message; a row write travels as a posted write (R499, R646; log entry 30). -/
def msgCode : Msg → Nat
  | .postedWrite .. => 0x01
  | .rowWrite .. => 0x01
  | .gradRecord .. => 0x02
  | .closeNotice .. => 0x03
  | .opBind .. => 0x04
  | .e2eAck .. => 0x05
  | .parity .. => 0x06
  | .collective .. => 0x07
  | .readReq .. => 0x10
  | .rowReq .. => 0x11
  | .readResp .. => 0x12
  | .tick .. => 0x20
  | .stretch .. => 0x21
  | .barrier .. => 0x22
  | .verdict .. => 0x23
  | .lateError .. => 0x24
  | .watch .. => 0x25
  | .wake => 0x26
  | .reserved => 0xFF

/-- Whether a message takes the DATA form (R499). -/
def msgData : Msg → Bool
  | .postedWrite .. | .rowWrite .. | .gradRecord .. | .parity .. | .collective .. | .readResp .. => true
  | _ => false

def boolN (b : Bool) : Nat := if b then 1 else 0

/-- The fields of a message in order, with their widths; reserved ones are zero (R499, R646; log entry 87). -/
def msgFields : Msg → List (Nat × Nat)
  | .postedWrite ctx relaxed handle e2e addr _ _ => [(ctx, 13), (boolN relaxed, 1), (0, 2), (handle, 16), (e2e, 32), (addr, 44), (0, 12)]
  | .rowWrite ctx handle e2e _ _ _ row _ _ => [(ctx, 13), (0, 3), (handle, 16), (e2e, 32), (row, 44), (0, 12)]
  | .gradRecord bf16 segment _ ctx count row key _ =>
    [(boolN bf16, 1), (segment, 6), (0, 1), (ctx, 13), (0, 3), (count, 16), (row, 40), (key, 28), (0, 12)]
  | .closeNotice ctx key count handle frame => [(ctx, 13), (0, 3), (key, 28), (0, 4), (count, 48), (handle, 16), (frame, 64)]
  | .opBind ctx handle tag frame => [(ctx, 13), (0, 3), (handle, 16), (tag, 64), (frame, 64)]
  | .e2eAck vc next => [(vc, 2), (0, 14), (next, 32)]
  | .parity kind j part line sealNo count _ _ => [(kind, 3), (j, 1), (part, 3), (0, 1), (line, 32), (sealNo, 48), (count, 32)]
  | .collective ctx group chunk part _ _ => [(0, 8), (ctx, 13), (0, 3), (group, 12), (0, 4), (chunk, 32), (part, 8), (0, 40)]
  | .readReq ctx tag len addr => [(ctx, 13), (0, 3), (tag, 16), (len, 16), (0, 16), (addr, 64)]
  | .rowReq ctx tiers requester tag colFirst colCount row key version =>
    [(ctx, 13), (tiers, 5), (requester, 12), (0, 2), (tag, 16), (colFirst, 16), (colCount, 16), (0, 16), (row, 40), (0, 24), (key, 28), (0, 4), (version, 32)]
  | .readResp status part tag homeAddr _ _ => [(status, 4), (part, 4), (tag, 16), (0, 32), (homeAddr, 64)]
  | .tick depth master staged frame time corr period stPeriod phase stPhase applyAt =>
    [(depth, 8), (master, 12), (boolN staged, 1), (0, 11), (frame, 64), (time, 64), ((BitVec.ofInt 64 corr).toNat, 64), (period, 32),
      (stPeriod, 32), (phase, 64), (stPhase, 64), (applyAt, 64)]
  | .stretch group frame => [(group, 12), (0, 4), (frame, 64)]
  | .barrier index release part gen group frame =>
    [(index, 4), (boolN release, 1), (boolN part, 1), (0, 10), (gen, 31), (0, 1), (group, 12), (0, 4), (frame, 64)]
  | .verdict group vote frame => [(group, 12), (vote, 2), (0, 2), (frame, 64)]
  | .lateError ctx reason frame tag addr e2e => [(ctx, 13), (reason, 3), (frame, 64), (tag, 64), (addr, 64), (e2e, 32)]
  | .watch ctx submit frame => [(ctx, 13), (0, 3), (submit, 16), (frame, 64)]
  | .wake => []
  | .reserved => []

/-- The data that a DATA message carries (R499). -/
def msgPayload : Msg → List Byte
  | .postedWrite _ _ _ _ _ _ data => data
  | .rowWrite _ _ _ _ _ _ _ _ data => data
  | .gradRecord bf16 _ _ _ _ _ _ vals => vals.flatMap (fun v => if bf16 then toLe 2 (v.toNat / 2 ^ 16) else toLe 4 v.toNat)
  | .parity _ _ _ _ _ _ _ data => data
  | .collective _ _ _ _ _ data => data
  | .readResp _ _ _ _ _ data => data
  | _ => []

/-- Whether a message is the last of its chain: LAST is set on the final flit (R498). -/
def msgLast : Msg → Bool
  | .collective _ _ _ _ last _ => last
  | .readResp _ _ _ _ last _ => last
  | _ => true

/-- The 32-byte units of a PACKED message (R499). -/
def msgUnits : Msg → Nat
  | .tick .. => 2
  | _ => 1

/-- A run of bytes filled up with zeros, or cut, to a length. -/
def padTo (n : Nat) (bs : List Byte) : List Byte := (bs ++ List.replicate (n - bs.length) 0).take n

/-- A flit from its header fields and payload: 28 header bytes, the link CRC over them and the payload, and the payload (R487, R489). -/
def flitImage (typ vc : Nat) (last : Bool) (len dst ttl seq src tag key : Nat) (payload : List Byte) : List Byte :=
  let h := toLe 28 (packBits [(typ, 3), (vc, 2), (boolN last, 1), (0, 2), (len, 8), (dst, 12), (ttl, 4), (seq, 32), (src, 12), (0, 4), (tag, 16), (key, 128)])
  let p := padTo 256 payload
  h ++ toLe 4 (crc32 (h ++ p)) ++ p

/-- The 288 bytes of a sequenced flit (R487, R498). -/
def flitBytes (f : Flit) : List Byte :=
  if msgData f.msg then
    let data := msgPayload f.msg
    flitImage 2 f.vc (msgLast f.msg) (data.length - 1) f.dst f.ttl f.seq f.src f.tag (msgCode f.msg + 2 ^ 8 * packBits (msgFields f.msg)) data
  else
    let u := msgUnits f.msg
    flitImage 1 f.vc false u f.dst f.ttl f.seq f.src f.tag 0 (toLe (32 * u) (msgCode f.msg + 2 ^ 8 * u + 2 ^ 16 * packBits (msgFields f.msg)))

/-- The STATUS payload (R493). -/
def statusBytes (p : StatusFlit) : List Byte :=
  let vc := fun (v : VcStatus) =>
    toLe 16 (packBits [(v.next, 32), (v.nak.getD 0, 32), (v.freed, 16), (boolN v.nak.isSome, 1)])
  let lane := match p.lane with
    | some (f, w, sw, ok) => packBits [(f, 2), (w, 3), (sw, 12), (1, 1), (boolN ok, 1)]
    | none => 0
  padTo 64 (p.vcs.flatMap vc) ++ toLe 8 p.tTx ++ toLe 8 p.tEcho ++ toLe 8 p.tHold ++ toLe 4 lane

/-- The HELLO payload (R517). -/
def helloBytes (version pkg port cm : Nat) : List Byte := toLe 1 version ++ toLe 2 (pkg % 4096) ++ toLe 1 port ++ toLe 4 cm

/-- An IDLE flit, which goes out when no other flit is ready (R488). -/
def idleFlit (src peer : Nat) : List Byte := flitImage 0 0 false 0 peer 0 0 src 0 0 []

/-! ### Reed–Solomon codewords over GF(2^10) (R485, R600) -/

/-- α times an element; the field polynomial is x^10 + x^3 + 1. -/
def gf10Double (a : Nat) : Nat := if a < 512 then 2 * a else 2 * a ^^^ 0x409

/-- The product of two elements. -/
def gf10Mul (a b : Nat) : Nat :=
  (List.range 10).foldl (fun r i => let r := gf10Double r; if bitN b (9 - i) then r ^^^ a else r) 0

/-- The generator with roots α^0 to α^(m − 1): its coefficients after the leading 1, highest power first. -/
def rsGen (m : Nat) : List Nat :=
  let p := (List.range m).foldl (fun (x : List Nat × Nat) _ =>
    (List.zipWith (· ^^^ ·) (x.1 ++ [0]) (0 :: x.1.map (gf10Mul x.2)), gf10Double x.2)) ([1], 1)
  p.1.drop 1

/-- The `m` parity symbols of data symbols, the first data symbol being that of the highest power (log entry 87). -/
def rsParity (m : Nat) (data : List Nat) : List Nat :=
  let g := rsGen m
  data.foldl (fun r d =>
    let q := d ^^^ r.headD 0
    List.zipWith (· ^^^ ·) (r.drop 1 ++ [0]) (g.map (gf10Mul q))) (List.replicate m 0)

/-- A codeword of `k` data symbols and `m` parity symbols: data symbol i holds bits 10i + 9 to 10i (R485). -/
def rsWord (k m v : Nat) : List Nat :=
  let data := (List.range k).map (fun i => bitsN v (10 * i) 10)
  data ++ rsParity m data

/-- The 244 symbols of a strait's codeword: the marker with the codeword counter, then the flit (R485). -/
def flitWord (index : Nat) (flit : List Byte) : List Nat := rsWord 232 12 (index % 4096 + 2 ^ 16 * leBytes flit)

/-- The 272 symbols of a stream port's codeword: the marker with the codeword counter, then 320 bytes (R600). -/
def fryWord (index : Nat) (bs : List Byte) : List Nat := rsWord 258 14 (index % 4096 + 2 ^ 20 * leBytes bs)

/-- Where the symbols of a codeword go: symbol i of the stream to the (i mod n)-th working lane in ascending order (R484, R599). -/
def stripe (lanes : List Nat) (first : Nat) (symbols : List Nat) : List (Nat × Nat) :=
  symbols.zipIdx.map (fun x => (nthD lanes ((first + x.2) % max 1 lanes.length) 0, x.1))

/-! ### Stream frames (R601, R602) -/

/-- The covered header bytes of a frame: 0 to 7 and 16 to 27 (R602, R604). -/
def frameHead (typ channel alive len status arg tag : Nat) (end_ : Bool) : List Byte :=
  toLe 8 (typ % 16 + (if end_ then 16 else 0) + channel % 64 * 2 ^ 8 + alive % 2 ^ 16 * 2 ^ 16 + len % 2 ^ 16 * 2 ^ 32 + status % 256 * 2 ^ 48)
  ++ toLe 8 arg ++ toLe 4 tag

/-- The bytes of a stream frame: header with CHECK and HCRC, payload, and zeros up to whole 64-byte blocks (R601, R602). -/
def frameBytes (f : FFrame) : List Byte :=
  let c := frameHead f.typ f.channel f.alive f.payload.length 0 f.arg f.tag false
  let h := c.take 8 ++ toLe 8 f.check ++ c.drop 8
  padTo (cdiv (32 + f.payload.length) 64 * 64) (h ++ toLe 4 (crc32 h) ++ f.payload)

/-! ### What leaves on a link -/

/-- The flit that an output puts on a strait, with the place of its codeword (R487, R493, R506, R517). -/
def flitOn : Output → Option (WordAt × List Byte)
  | .flit _ w f => some (w, flitBytes f)
  | .status _ w src peer p => some (w, flitImage 4 0 false 0 peer 0 0 src 0 0 (statusBytes p))
  | .hello _ w version pkg port cm peer => some (w, flitImage 3 0 false 0 peer 0 0 pkg 0 0 (helloBytes version pkg port cm))
  | _ => none

/-- The symbols that an output puts on the lanes of a strait, in order: lane and symbol (R484, R485). -/
def symbolsOn (o : Output) : List (Nat × Nat) :=
  match flitOn o with
  | some (w, bs) => stripe w.lanes (244 * w.index) (flitWord w.index bs)
  | none => []

/-- The blocks that an output adds to a stream port's frame stream, by block number (R601). -/
def blocksOn : Output → List (Nat × List Byte)
  | .frame _ i _ f => (List.range ((frameBytes f).length / 64)).map (fun k => (i + k, ((frameBytes f).drop (64 * k)).take 64))
  | _ => []

end Sys2Proof.Machine
end

