-- ==== Sys2Proof/Machine/Links.lean ====
section
/-! DEFINITION. Sending over straits: routes, credits, combining in transit, bindings, posted sequences and late errors (ch. 5, ch. 14). -/

namespace Sys2Proof.Machine

/-! ### Straits -/

/-- A strait's state. -/
def State.strait (s : State) (n : Nat) : Strait := sgetD n {} s.net.straits

/-- Store a strait's state. -/
def State.setStrait (s : State) (n : Nat) (x : Strait) : State :=
  { s with net := { s.net with straits := sput n x s.net.straits } }

/-- STATE of a strait. -/
def State.strState (s : State) (n : Nat) : Nat := s.fld (.strStatus n) F.strStatus_STATE

/-- Whether a strait carries traffic: up or degraded (R505). -/
def State.strUp (s : State) (n : Nat) : Bool := s.strState n == 2 || s.strState n == 3

/-- Whether a strait carries flits of a virtual channel now: any when up, the control channel on the keep-alive wavelength (R520). -/
def State.carries (s : State) (n vc : Nat) : Bool :=
  (s.strUp n && (s.strait n).retrain.isNone) || (s.strState n == 4 && vc == 3)

/-- The strait that leads to a package: the first enabled one of the entry, primary, alternate 1, alternate 2, that is up or degraded, or in keep-alive (R505, R520, R522). -/
def State.routeOf (s : State) (p : Nat) : Option Nat :=
  let r := Reg.rasRoute p
  let up := fun n => s.strUp n || s.strState n == 4
  let n1 := s.fld r F.rasRoute_PRIMARY
  let n2 := s.fld r F.rasRoute_ALT1
  let n3 := s.fld r F.rasRoute_ALT2
  if s.isOwn p then none
  else if s.bit r F.rasRoute_P_EN ∧ up n1 then some n1
  else if s.bit r F.rasRoute_A1_EN ∧ up n2 then some n2
  else if s.bit r F.rasRoute_A2_EN ∧ up n3 then some n3
  else none

/-- Excluded wavelength of a fiber in a field of STR_LANE_MAP; 7 with the fiber down. -/
def exclOf (m fiber : Nat) : Nat := bitsN m (3 * fiber) 3

/-- Working fibers of a direction. -/
def fibersUp (m : Nat) : Nat := ((List.range 4).filter (fun i => exclOf m i != 7)).length

/-- The working logical lanes on which a strait sends, ascending: four of each working fiber, and the lowest one in keep-alive (R483, R484, R520). -/
def State.txLanes (s : State) (n : Nat) : List Nat :=
  let m := F.strLaneMap_TX_EXCL03.get (s.reg (.strLaneMap n))
  let l := ((List.range 4).filter (fun i => exclOf m i != 7)).flatMap (fun f => (List.range 4).map (fun j => 4 * f + j))
  if s.strState n = 4 then l.take 1 else l

/-- A codeword goes out on a strait: it is the next one of the symbol stream, which runs on since the link trained at 64 Gb/s on each lane, or 16 Gb/s in keep-alive, with IDLE codewords between (R484, R485, R520); EVENT 9 counts its flit (R721). -/
def State.sendWord (s : State) (n : Nat) (out : WordAt → Output) : State :=
  let x := s.strait n
  let lanes := s.txLanes n
  let rate := if s.strState n = 4 then 16 else 64 * lanes.length
  let i := max x.line.next ((s.frm.now - x.line.since) * rate / 2440)
  ((s.setStrait n { x with line := { x.line with next := i + 1 } }).emit (out ⟨i, lanes⟩)).perf 9 n 1

/-- The count of a strait's symbols restarts: the link trains or retrains (R484). -/
def State.lineStart (s : State) (n : Nat) : State := s.setStrait n { s.strait n with line := ⟨0, s.frm.now⟩ }

/-- Virtual channel v of a strait's sending side. -/
def Strait.txv (x : Strait) (v : Nat) : TxVc := nthD x.tx v {}

/-- Virtual channel v of a strait's receiving side. -/
def Strait.rxv (x : Strait) (v : Nat) : RxVc := nthD x.rx v {}

/-- Send flits of a virtual channel while it holds credits; gives the rest (R491, R492). -/
def State.sendQ (s : State) (n v : Nat) : List Flit → List Flit × State
  | [] => ([], s)
  | f :: q =>
    let x := s.strait n
    let t := x.txv v
    if t.credits = 0 then (f :: q, s)
    else
      let f := { f with seq := t.seq }
      let t := { t with seq := (t.seq + 1) % 2 ^ 32, credits := t.credits - 1, unacked := t.unacked ++ [⟨f, s.frm.now, 0⟩] }
      let s := s.setStrait n { x with tx := x.tx.set v t }
      (s.sendWord n (fun w => .flit n w f)).sendQ n v q

/-- Change the sending side of a virtual channel. -/
def State.modTx (s : State) (n v : Nat) (f : TxVc → TxVc) : State :=
  let x := s.strait n
  s.setStrait n { x with tx := x.tx.set v (f (x.txv v)) }

/-- Send what a virtual channel of a strait can send now. -/
def State.pump (s : State) (n v : Nat) : State :=
  if s.carries n v then
    let a := s.sendQ n v ((s.strait n).txv v).ahead
    let q := a.2.sendQ n v ((s.strait n).txv v).queue
    q.2.modTx n v (fun t => { t with ahead := a.1, queue := q.1 })
  else s

/-- Send at most `k` flits of a virtual channel, resent ones of a failed strait first (R491, R507). -/
def State.pumpSome (s : State) (n v k : Nat) : State :=
  if s.carries n v then
    let t := (s.strait n).txv v
    let l := (t.ahead ++ t.queue).take k
    let r := s.sendQ n v l
    let m := l.length - r.1.length
    r.2.modTx n v (fun t => { t with ahead := t.ahead.drop m, queue := t.queue.drop (m - t.ahead.length) })
  else s

/-- Rounds of the virtual channels 2, 0 and 1 with weights 2, 1 and 1 (R491). -/
def State.pumpRounds (s : State) (n : Nat) : Nat → State
  | 0 => s
  | k + 1 => (((s.pumpSome n 2 2).pumpSome n 0 1).pumpSome n 1 1).pumpRounds n k

/-- Send what a strait can send: the control channel first, then the others in weighted turn (R491). -/
def State.pumpAll (s : State) (n : Nat) : State :=
  let s := s.pump n 3
  s.pumpRounds n (((s.strait n).tx.map (fun t => t.ahead.length + t.queue.length)).foldl max 0)

/-- Whether two gradient records combine: all of R504, and counts of at most 65,535 together (R201, R202). -/
def combines (f g : Flit) : Bool :=
  match f.msg, g.msg with
  | .gradRecord b s _ c n r k _, .gradRecord b' s' _ c' n' r' k' _ =>
    b == b' && s == s' && c == c' && r == r' && k == k' && f.dst == g.dst && f.tag == g.tag && decide (n + n' ≤ 65535)
  | _, _ => false

/-- Elementwise FP32 sum of two records, rounded to BF16 where they travel so (R203); what only the longer one holds stays as it is. -/
def addVals (bf16 : Bool) : List W32 → List W32 → List W32
  | [], b => b
  | a, [] => a
  | x :: a, y :: b =>
    let v := FV.f32 (FV.add (fv32 x) (fv32 y))
    (if bf16 then bits32 ((fmtOf 1).decode ((fmtOf 1).convert false false v)) else bits32 v) :: addVals bf16 a b

/-- The waiting record `g` with an arriving one added (R201, R203, R503). -/
def combined (g f : Flit) : Flit :=
  match g.msg, f.msg with
  | .gradRecord b s i c n r k v, .gradRecord _ _ _ _ n' _ _ v' => { g with msg := .gradRecord b s i c (n + n') r k (addVals b v v') }
  | _, _ => g

/-- Whether a flit carries a gradient record. -/
def Flit.isRec (f : Flit) : Bool := match f.msg with | .gradRecord .. => true | _ => false

/-- Add an arriving record into the first waiting record that it combines with (R201). -/
def combineInto (f : Flit) : List Flit → Option (List Flit)
  | [] => none
  | g :: q => if combines g f then some (combined g f :: q) else (combineInto f q).map (g :: ·)

/-- What an arriving flit combines with: nothing while the combine buffer holds its 2,048 records (R202). -/
def combineWith (f : Flit) (q : List Flit) : Option (List Flit) :=
  if 2048 ≤ (q.filter Flit.isRec).length then none else combineInto f q

/-- A flit reaches the egress of a strait (R201, R492). -/
def State.egress (s : State) (n : Nat) (f : Flit) : State :=
  let x := s.strait n
  let t := x.txv f.vc
  match combineWith f t.queue with
  | some q =>
    (s.setStrait n { x with tx := x.tx.set f.vc { t with queue := q } }).wrapFld .tblTransitCombined F.tblTransitCombined_COUNT 1
  | none => (s.setStrait n { x with tx := x.tx.set f.vc { t with queue := t.queue ++ [f] } }).pump n f.vc

/-- Send a flit along the route of its destination; with no usable strait it waits (R505, R509). -/
def State.route (s : State) (f : Flit) : State :=
  match s.routeOf f.dst with
  | some n => s.egress n f
  | none => { s with net := { s.net with stuck := s.net.stuck ++ [f] } }

/-- Flits that waited for a route are sent when one is usable. -/
def State.unstick (s : State) : State :=
  let l := s.net.stuck
  ({ s with net := { s.net with stuck := [] } } : State).each l State.route

/-- Send a message of this package, with TTL 15 (R506). -/
def State.send (s : State) (dst vc tag : Nat) (m : Msg) : State := s.route ⟨vc, dst, s.ownId, 15, 0, tag, m⟩

/-- The frame that a partition's operations belong to: that of the last tick that started one for it, before the periods by which it is stretched (R51). -/
def State.frameOf (s : State) (p : Nat) : Nat := s.frame - (s.part p).stretch

/-- Send a message of a partition's frame whose flits carry the frame tag (R499). -/
def State.sendTagged (s : State) (p dst vc : Nat) (m : Msg) : State := s.send dst vc (s.frameOf p % 65536) m

/-- Send a tick message to the neighbour of a strait only, with TTL 0 (R506). -/
def State.sendTick (s : State) (n : Nat) (m : Msg) : State :=
  if s.strUp n || s.strState n == 4 then
    let f : Flit := ⟨3, s.fld (.strStatus n) F.strStatus_PEER, s.ownId, 0, 0, 0, m⟩
    s.egress n f
  else s

/-! ### Frame tags (R72, R75) -/

/-- The frame that a tag names, seen from the frame in progress: within 2^15 of it. -/
def tagFrame (cur tag : Nat) : Int :=
  let d := (tag + 65536 - cur % 65536) % 65536
  if d < 32768 then (cur : Int) + d else (cur : Int) + d - 65536

/-! ### Posted writes from end to end (R212, R501) -/

/-- The 16-bit handle of an operation (R501). -/
def opHandle (q : Nat) : Nat := q % 65536

/-- OP_BIND before the first POSTED_WRITE or CLOSE_NOTICE of an operation to a destination in a frame (R501). -/
def State.bind (s : State) (q dst : Nat) : State :=
  match s.op? q with
  | none => s
  | some o =>
    if (q, dst) ∈ s.net.bound then s
    else
      let s := { s with net := { s.net with bound := (q, dst) :: s.net.bound } }
      s.send dst 0 0 (.opBind o.ctx (opHandle q) o.tag o.frame)

/-- Give a message its sequence number toward its destination. -/
def withE2e (m : Msg) (e : Nat) : Msg :=
  match m with
  | .postedWrite c r h _ a ad d => .postedWrite c r h e a ad d
  | .parity k j p l sl n _ d => .parity k j p l sl n e d
  | .rowWrite c h _ q t k r u d => .rowWrite c h e q t k r u d
  | m => m

/-- Whether a posted message is RELAXED (R219). -/
def Posted.relaxed (w : Posted) : Bool := match w.msg with | .postedWrite _ r .. => r | _ => false

/-- Remember the number of a RELAXED write for a late error that names it, among the 65,536 before the next one to its destination (R219; log entry 75). -/
def NetSt.noteRelaxed (x : NetSt) (w : Posted) : NetSt :=
  if w.relaxed then
    { x with relaxed := (w.dst, w.e2e) :: x.relaxed.filter (fun y => y.1 != w.dst || decide ((w.e2e + 2 ^ 32 - y.2) % 2 ^ 32 < 65536)) }
  else x

/-- Number and send one posted message, or hold it while 512 are unacknowledged (R212). -/
def State.postNow (s : State) (w : Posted) : State :=
  let t := sgetD w.dst {} s.net.tx
  if 512 ≤ t.unacked.length then
    { s with net := { s.net with tx := sput w.dst { t with wait := t.wait ++ [w] } s.net.tx } }
  else
    let w := { w with e2e := t.next, msg := withE2e w.msg t.next, at_ := s.frm.now }
    let t := { t with next := (t.next + 1) % 2 ^ 32, unacked := t.unacked ++ [w] }
    let s : State := { s with net := { s.net.noteRelaxed w with tx := sput w.dst t s.net.tx } }
    s.send w.dst 0 0 w.msg

/-- Post a message of an operation, bound first (R212, R501). -/
def State.post (s : State) (op : Option Nat) (ctx dst : Nat) (m : Msg) : State :=
  let s := match op with | some q => s.bind q dst | none => s
  s.postNow ⟨0, dst, op, ctx, m, s.frm.now, none⟩

/-- Cut a run of bytes into pieces of at most `n`, each with its offset. -/
def chunksAux (n : Nat) : Nat → Nat → List Byte → List (Nat × List Byte)
  | 0, _, _ => []
  | _ + 1, _, [] => []
  | k + 1, o, bs => (o, bs.take n) :: chunksAux n k (o + n) (bs.drop n)

def chunks (n : Nat) (bs : List Byte) : List (Nat × List Byte) := chunksAux n (bs.length + 1) 0 bs

/-- Write bytes to another package as posted writes of at most 256 bytes (R212, R499). -/
def State.postBytes (s : State) (op : Option Nat) (ctx : Nat) (relaxed : Bool) (a : Nat) (bs : List Byte) : State :=
  let h := match op with | some q => opHandle q | none => 0
  let dst := pkgOf a
  s.each (chunks 256 bs) (fun s c => s.post op ctx dst (.postedWrite ctx relaxed h 0 (remoteOff a + c.1) false c.2))

/-- Posted writes of an operation that are not acknowledged (R240). -/
def State.unackedOf (s : State) (q : Nat) : Nat :=
  sumN (s.net.tx.map (fun t => ((t.2.unacked ++ t.2.wait).filter (fun w => w.op == some q)).length))

/-- Whether every posted write of a context's operations admitted before one is acknowledged, completed operations and RELAXED writes among them (R105). -/
def State.ackedBefore (s : State) (c q : Nat) : Bool :=
  s.net.tx.all (fun t => (t.2.unacked ++ t.2.wait).all (fun w => w.ctx != c || w.op.all (fun i => decide (q ≤ i))))

/-! ### Late errors (R216–R219) -/

/-- A late error of a RELAXED write is logged, and changes nothing else (R219). -/
def State.lateErrorRelaxed (s : State) (ctx reason tag addr : Nat) : State :=
  let p := s.partOf ctx
  s.eventW 0x0402 (689 + p) (some ctx) (some p) reason (addr + tag * 2 ^ 64)

/-- A late error is logged against an operation of a context: the frame is tainted and the operation fails (R217). -/
def State.lateErrorIn (s : State) (ctx reason tag addr : Nat) : State :=
  let p := s.partOf ctx
  let s := s.eventW 0x0401 (689 + p) (some ctx) (some p) reason (addr + tag * 2 ^ 64)
  let s := s.modPart p (fun x => { x with taint := true, late := x.late + 1 })
  { s with ops := s.ops.map (fun o =>
      if o.ctx = ctx ∧ o.tag = tag ∧ o.stage ≠ .refused ∧ o.status ≠ 0x60 then { o with late := satAdd 16 o.late 1, status := 0x30 } else o) }

/-- LATE_ERROR from a package: of a posted write, it is known by its number whether the write was RELAXED (R217, R219). -/
def State.lateErrorFrom (s : State) (src ctx reason tag addr e2e : Nat) : State :=
  if reason ≤ 3 ∧ (src, e2e) ∈ s.net.relaxed then
    ({ s with net := { s.net with relaxed := s.net.relaxed.filter (· ≠ (src, e2e)) } } : State).lateErrorRelaxed ctx reason tag addr
  else s.lateErrorIn ctx reason tag addr

/-- A late error against the operation with an admission number. -/
def State.lateErrorOp (s : State) (q reason addr : Nat) : State :=
  match s.op? q with
  | some o => if o.desc.flag 2 then s.lateErrorRelaxed o.ctx reason o.tag addr else s.lateErrorIn o.ctx reason o.tag addr
  | none => s

/-- Send a message under one of the IDs that this package serves. -/
def State.sendFrom (s : State) (id dst vc tag : Nat) (m : Msg) : State := s.route ⟨vc, dst, id, 15, 0, tag, m⟩

/-- Acknowledge what has been applied of a sequence, under the ID to which it came (R215, R655). -/
def State.e2eAckOut (s : State) (key : Nat) : State :=
  let r := sgetD key {} s.net.rx
  let s : State := { s with net := { s.net with rx := sput key { r with since := 0 } s.net.rx } }
  let id := if key < 4096 then s.ownId else s.fld .rasAlias F.rasAlias_ID
  s.sendFrom id (key % 4096) 2 0 (.e2eAck 0 r.next)

/-- Write a late-error message for a write that failed here, after acknowledging what came before it, to this package's own ID or to its alias (R215, R216, R501, R655). -/
def State.lateErrorOut (s : State) (src ctx handle reason addr e2e : Nat) : State :=
  let due := fun key => (sgetD key {} s.net.rx).since ≠ 0
  let s := s.each ([src, src + 4096].filter (fun k => decide (due k))) State.e2eAckOut
  let b := (s.net.bindings.find? (fun b => b.src == src && b.handle == handle)).getD ⟨src, handle, ctx, 0, 0⟩
  s.send src 3 0 (.lateError b.ctx reason b.frame b.tag addr e2e)

/-- OP_BIND arrives: at most 4,096 bindings are kept for a source (R501). -/
def State.bindIn (s : State) (src ctx handle tag frame : Nat) : State :=
  let others := s.net.bindings.filter (fun b => !(b.src == src && b.handle == handle))
  if 4096 ≤ (others.filter (fun b => b.src == src)).length then s
  else { s with net := { s.net with bindings := others ++ [⟨src, handle, ctx, tag, frame⟩] } }

/-- At a tick, bindings of frames that have ended are released, and the marks of what they bound; a stretched frame has not ended (R51, R501). -/
def State.bindTick (s : State) : State :=
  { s with net := { s.net with
      bound := s.net.bound.filter (fun b => (s.op? b.1).any (fun o => decide (s.frameOf o.part ≤ o.frame))),
      bindings := s.net.bindings.filter (fun b => decide (s.frameOf (s.partOf b.ctx) ≤ b.frame)) } }

/-- E2E_ACK: every posted write below NEXT is acknowledged, and waiting ones go out (R215). -/
def State.e2eAckIn (s : State) (src next : Nat) : State :=
  match sget src s.net.tx with
  | none => s
  | some t =>
    let passed := fun (w : Posted) => decide ((next + 2 ^ 32 - w.e2e - 1) % 2 ^ 32 < 2 ^ 31)
    let s := { s with net := { s.net with tx := sput src { t with unacked := t.unacked.filter (fun w => !passed w), wait := [] } s.net.tx } }
    s.each t.wait State.postNow

/-- POSTED_WRITE_RESEND: every posted write unacknowledged 20 µs after it was sent is sent again along the current route (R508). -/
def postedWriteResend (dst at_ : Nat) (s : State) : State :=
  let s := s.reach at_
  match sget dst s.net.tx with
  | none => s
  | some t =>
    let due := fun (w : Posted) => decide (w.at_ + 20000 ≤ s.frm.now)
    let l := t.unacked.filter due
    let un : List Posted := t.unacked.map (fun w => if due w then { w with at_ := s.frm.now } else w)
    let s := { s with net := { s.net with tx := sput dst { t with unacked := un } s.net.tx } }
    s.each l (fun s w => s.send dst 0 0 w.msg)

end Sys2Proof.Machine
end

