-- ==== Sys2Proof/Machine/Sync.lean ====
section
/-! DEFINITION. Sync words, monitors, watches and barriers (ch. 13), and writes to memory that pass the sync ports. -/

namespace Sys2Proof.Machine

/-! ### Conditions, monitors and watches (R462–R468) -/

/-- The CMP codes of FENCE and ARM: 0 equal, 1 unsigned greater or equal, 2 not equal (R462). -/
def syncCond (cond word cmp : Nat) : Bool :=
  if cond = 0 then word == cmp else if cond = 1 then decide (cmp ≤ word) else word != cmp

/-- Key of a byte of a core's SRAM (R392). -/
def sramKey (core off : Nat) : Nat := 2 ^ 60 + core * 0xC0000 + off

/-- The 32-bit word under a key. -/
def State.word (s : State) (k : Nat) : Nat := leBytes (s.kRd k 4)

/-- The mask of satisfied monitors of a core (R464). -/
def State.monMask (s : State) (core : Nat) : Nat :=
  sumN ((List.range 4).map (fun m => if s.sync.mons.any (fun x => x.core == core && x.idx == m && x.sat) then 2 ^ m else 0))

/-- A waiting core with a satisfied monitor runs again, and WAIT returns the mask (R464, R465). -/
def State.wakeWaiters (s : State) : State :=
  let up := s.sync.waits.filter (fun w => s.monMask w.1 != 0)
  let s := { s with sync := { s.sync with waits := s.sync.waits.filter (fun w => s.monMask w.1 == 0) } }
  s.each up (fun s w => s.emit (.coreValue w.1 (s.monMask w.1)))

/-- A FENCE's sync-word condition holds (R468). -/
def State.fenceHolds (s : State) (q : Nat) : State := (s.modOp q (fun o => { o with await := 0 })).settleOp q

/-- The ports re-evaluate monitors and watches on the words of a run of bytes (R462, R468). -/
def State.ports (s : State) (k n : Nat) : State :=
  let hit := fun a => decide (a < k + n) && decide (k < a + 4)
  let mons : List Mon := s.sync.mons.map (fun m =>
    let a := sramKey m.core m.off
    if !m.sat && hit a && syncCond m.cond (s.word a) m.cmp then { m with sat := true } else m)
  let fired := s.sync.watches.filter (fun w => hit w.key && syncCond w.cond (s.word w.key) w.value)
  let s := { s with sync := { s.sync with mons := mons, watches := s.sync.watches.filter (fun w => w ∉ fired) } }
  (s.each fired (fun s w => s.fenceHolds w.op)).wakeWaiters

/-- Write bytes under a key; writes to SRAM pass the sync ports (R457). -/
def State.write (s : State) (k : Nat) (bs : List Byte) : State :=
  let s := s.kWr k bs
  if k / 2 ^ 60 = 1 ∧ !(s.sync.mons.isEmpty && s.sync.watches.isEmpty) then s.ports k bs.length else s

/-! ### Protected ranges of the shoal (R641, R648) -/

/-- The protected ranges of this member: key and bytes. -/
def State.shoalRanges (s : State) : List (Nat × Nat) :=
  (List.range 8).filterMap (fun x =>
    let n := s.fld (.rasShoalRangeLines x) F.rasShoalRangeLines_LINES
    if n = 0 then none else some (memKey (s.fld (.rasShoalRange x) F.rasShoalRange_BASE * 2048), 2048 * n))

/-- Set RAS_SHOAL_STATUS.STATE and log it (R648, R658). -/
def State.shoalState (s : State) (v : Nat) : State :=
  if s.fld .rasShoalStatus F.rasShoalStatus_STATE = v then s
  else ((s.setFld .rasShoalStatus F.rasShoalStatus_STATE v).relevel 755).eventW 0x0707 755 none none v 0

/-- An unlogged write into a protected range marks the shoal stale (R648). -/
def State.staleIf (s : State) (k n : Nat) : State :=
  if s.bit .rasShoalCtrl F.rasShoalCtrl_ENABLE ∧ s.fld .rasShoalStatus F.rasShoalStatus_STATE ∉ [0, 3, 5]
      ∧ s.shoalRanges.any (fun r => overlap k n r.1 r.2) then s.shoalState 3
  else s

/-- Keep what a move or a version switch is about to overwrite of protected lines, for the seal of its tick (R644). -/
def State.tickLog (s : State) (k n : Nat) : State :=
  if s.bit .rasShoalCtrl F.rasShoalCtrl_ENABLE ∧ s.shoalRanges.any (fun r => overlap k n r.1 r.2) then
    { s with shoal := { s.shoal with tick := (k, s.kRd k n) :: s.shoal.tick } }
  else s

/-- A write of a move or a version switch (R644). -/
def State.tickWrite (s : State) (k : Nat) (bs : List Byte) : State := (s.tickLog k bs.length).write k bs

/-- A write that no undo record covers: BAR4, a core's store, COPY, a posted write (R457, R648). -/
def State.store (s : State) (k : Nat) (bs : List Byte) : State := (s.write k bs).staleIf k bs.length

/-- BAR4_WRITE: device memory, or nothing for an unusable offset, which is counted (R564, R457). -/
def bar4Write (off : Nat) (bs : List Byte) (s : State) : State :=
  match s.bar4 off bs.length with
  | none => s.satFld .hstErr F.hstErr_BAR4_MISS 1
  | some k => (s.takeTokens 64 k bs.length).store k bs

/-! ### Accesses of cores (R457–R461) -/

/-- The next free read tag. -/
def State.newTag (s : State) : Nat × State := (s.net.tag, { s with net := { s.net with tag := (s.net.tag + 1) % 65536 } })

/-- Whether an address is a word of space 1, aligned, of some package (R456). -/
def syncWord (a : Nat) : Bool := a % 4 == 0 && (spaceOf a == 1 || (spaceOf a == 4 && bitN (offOf a) 43)) && decide (remoteOff a % 2 ^ 43 + 4 ≤ sramSize)

/-- The package of a sync word is this one (R390). -/
def State.syncLocal (s : State) (a : Nat) : Bool := s.isOwn (pkgOf a)

/-- Key of a sync word of this package. -/
def syncKey (a : Nat) : Nat := 2 ^ 60 + remoteOff a % 2 ^ 43

/-- LOAD: the word's value, from another package by a read request (R457). -/
def syncLoad (core ctx a : Nat) (s : State) : State :=
  if !syncWord a then s
  else if s.syncLocal a then s.emit (.coreValue core (s.word (syncKey a)))
  else
    let t := s.newTag
    let s := { t.2 with sync := { t.2.sync with loads := t.2.sync.loads ++ [(t.1, core)] } }
    s.send (pkgOf a) 1 0 (.readReq ctx t.1 4 a)

/-- A core's store or add to a word of another package: a posted write of that core (R460). -/
def State.coreShip (s : State) (core ctx a v : Nat) (add : Bool) : State :=
  s.postNow ⟨0, pkgOf a, none, ctx, .postedWrite ctx false 0 0 (remoteOff a) add (toLe 4 v), s.frm.now, some core⟩

/-- STORE: the word is written, and monitors are re-evaluated (R457). -/
def syncStore (core ctx a v : Nat) (s : State) : State :=
  if !syncWord a then s
  else if s.syncLocal a then s.store (syncKey a) (toLe 4 v)
  else s.coreShip core ctx a v false

/-- ADD: word := (word + operand) mod 2^32; a core of this package gets the old value (R457, R460). -/
def syncAdd (core ctx a v : Nat) (s : State) : State :=
  if !syncWord a then s
  else if s.syncLocal a then
    let old := s.word (syncKey a)
    (s.store (syncKey a) (toLe 4 (old + v))).emit (.coreValue core old)
  else s.coreShip core ctx a v true

/-- ARM: monitor m watches a word of the core's own SRAM; the condition is evaluated at once (R462). -/
def syncArm (core m off cmp cond : Nat) (s : State) : State :=
  if core < 16384 ∧ m < 4 ∧ off % 4 = 0 ∧ off + 4 ≤ 0xC0000 ∧ cond ≤ 2 then
    let x : Mon := ⟨core, m, off, cmp % 2 ^ 32, cond, syncCond cond (s.word (sramKey core off)) (cmp % 2 ^ 32)⟩
    { s with sync := { s.sync with mons := s.sync.mons.filter (fun y => !(y.core == core && y.idx == m)) ++ [x] } }
  else s

/-- DISARM clears a monitor (R463). -/
def syncDisarm (core m : Nat) (s : State) : State :=
  { s with sync := { s.sync with mons := s.sync.mons.filter (fun y => !(y.core == core && y.idx == m)) } }

/-- WAIT: the mask at once when a monitor is satisfied, else the core's clock stops for at most L cycles (R464). -/
def syncWait (core limit at_ : Nat) (s : State) : State :=
  let s := s.reach at_
  if core < 16384 ∧ 1 ≤ limit ∧ limit ≤ 2 ^ 24 then
    if s.monMask core ≠ 0 then s.emit (.coreValue core (s.monMask core))
    else
      let w := s.sync.waits.filter (fun w => w.1 ≠ core) ++ [(core, s.frm.now, cyclesNs limit (s.pstate (core / 128)))]
      { s with sync := { s.sync with waits := w } }
  else s

/-- WAIT_LIMIT_EXPIRY: the limit of a waiting core passes, and WAIT returns 0, or the mask satisfied in that cycle (R464). -/
def waitLimitExpiry (core at_ : Nat) (s : State) : State :=
  let s := s.reach at_
  match s.sync.waits.find? (fun w => w.1 == core) with
  | none => s
  | some w =>
    if w.2.1 + w.2.2 ≤ s.frm.now then
      ({ s with sync := { s.sync with waits := s.sync.waits.filter (fun w => w.1 ≠ core) } } : State).emit (.coreValue core (s.monMask core))
    else s

/-- Cores that wait in tasks which a test names wake and lose their monitors, and the tasks are discarded (R466). -/
def State.wakeTasks (s : State) (f : Task → Bool) : State :=
  let cores := s.tasks.filterMap (fun t => if f t then (match t.at_ with | .running c => some c | _ => none) else none)
  let up := s.sync.waits.filter (fun w => decide (w.1 ∈ cores))
  let s := { s with sync := { s.sync with
    waits := s.sync.waits.filter (fun w => decide (w.1 ∉ cores)),
    mons := s.sync.mons.filter (fun m => !up.any (fun w => w.1 == m.core)) } }
  (s.each up (fun s w => s.emit (.coreValue w.1 0))).dropTasks f

/-! ### Barriers (R469–R480) -/

/-- The unit of a scope that holds a core: cluster, region, die, package (R469). -/
def barUnit (scope core : Nat) : Nat :=
  if scope = 0 then core / 16 else if scope = 1 then core / 128 else if scope = 2 then core / 2048 else 0

/-- Key of the instance of barrier k of partition p in a unit. -/
def barKey (p k unit : Nat) : Nat := (p * 16 + k) * 16384 + unit

/-- SCOPE of a barrier. -/
def State.barScope (s : State) (p k : Nat) : Nat := s.fld (.schBarCfg p k) F.schBarCfg_SCOPE

/-- An instance of a barrier. -/
def State.bar (s : State) (p k u : Nat) : Bar := sgetD (barKey p k u) {} s.sync.bars

/-- Usable logical cores of a partition, rising (R469). -/
def State.coresOfPart (s : State) (p : Nat) : List Nat :=
  (s.regionsOf p).flatMap (fun r => ((List.range 128).map (128 * r + ·)).filter (fun c => c ∉ s.absent))

/-- The participants of an instance (R469). -/
def State.participants (s : State) (p k u : Nat) : List Nat :=
  (s.coresOfPart p).filter (fun c => barUnit (s.barScope p k) c == u)

/-- Store an instance, and bring SCH_BAR_STATUS up to date: it reports the instance of the partition's lowest core. -/
def State.setBar (s : State) (p k u : Nat) (b : Bar) : State :=
  let s := { s with sync := { s.sync with bars := sput (barKey p k u) b s.sync.bars } }
  if barUnit (s.barScope p k) ((s.coresOfPart p).headD 0) = u then
    let s := s.setFld (.schBarStatus p k) F.schBarStatus_GENERATION b.gen
    let s := s.setFld (.schBarStatus p k) F.schBarStatus_PARTIAL (if b.partial_ then 1 else 0)
    s.setFld (.schBarStatus p k) F.schBarStatus_ARRIVED (min b.arrived.length 65535)
  else s

/-- Whether every local participant of the open generation has arrived. -/
def Bar.full (b : Bar) : Bool := !b.expected.isEmpty && b.expected.all (fun c => c ∈ b.arrived)

/-- Rank of this package in a group (R524). -/
def State.rankIn (s : State) (g : Group) : Option Nat := findIdxN (fun m => s.isOwn m.1) 0 g.members

/-- Ranks of the children of rank i among n members (R476). -/
def childRanks (i n : Nat) : List Nat := (List.range n).filter (fun j => decide (1 ≤ j) && (j - 1) / 16 == i)

/-- The group of a SCOPE 4 barrier. -/
def State.barGroup (s : State) (p k : Nat) : Option Group := sget (s.fld (.schBarCfg p k) F.schBarCfg_GROUP) s.groups

/-- Whether the package root has its own token and those of its children (R472, R476). -/
def State.barReady (s : State) (p k u : Nat) : Bool :=
  let b := s.bar p k u
  b.full && (s.barScope p k != 4 ||
    match s.barGroup p k with
    | none => false
    | some g =>
      match s.rankIn g with
      | none => false
      | some r => (childRanks r g.members.length).all (fun j => j ∈ b.tokens))

/-- SCOPE 4: a package root with every token sends one to its parent package, once (R476, R634). -/
def State.barUp (s : State) (p k : Nat) : State :=
  if s.barScope p k = 4 ∧ s.barReady p k 0 ∧ !(s.bar p k 0).sent then
    match s.barGroup p k with
    | none => s
    | some g =>
      match s.rankIn g with
      | none => s
      | some 0 => s
      | some r =>
        let b := s.bar p k 0
        let s := s.setBar p k 0 { b with sent := true }
        s.sendTagged p (nthD g.members ((r - 1) / 16) (0, 0)).1 3
          (.barrier k false false ((b.gen + 1) % 2 ^ 31) (s.fld (.schBarCfg p k) F.schBarCfg_GROUP) (s.frameOf p))
  else s

/-- Count an arrival, or hold it for the next generation: a core's second, and that of a core that joined after the open one began (R472, R474). -/
def State.arriveNow (s : State) (core p k : Nat) : State :=
  let u := barUnit (s.barScope p k) core
  let b := s.bar p k u
  let b := if b.arrived.isEmpty then { b with expected := s.participants p k u } else b
  if core ∈ b.arrived then (s.setBar p k u { b with held := insertNew core b.held }).barUp p k
  else if core ∈ b.expected then (s.setBar p k u { b with arrived := b.arrived ++ [core] }).barUp p k
  else s.setBar p k u { b with held := insertNew core b.held }

/-- Whether every earlier write of a core has been applied at its destination (R471). -/
def State.coreDrained (s : State) (core : Nat) : Bool :=
  s.net.tx.all (fun t => (t.2.unacked ++ t.2.wait).all (fun w => w.core != some core))

/-- ARRIVE k of a core, once its earlier writes have been applied (R471). -/
def arrive (core k : Nat) (s : State) : State :=
  let p := s.fld (.schRegState (core / 128)) F.schRegState_PARTITION
  if core < 16384 ∧ p < 64 ∧ k < 16 ∧ core ∉ s.absent ∧ s.bit (.schBarCfg p k) F.schBarCfg_ENABLE then
    if s.coreDrained core then s.arriveNow core p k
    else { s with sync := { s.sync with arrivals := s.sync.arrivals ++ [(core, k)] } }
  else s

/-- Arrivals whose core's writes have been applied since are counted (R471). -/
def State.retryArrivals (s : State) : State :=
  let go := s.sync.arrivals.filter (fun a => s.coreDrained a.1)
  let s := { s with sync := { s.sync with arrivals := s.sync.arrivals.filter (fun a => !s.coreDrained a.1) } }
  s.each go (fun s a => s.arriveNow a.1 (s.fld (.schRegState (a.1 / 128)) F.schRegState_PARTITION) a.2)

/-- The release of a generation on this package: the value goes to every participant's word, and held arrivals open the next generation (R473, R474). -/
def State.releaseLocal (s : State) (p k u gen : Nat) (part_ : Bool) : State :=
  let b := s.bar p k u
  let who := if b.expected.isEmpty then s.participants p k u else b.expected
  let v := gen + (if part_ then 2 ^ 31 else 0)
  let s := s.setBar p k u { gen := gen, partial_ := part_, held := [] }
  let s := s.each who (fun s c => s.store (sramKey c (s.fld (.schBarCfg p k) F.schBarCfg_RELEASE_OFFSET)) (toLe 4 v))
  s.each b.held (fun s c => s.arriveNow c p k)

/-- Send a release down the tree of a SCOPE 4 barrier (R476). -/
def State.releaseDown (s : State) (p k gen : Nat) (part_ : Bool) : State :=
  match s.barGroup p k with
  | none => s
  | some g =>
    match s.rankIn g with
    | none => s
    | some r =>
      s.each (childRanks r g.members.length) (fun s j =>
        s.sendTagged p (nthD g.members j (0, 0)).1 3
          (.barrier k true part_ gen (s.fld (.schBarCfg p k) F.schBarCfg_GROUP) (s.frameOf p)))

/-- BARRIER_RELEASE: the root of an instance has every token, so the generation advances and is released (R473, R476). -/
def barrierRelease (p k u : Nat) (s : State) : State :=
  if p < 64 ∧ k < 16 ∧ s.bit (.schBarCfg p k) F.schBarCfg_ENABLE ∧ s.barReady p k u then
    let gen := ((s.bar p k u).gen + 1) % 2 ^ 31
    if s.barScope p k = 4 then
      match (s.barGroup p k).bind s.rankIn with
      | some 0 => (s.releaseDown p k gen false).releaseLocal p k 0 gen false
      | _ => s
    else s.releaseLocal p k u gen false
  else s

/-- The cut-off at the reduce boundary: open SCOPE 4 generations with CUTOFF 1 release with PARTIAL set, here and down the tree (R476, R477). -/
def State.barCutoff (s : State) (p : Nat) : State :=
  s.each (List.range 16) (fun s k =>
    if s.bit (.schBarCfg p k) F.schBarCfg_ENABLE ∧ s.barScope p k = 4 ∧ s.bit (.schBarCfg p k) F.schBarCfg_CUTOFF
        ∧ !((s.bar p k 0).arrived.isEmpty && (s.bar p k 0).tokens.isEmpty) then
      let gen := ((s.bar p k 0).gen + 1) % 2 ^ 31
      (s.releaseDown p k gen true).releaseLocal p k 0 gen true
    else s)

/-- A system barrier message: a child's token, or the release from the parent; a second copy of a token whose generation was released whole changes nothing (R476, R477, R508); `straggler` for tokens that R69 or R74 make late. -/
def State.barrierIn (s : State) (src k : Nat) (release part_ : Bool) (gen group : Nat) (straggler : Bool) : State :=
  match sget group s.groups with
  | none => s
  | some g =>
    let p := s.partOf g.ctx
    if !(s.bit (.schBarCfg p k) F.schBarCfg_ENABLE) ∨ s.barScope p k ≠ 4
        ∨ s.fld (.schBarCfg p k) F.schBarCfg_GROUP ≠ group then s
    else
      let b := s.bar p k 0
      if gen ≠ (b.gen + 1) % 2 ^ 31 then
        if release ∨ (gen = b.gen ∧ !b.partial_) then s else s.satFld (.schBarStatus p k) F.schBarStatus_LATE 1
      else if release then (s.releaseDown p k gen part_).releaseLocal p k 0 gen part_
      else
        match findIdxN (fun m => m.1 == src) 0 g.members with
        | none => s
        | some j =>
          if straggler ∧ s.bit (.schBarCfg p k) F.schBarCfg_CUTOFF then s.satFld (.schBarStatus p k) F.schBarStatus_LATE 1
          else (s.setBar p k 0 { b with tokens := insertNew j b.tokens }).barUp p k

/-- An interrupted frame returns the open generations of a partition to no arrivals (R478, R634). -/
def State.barReset (s : State) (p : Nat) : State :=
  let bars : List (Nat × Bar) := s.sync.bars.map (fun x =>
    if x.1 / 16384 / 16 = p then (x.1, { x.2 with expected := [], arrived := [], held := [] }) else x)
  let arr := s.sync.arrivals.filter (fun a => s.fld (.schRegState (a.1 / 128)) F.schRegState_PARTITION ≠ p)
  let s := { s with sync := { s.sync with arrivals := arr, bars := bars } }
  s.each (List.range 16) (fun s k => s.setFld (.schBarStatus p k) F.schBarStatus_ARRIVED 0)

/-- Set-up or tear-down of a partition clears its barriers (R480). -/
def State.barClear (s : State) (p : Nat) : State :=
  let s := { s with sync := { s.sync with bars := s.sync.bars.filter (fun x => x.1 / 16384 / 16 ≠ p) } }
  s.each (List.range 16) (fun s k => (s.setReg (.schBarCfg p k) 0).setReg (.schBarStatus p k) 0)

/-- WATCH: the notice for a FENCE of a context, by its ring slot (R468). -/
def State.watchIn (s : State) (ctx submit : Nat) : State :=
  match s.ops.find? (fun o => o.ctx == ctx && o.slot == submit && o.opcode == 15 && o.await != 0) with
  | some o => s.fenceHolds o.seq
  | none => s

/-- At a scheduler tick, FENCEs without a watch read their word (R468). -/
def State.pollTick (s : State) : State :=
  let hit := s.sync.polls.filter (fun w => syncCond w.cond (s.word w.key) w.value)
  let s := { s with sync := { s.sync with polls := s.sync.polls.filter (fun w => w ∉ hit) } }
  s.each hit (fun s w => s.fenceHolds w.op)

end Sys2Proof.Machine
end

