-- ==== Sys2Proof/Machine/Ferries.lean ====
section
/-! DEFINITION. Stream ports: check units, alive counters, credits, flash requests, training and resets (ch. 17). -/

namespace Sys2Proof.Machine

/-! ### The check unit (R604) -/

/-- CHECK of a frame under a channel's check unit (R604). -/
def State.checkOf (s : State) (f c : Nat) (bs : List Byte) : Nat :=
  checkValue (s.fld (.fryChkCtrl f c) F.fryChkCtrl_WIDTH) (s.fld (.fryChkPoly f c) F.fryChkPoly_POLY)
    (s.fld (.fryChkInit f c) F.fryChkInit_INIT) (s.bit (.fryChkCtrl f c) F.fryChkCtrl_REFIN)
    (s.bit (.fryChkCtrl f c) F.fryChkCtrl_REFOUT) (s.bit (.fryChkCtrl f c) F.fryChkCtrl_INVERT) bs

/-! ### Channels -/

def State.ferry (s : State) (f : Nat) : Ferry := sgetD f {} s.ferries
def State.setFerry (s : State) (f : Nat) (x : Ferry) : State := { s with ferries := sput f x s.ferries }
def State.fch (s : State) (f c : Nat) : FCh := sgetD c {} (s.ferry f).chs
def State.setFch (s : State) (f c : Nat) (x : FCh) : State :=
  s.setFerry f { s.ferry f with chs := sput c x (s.ferry f).chs }

/-- STATE of a ferry. -/
def State.fryState (s : State) (f : Nat) : Nat := s.fld (.fryStatus f) F.fryStatus_STATE

/-- Whether a ferry carries frames: up or half width. -/
def State.fryUp (s : State) (f : Nat) : Bool := s.fryState f == 2 || s.fryState f == 3

/-- 64-byte blocks of a frame (R601). -/
def frameBlocks (len : Nat) : Nat := cdiv (32 + len) 64

/-- Set STATE of a ferry, log a change, and re-evaluate its level (R616). -/
def State.setFryState (s : State) (f v : Nat) : State :=
  if s.fryState f = v then s
  else ((s.setFld (.fryStatus f) F.fryStatus_STATE v).relevel (680 + f)).eventW 0x0503 (680 + f) none none v 0

/-- A frame goes out: it takes the next blocks of the port's frame stream, which runs on since the port trained at 64 bytes in 0.64 ns on 8 lanes, with IDLE frames between (R600, R601). -/
def State.sendFrame (s : State) (f : Nat) (x : FFrame) : State :=
  let y := s.ferry f
  let lanes := s.fld (.fryStatus f) F.fryStatus_LANES
  let i := max y.line.next ((s.frm.now - y.line.since) * lanes * 100 / 512)
  (s.setFerry f { y with line := { y.line with next := i + frameBlocks x.payload.length } }).emit (.frame f i lanes x)

/-- The frame stream of a port starts anew as it trains (R599). -/
def State.fryLineStart (s : State) (f : Nat) : State := s.setFerry f { s.ferry f with line := ⟨0, s.frm.now⟩ }

/-- Send an unsequenced frame (R603). -/
def State.fryPlain (s : State) (f typ channel arg : Nat) (payload : List Byte) : State :=
  if s.fryUp f || typ == 4 then s.sendFrame f ⟨typ, channel, 0, 0, arg, 0, payload⟩ else s

/-- Send waiting sequenced frames of a channel while their blocks fit its credit (R608–R610). -/
def State.fryPumpQ (s : State) (f c : Nat) : List FFrame → State
  | [] => s.setFch f c { s.fch f c with queue := [] }
  | x :: q =>
    let h := s.fch f c
    let b := frameBlocks x.payload.length
    if h.allot < (h.sent + 2 ^ 32 - h.peerFreed) % 2 ^ 32 + b ∨ 16384 ≤ h.unacked.length then s.setFch f c { h with queue := x :: q }
    else
      let a := s.fld (.fryChStatus f c) F.fryChStatus_TX_NEXT
      let ck := s.checkOf f c (frameHead x.typ c a x.payload.length 0 x.arg x.tag false ++ x.payload)
      let x := { x with alive := a, check := ck }
      let s := s.setFld (.fryChStatus f c) F.fryChStatus_TX_NEXT (a + 1)
      let s := s.setFch f c { h with unacked := h.unacked ++ [(x, s.frm.now)], sent := (h.sent + b) % 2 ^ 32 }
      (s.sendFrame f x).fryPumpQ f c q

/-- Send what a channel can send now. -/
def State.fryPump (s : State) (f c : Nat) : State := if s.fryUp f then s.fryPumpQ f c (s.fch f c).queue else s

/-- Queue a sequenced frame. -/
def State.fryQueue (s : State) (f c typ arg tag : Nat) (payload : List Byte) : State :=
  let h := s.fch f c
  (s.setFch f c { h with queue := h.queue ++ [⟨typ, c, 0, 0, arg, tag, payload⟩] }).fryPump f c

/-- ACK with NEXT of a channel (R607). -/
def State.fryAck (s : State) (f c : Nat) (nak : Bool) : State :=
  let s := s.setFch f c { s.fch f c with ackSince := 0, nakAt := if nak then some s.frm.now else (s.fch f c).nakAt }
  s.fryPlain f 3 c (s.fld (.fryChStatus f c) F.fryChStatus_RX_NEXT + (if nak then 2 ^ 16 else 0)) []

/-- A NAK, at most once per 500 ns for a channel (R607). -/
def State.fryNak (s : State) (f c : Nat) : State :=
  match (s.fch f c).nakAt with
  | some t => if s.frm.now < t + 500 then s else s.fryAck f c true
  | none => s.fryAck f c true

/-- CREDIT with the blocks freed on a channel (R610). -/
def State.fryCredit (s : State) (f c : Nat) : State :=
  let h := s.fch f c
  let s := s.setFch f c { h with freedSince := 0 }
  s.fryPlain f 2 c (h.freed % 2 ^ 32) []

/-- Blocks of a channel are freed (R610, R611). -/
def State.fryFree (s : State) (f c blocks : Nat) : State :=
  let h := s.fch f c
  let s := s.setFch f c { h with freed := h.freed + blocks, freedSince := h.freedSince + blocks }
  if 64 ≤ (s.fch f c).freedSince then s.fryCredit f c else s

/-- BUFFERED of a channel follows its buffer. -/
def State.fryBuffered (s : State) (f c : Nat) : State :=
  s.setFld (.fryChStatus f c) F.fryChStatus_BUFFERED (min 65535 (sumN ((s.fch f c).buf.map (fun b => frameBlocks b.payload.length))))

/-- What R606 says of a sequenced frame: whether it is accepted, and the counts, ACK and NAK that follow. -/
def State.frySequenced (s : State) (r : FRx) (typ : Nat) (payload : List Byte) : Bool × State :=
  let f := r.ferry
  let c := r.channel
  let next := s.fld (.fryChStatus f c) F.fryChStatus_RX_NEXT
  let d := (r.alive + 65536 - next) % 65536
  let head := frameHead typ c r.alive payload.length r.status r.arg r.tag r.end_
  if d = 0 then
    if s.checkOf f c (head ++ payload) = r.check then
      let s := s.setFld (.fryChStatus f c) F.fryChStatus_RX_NEXT (next + 1)
      let h := s.fch f c
      let s := s.setFch f c { h with ackSince := h.ackSince + 1 }
      (true, if 32 ≤ h.ackSince + 1 then s.fryAck f c false else s)
    else (false, (s.satFld (.fryChErr f c) F.fryChErr_CHECK_FAIL 1).fryNak f c)
  else if 32768 ≤ d then (false, (s.satFld (.fryChErr f c) F.fryChErr_REPEATS 1).fryAck f c false)
  else (false, (s.satFld (.fryChErr f c) F.fryChErr_GAPS 1).fryNak f c)

/-- A frame that did not decode is discarded and counted (R603, R604). -/
def State.fryBad (s : State) (r : FRx) : State :=
  s.satFld (.fryErr r.ferry) (if r.code = 2 then F.fryErr_UNCORRECTABLE else F.fryErr_HCRC_FAIL) 1

/-- The checks that come before the alive counter: ferry up, HCRC good, channel enabled, and a type for its channel (R603, R605). -/
def State.fryRecv (s : State) (r : FRx) (typ : Nat) (payload : List Byte) : Bool × State :=
  let s := s.reach r.at_
  if 4 ≤ r.ferry ∨ 64 ≤ r.channel ∨ !s.fryUp r.ferry ∨ 4064 < payload.length then (false, s)
  else if r.code ≠ 0 then (false, s.fryBad r)
  else if !s.bit (.fryChCfg r.ferry r.channel) F.fryChCfg_ENABLE ∨ (r.channel = 63) = (typ = 1) then (false, s)
  else s.frySequenced r typ payload

/-- DATA_FRAME: an accepted frame of a stream channel waits in the receive buffer (R606, R611). -/
def dataFrame (r : FRx) (payload : List Byte) (s : State) : State :=
  match s.fryRecv r 1 payload with
  | (false, s) => s
  | (true, s) =>
    let h := s.fch r.ferry r.channel
    (s.setFch r.ferry r.channel { h with buf := h.buf ++ [⟨r.alive, r.end_, payload⟩] }).fryBuffered r.ferry r.channel

/-- Frames below NEXT are released (R608). -/
def State.fryRelease (s : State) (f c next : Nat) : State :=
  let h := s.fch f c
  s.setFch f c { h with unacked := h.unacked.filter (fun x => decide ((x.1.alive + 65536 - next) % 65536 < 32768)) }

/-- Resend unacknowledged frames of a channel, in alive order, with their ALIVE and CHECK (R608). -/
def State.fryResend (s : State) (f c : Nat) (due : FFrame × Nat → Bool) : State :=
  let h := s.fch f c
  let un : List (FFrame × Nat) := h.unacked.map (fun x => if due x then (x.1, s.frm.now) else x)
  let s := s.setFch f c { h with unacked := un }
  if s.fryUp f then s.each (h.unacked.filter due) (fun s x => s.sendFrame f x.1) else s

/-- An ACK frame of a ferry (R608); with NAK every frame from NEXT is resent. -/
def fryAckIn (r : FRx) (nak : Bool) (s : State) : State :=
  let s := s.reach r.at_
  if 4 ≤ r.ferry ∨ 64 ≤ r.channel ∨ !s.fryUp r.ferry then s
  else if r.code ≠ 0 then s.fryBad r
  else
    let s := s.fryRelease r.ferry r.channel (r.arg % 65536)
    let s := if nak then s.fryResend r.ferry r.channel (fun _ => true) else s
    s.fryPump r.ferry r.channel

/-- CREDIT: the peer reports blocks freed (R610). -/
def fryCreditIn (r : FRx) (s : State) : State :=
  let s := s.reach r.at_
  if 4 ≤ r.ferry ∨ 64 ≤ r.channel ∨ !s.fryUp r.ferry then s
  else if r.code ≠ 0 then s.fryBad r
  else (s.setFch r.ferry r.channel { s.fch r.ferry r.channel with peerFreed := r.arg % 2 ^ 32 }).fryPump r.ferry r.channel

/-- FRAME_RESEND_TIMEOUT: frames unacknowledged 10 µs after they were last sent are resent (R608). -/
def frameResendTimeout (f c at_ : Nat) (s : State) : State :=
  let s := s.reach at_
  if f < 4 ∧ c < 64 then s.fryResend f c (fun x => decide (x.2 + 10000 ≤ s.frm.now)) else s

/-! ### HELLO, resets and lanes (R599, R613–R616) -/

/-- Fiber length of a ferry's shell: shells 32, 34, 35 and 37 (R27, R616). -/
def ferryShell (f : Nat) : Nat := nthD [32, 34, 35, 37] f 32

/-- The HELLO payload of a ferry (R616). -/
def State.fryHello (s : State) (f : Nat) : List Byte :=
  toLe 1 0x30 ++ toLe 2 s.ownId ++ toLe 1 f ++ toLe 4 (s.fld (.devShell (ferryShell f)) F.devShell_LENGTH_CM)
  ++ (List.range 64).flatMap (fun c => toLe 2 (s.fld (.fryChStatus f c) F.fryChStatus_RX_NEXT))
  ++ (List.range 64).flatMap (fun c =>
      toLe 2 (if s.bit (.fryChCfg f c) F.fryChCfg_ENABLE then s.fld (.fryChCfg f c) F.fryChCfg_CREDITS else 0))

/-- Send HELLO; the blocks that CREDIT reports are counted from it on (R603, R615, R616). -/
def State.sendFryHello (s : State) (f : Nat) : State :=
  let x := s.ferry f
  let s := s.setFerry f { x with chs := x.chs.map (fun c => (c.1, { c.2 with freed := 0, freedSince := 0 })) }
  s.fryPlain f 4 0 (if x.restart then 1 else 0) (s.fryHello f)

/-- A port in training sends HELLO each microsecond until the peer's has come (R616). -/
def State.fryHelloTick (s : State) : State :=
  s.each (List.range 4) (fun s f => if s.fryState f = 1 ∧ !(s.ferry f).hello then s.sendFryHello f else s)

/-- FERRY_TRAINING: an enabled port that receives light has trained; HELLO goes out (R616). -/
def ferryTraining (f lanes at_ : Nat) (s : State) : State :=
  let s := s.reach at_
  if f < 4 ∧ s.fld .devStatus F.devStatus_STAGE ∈ [5, 6] ∧ s.bit (.fryCtrl f) F.fryCtrl_ENABLE ∧ !s.fryUp f
      ∧ !s.bit (.devShell (ferryShell f)) F.devShell_TYPE_MISMATCH ∧ (lanes = 8 ∨ lanes = 4) then
    let s := (s.setFerry f { s.ferry f with hello := false }).fryLineStart f
    let s := s.setFld (.fryStatus f) F.fryStatus_LANES lanes
    let s := s.setFryState f 1
    s.sendFryHello f
  else s

/-- Renumber a channel's unacknowledged frames from 0 and send them again (R615). -/
def State.fryRestart (s : State) (f c : Nat) : State :=
  let h := s.fch f c
  let s := s.setFld (.fryChStatus f c) F.fryChStatus_TX_NEXT 0
  let un : List (FFrame × Nat) := h.unacked.zipIdx.map (fun x =>
    let y := { x.1.1 with alive := x.2 }
    ({ y with check := s.checkOf f c (frameHead y.typ c y.alive y.payload.length 0 y.arg y.tag false ++ y.payload) }, s.frm.now))
  let s := s.setFld (.fryChStatus f c) F.fryChStatus_TX_NEXT un.length
  let s := s.setFch f c { h with unacked := un }
  s.each un (fun s x => s.sendFrame f x.1)

/-- A port comes up on a HELLO: acknowledged frames are released, credit counts restart, and the rest is resent, or renumbered where the peer restarts (R615, R616). -/
def State.fryGreet (s : State) (f : Nat) (restart : Bool) (next allot : List Nat) : State :=
  let first := !(s.ferry f).hello
  let s := s.setFerry f { s.ferry f with hello := true, restart := false }
  let s := s.setFryState f (if s.fld (.fryStatus f) F.fryStatus_LANES = 4 then 3 else 2)
  let s := if first then s.sendFryHello f else s
  s.each (List.range 64) (fun s c =>
    let s := s.setFch f c { s.fch f c with allot := nthD allot c 0, peerFreed := 0, sent := 0 }
    let s := if restart then s.fryRestart f c
      else (s.fryRelease f c (nthD next c 0)).fryResend f c (fun _ => true)
    s.fryPump f c)

/-- HELLO_FRAME: the version is checked, frames below the peer's NEXT are released, credit counts restart, and the rest is resent; with RESTART, frames are renumbered instead (R615, R616). `next` and `allot` list NEXT and the allotment of each channel. -/
def helloFrame (r : FRx) (version : Nat) (next allot : List Nat) (s : State) : State :=
  let s := s.reach r.at_
  let f := r.ferry
  if 4 ≤ f ∨ s.fryState f = 0 ∨ s.fryState f = 5 ∨ s.fryState f = 6 then s
  else if r.code ≠ 0 then s.fryBad r
  else
    let s := s.setFld (.fryStatus f) F.fryStatus_VERSION version
    if version / 16 ≠ 3 then s.setFryState f 4 else s.fryGreet f (r.arg % 2 == 1) next allot

/-- The frame of a flash request: READ_REQ, or WRITE with its bytes (R603, R620). -/
def State.flashFrame (s : State) (f : Nat) (q : FlashReq) : State :=
  if q.bytes.isEmpty then s.fryQueue f 63 5 (q.off % 2 ^ 42 + (q.len / 64 - 1) % 2 ^ 16 * 2 ^ 42) q.tag []
  else s.fryQueue f 63 7 (q.off % 2 ^ 42) q.tag q.bytes

/-- At a reset of a port, the flash requests whose frames the appliance has taken are queued again with their tags; the others are resent (R614, R616). -/
def State.flashAgain (s : State) (f : Nat) : State :=
  let h := s.fch f 63
  let kept := fun (q : FlashReq) => (h.unacked.map Prod.fst ++ h.queue).any (fun x => x.tag == q.tag && (x.typ == 5 || x.typ == 7))
  s.each ((s.ferry f).reqs.filter (fun q => !kept q)) (fun s q => s.flashFrame f q)

/-- A ferry domain is reset, or has lost all lanes: the epoch advances, the old FIFO entries are discarded and counted, and channel state is kept (R613, R614). `inFifo` is how many entries the crossing held. -/
def State.ferryOut (s : State) (f inFifo state : Nat) : State :=
  let s := s.wrapFld (.fryStatus f) F.fryStatus_EPOCH 1
  let s := s.satFld (.fryDiscard f) F.fryDiscard_DISCARDED inFifo
  let s := s.satFld (.fryDiscard f) F.fryDiscard_RESETS 1
  let s := s.setFld (.fryStatus f) F.fryStatus_LANES 0
  (s.setFryState f state).flashAgain f

/-- How many entries the crossing FIFOs held, where the command does not say: a free value (log entry 44). -/
def State.fifoHeld (s : State) : Nat × State := let v := s.free 16; (v.1.toNat, v.2)

/-- FERRY_RESET: the domain is reset, and the port trains again (R613, R614). -/
def ferryReset (f inFifo at_ : Nat) (s : State) : State :=
  let s := s.reach at_
  if f < 4 then s.ferryOut f inFifo 5 else s

/-- FERRY_LANE_LOSS: a fiber loses a wavelength, so the port retrains at half rate, or is reset and down when no fiber is left (R599, R613). -/
def ferryLaneLoss (f at_ : Nat) (s : State) : State :=
  let s := s.reach at_
  if f < 4 ∧ s.fryUp f then
    if s.fld (.fryStatus f) F.fryStatus_LANES = 8 then
      ((s.setFld (.fryStatus f) F.fryStatus_LANES 4).setFryState f 3).fryLineStart f
    else s.fifoHeld.2.ferryOut f s.fifoHeld.1 6
  else s

/-- The channel state of a ferry restarts at a reset of its die: accepted frames not copied are lost, HELLOs carry RESTART, and flash requests are queued again (R614, R615). -/
def State.ferryDieReset (s : State) (f : Nat) : State :=
  let s := s.wrapFld (.fryStatus f) F.fryStatus_EPOCH 1
  let s := s.each (List.range 64) (fun s c => s.setReg (.fryChStatus f c)
    ((F.fryChStatus_BUFFERED.put (F.fryChStatus_TX_NEXT.put (F.fryChStatus_RX_NEXT.put (s.reg (.fryChStatus f c)) 0) 0) 0)))
  let s := s.setFerry f { restart := true, reqs := (s.ferry f).reqs, wait := (s.ferry f).wait }
  let s := s.setFld (.fryStatus f) F.fryStatus_LANES 0
  (s.setFryState f 5).flashAgain f

/-! ### Enabling a channel (R605, R624–R626) -/

/-- CHANNEL_ENABLE: ENABLE of a channel goes from 0 to 1 under the checks of R625. -/
def State.channelEnable (s : State) (f c : Nat) : State :=
  let sum := sumN ((List.range 64).map (fun k =>
    if k = c ∨ s.bit (.fryChCfg f k) F.fryChCfg_ENABLE then s.fld (.fryChCfg f k) F.fryChCfg_CREDITS else 0))
  let w := s.fld (.fryChkCtrl f c) F.fryChkCtrl_WIDTH
  let err := if 65536 < sum then 1 else if s.fld (.fryBufBase f) F.fryBufBase_BASE = 0 then 2
    else if c ≠ 63 ∧ !s.bit (.ctxStatus (s.fld (.fryChCfg f c) F.fryChCfg_CONTEXT)) F.ctxStatus_ACTIVE then 3
    else if w = 0 ∨ 64 < w then 4 else 0
  let s := s.setFld (.fryChStatus f c) F.fryChStatus_ERR err
  let s := s.setFld (.fryChCfg f c) F.fryChCfg_ENABLE (if err = 0 then 1 else 0)
  if err = 0 ∧ s.fryUp f then s.sendFryHello f else s

/-- A context reset clears ENABLE of its stream channels and discards their frames (R624). -/
def State.channelsOfContext (s : State) (x : Nat) : State :=
  s.each (List.range 4) (fun s f => s.each (List.range 63) (fun s c =>
    if s.bit (.fryChCfg f c) F.fryChCfg_ENABLE ∧ s.fld (.fryChCfg f c) F.fryChCfg_CONTEXT = x then
      let n := (s.fch f c).buf.length
      let s := s.setFld (.fryChCfg f c) F.fryChCfg_ENABLE 0
      let s := s.setFch f c { s.fch f c with buf := [] }
      (s.satFld (.fryDiscard f) F.fryDiscard_DISCARDED n).fryBuffered f c
    else s))

/-! ### Flash requests (R620–R623) -/

/-- OUTSTANDING of a ferry. -/
def State.flashCount (s : State) (f : Nat) : State :=
  s.setFld (.fryFlash f) F.fryFlash_OUTSTANDING (min 4096 (s.ferry f).reqs.length)

/-- The lowest free flash tag of a ferry. -/
def State.flashTag (s : State) (f : Nat) : Nat :=
  ((List.range 4096).find? (fun t => !(s.ferry f).reqs.any (fun r => r.tag == t))).getD 0

/-- Issue a flash read or write of a port: `data` is empty for a read (R620, R621). -/
def State.flashNow (s : State) (f : Nat) (w : FlashWait) : State :=
  if 4096 ≤ (s.ferry f).reqs.length then
    s.setFerry f { s.ferry f with wait := (s.ferry f).wait ++ [w] }
  else
    let q : FlashReq := { tag := s.flashTag f, off := w.off, len := w.len, at_ := s.frm.now, got := [], what := w.what, laid := w.laid, bytes := w.data }
    let s := s.setFerry f { s.ferry f with reqs := (s.ferry f).reqs ++ [q] }
    (s.flashCount f).flashFrame f q

/-- A flash read at an offset of space 3, rounded outward to 64 bytes; one request asks for at most 4 MiB (R602, R620). -/
def State.flashRead (s : State) (a n : Nat) (what : Nat → FlashFor) : State :=
  let lo := offOf a / 64 * 64
  let hi := roundUp (offOf a + n) 64
  s.each (List.range (cdiv (hi - lo) (2 ^ 22))) (fun s i =>
    let o := lo + i * 2 ^ 22
    s.flashNow (lo / 2 ^ 42) { off := o % 2 ^ 42, len := min (hi - o) (2 ^ 22), data := [], what := what (a / 2 ^ 44 * 2 ^ 44 + o) })

/-- Write bytes to flash in frames of at most 4,032 bytes; `what` is told which frame is the last (R602, R620). -/
def State.flashWriteBy (s : State) (a : Nat) (bs : List Byte) (what : Bool → FlashFor) : State :=
  s.each (chunks 4032 bs) (fun s c => s.flashNow (offOf a / 2 ^ 42)
    { off := (offOf a + c.1) % 2 ^ 42, len := c.2.length, data := c.2, what := what (decide (bs.length ≤ c.1 + c.2.length)) })

/-- Write bytes to flash, each frame for the same purpose. -/
def State.flashWrite (s : State) (a : Nat) (bs : List Byte) (what : FlashFor) : State := s.flashWriteBy a bs (fun _ => what)

/-- Lay other bytes over a run of bytes at an offset or key. -/
def overlay (k : Nat) (bs : List Byte) (r : Nat × List Byte) : List Byte :=
  if r.1 < k + bs.length ∧ k < r.1 + r.2.length then
    bs.zipIdx.map (fun x => if r.1 ≤ k + x.2 ∧ k + x.2 < r.1 + r.2.length then nthD r.2 (k + x.2 - r.1) 0 else x.1)
  else bs

/-- A row is written in flash. What an operation has read of it so as to write it, or still waits to read, counts as read after the write, since the home applies accesses to a row one after another (R238, R253; log entry 76). -/
def State.flashOver (s : State) (a : Nat) (bs : List Byte) : State :=
  let f := offOf a / 2 ^ 42
  let w := (offOf a % 2 ^ 42, bs)
  let s := s.setFerry f { s.ferry f with
    reqs := (s.ferry f).reqs.map (fun (q : FlashReq) => { q with laid := q.laid ++ [w] })
    wait := (s.ferry f).wait.map (fun (q : FlashWait) => { q with laid := q.laid ++ [w] }) }
  { s with ops := s.ops.map (fun o => { o with fetched := o.fetched.map (fun p =>
      if p.1 < 2 ^ 64 ∧ spaceOf p.1 = 3 then (p.1, overlay (offOf p.1) p.2 (offOf a, bs)) else p) }) }

/-- A request has ended; a waiting one takes its place. -/
def State.flashDone (s : State) (f tag : Nat) : State :=
  let x := s.ferry f
  let s := (s.setFerry f { x with reqs := x.reqs.filter (fun r => r.tag ≠ tag), wait := x.wait.drop 1 }).flashCount f
  match x.wait with
  | [] => s
  | w :: _ => s.flashNow f w

/-- The bytes of a request that have come, in order, rows written meanwhile laid over them. -/
def FlashReq.data (r : FlashReq) : List Byte := r.laid.foldl (overlay r.off) ((r.got.foldl (fun l p => l ++ p.2) []).take r.len)

/-- How many bytes of the answer have come. -/
def FlashReq.come (r : FlashReq) : Nat := (r.got.foldl (fun l p => l ++ p.2) ([] : List Byte)).length

def FlashReq.complete (r : FlashReq) : Bool := decide (r.len ≤ r.come)

/-- Flash writes of a partition's step that are not durable (R623). -/
def State.flashWrites (s : State) (f : Nat → Bool) : Nat :=
  sumN ((List.range 4).map (fun k => ((s.ferry k).reqs.filter (fun r => match r.what with
    | .write (some q) _ => f q
    | _ => false)).length + ((s.ferry k).wait.filter (fun w => match w.what with
    | .write (some q) _ => f q
    | _ => false)).length))

end Sys2Proof.Machine
end

