-- ==== Sys2Proof/Machine/Operands.lean ====
section
/-! DEFINITION. How operations read and write their operands: tiers, tensors, block scales, the compressed format and the undo log's records (R43, R86–R92, R274–R277, R325–R331, R389). -/

namespace Sys2Proof.Machine

/-! ### Bytes by tier (R389, R390, R396, R397) -/

/-- A run of bytes out of fetched pieces, of one piece or of several. -/
def fetchedBytes (l : List (Nat × List Byte)) (a n : Nat) : List Byte :=
  match fetchedAt l a n with
  | some bs => bs
  | none => (List.range n).map (fun i => ((fetchedAt l (a + i) 1).getD [0]).headD 0)

/-- Bytes that lie where an operation reads: local or host memory, or what was fetched for it. -/
def State.opMem (s : State) (o : Op) (a n : Nat) : List Byte :=
  if s.place a ≤ 1 then s.kRd (s.keyOf o.ctx a) n else fetchedBytes o.fetched a n

/-- Bytes that an operation reads: those that an L0 cache of the cores that run its tasks holds are the copies there (R395, R396). -/
def State.opRd (s : State) (o : Op) (a n : Nat) : List Byte := s.viaL0 o a (s.opMem o a n)

/-- A little-endian number that an operation reads. -/
def State.opRdN (s : State) (o : Op) (a n : Nat) : Nat := leBytes (s.opRd o a n)

/-- The whole bursts that a range touches, cut at multiples of `unit` bytes. -/
def piecesOf (unit a n : Nat) : List (Nat × Nat) :=
  let lo := a / 64 * 64
  let hi := roundUp (a + n) 64
  if n = 0 then []
  else (List.range (cdiv hi unit - lo / unit)).map (fun i =>
    let b := max lo ((lo / unit + i) * unit)
    (b, min hi ((lo / unit + i + 1) * unit) - b))

/-- The pieces of ranges, cut at multiples of `unit` bytes, that have to be fetched and have not been. -/
def State.missingBy (s : State) (unit : Nat) (o : Op) (rs : List (Nat × Nat)) : List (Nat × Nat) :=
  ((rs.filter (fun r => decide (1 < s.place r.1))).flatMap (fun r => piecesOf unit r.1 r.2)).filter (fun p => (fetchedAt o.fetched p.1 p.2).isNone)

/-- The pieces of ranges that have to be fetched and have not been: a core reads 64-byte lines, and none that its L0 holds; every other unit reads at most 2,048 bytes at a time (R395, R397; log entry 85). -/
def State.missing (s : State) (o : Op) (rs : List (Nat × Nat)) : List (Nat × Nat) :=
  if o.coreReads then (s.missingBy 64 o rs).filter (fun p => (s.l0Line o p.1).isNone) else s.missingBy 2048 o rs

/-- How many reads the units that run an operation may have in flight: 48 for each core, 512 and 256 for each cluster that gathers or samples, 128 for each controller that updates; one unit where none has started (R397; log entry 85). -/
def State.readLimit (s : State) (o : Op) : Nat :=
  let mine := s.tasks.filter (fun t => t.op == o.seq && (match t.at_ with | .running _ => true | _ => false))
  let clusters := max 1 (mine.map Task.cluster).eraseDups.length
  match opcOf o.opcode with
  | some .sample => 256 * clusters
  | some .gather | some .scatter => 512 * clusters
  | some .update => 128 * max 1 ((mine.map (fun t => t.cluster / 128)).eraseDups.length)
  | _ => 48 * max 1 mine.length

/-- Ask for pieces, as many as the units may have in flight: read requests to other packages, flash reads on this one; the rest waits for a later run (R389, R397, R620). -/
def State.issueReads (s : State) (q : Nat) (l : List (Nat × Nat)) : State :=
  s.each (l.take ((s.op? q).elim 0 s.readLimit)) (fun s p =>
    if s.place p.1 = 2 then
      let s := s.modOp q (fun o => { o with await := o.await + 1 })
      s.flashRead p.1 p.2 (fun a => .piece q a)
    else
      match s.op? q with
      | none => s
      | some o =>
        let t := s.newTag
        let s := t.2.modOp q (fun o => { o with reads := o.reads ++ [⟨t.1, pkgOf p.1, false, p.1, p.2, []⟩] })
        s.send (pkgOf p.1) 1 0 (.readReq o.ctx t.1 p.2 p.1))

/-! ### What waits for bytes of elsewhere without being an operation (R135, R162, R243, R270) -/

/-- The wait of something, if it waits. -/
def State.wait? (s : State) (w : WaitFor) : Option Wait := s.net.waits.find? (fun x => x.what == w)

/-- Change a wait. -/
def State.modWait (s : State) (w : WaitFor) (f : Wait → Wait) : State :=
  { s with net := { s.net with waits := s.net.waits.map (fun x => if x.what = w then f x else x) } }

/-- Waits end without more. -/
def State.dropWait (s : State) (f : WaitFor → Bool) : State :=
  { s with net := { s.net with waits := s.net.waits.filter (fun x => !f x.what) } }

/-- Whether everything that a wait asked for has come or failed. -/
def Wait.ended (w : Wait) : Bool := w.reads.isEmpty && w.flash == 0

/-- Something waits for pieces: they are asked for (R389, R620). -/
def State.waitFor (s : State) (w : WaitFor) (ctx : Nat) (l : List (Nat × Nat)) : State :=
  let s : State := if (s.wait? w).isSome then s else { s with net := { s.net with waits := s.net.waits ++ [{ what := w }] } }
  s.each l (fun s p =>
    if s.place p.1 = 2 then (s.modWait w (fun x => { x with flash := x.flash + 1 })).flashRead p.1 p.2 (fun a => .wait w a)
    else
      let t := s.newTag
      (t.2.modWait w (fun x => { x with reads := x.reads ++ [⟨t.1, pkgOf p.1, false, p.1, p.2, []⟩] })).send (pkgOf p.1) 1 0 (.readReq ctx t.1 p.2 p.1))

/-- A piece has come for a wait. -/
def State.waitGot (s : State) (w : WaitFor) (tag : Option Nat) (a : Nat) (bs : List Byte) : State :=
  s.modWait w (fun x => { x with
    reads := x.reads.filter (fun r => some r.tag != tag), flash := x.flash - (if tag.isNone then 1 else 0), fetched := x.fetched ++ [(a, bs)] })

/-- A piece that a wait asked for cannot be read: 3 a segment violation, 4 an uncorrectable error. -/
def State.waitBad (s : State) (w : WaitFor) (tag : Option Nat) (st : Nat) : State :=
  s.modWait w (fun x => { x with
    reads := x.reads.filter (fun r => some r.tag != tag), flash := x.flash - (if tag.isNone then 1 else 0), bad := if x.bad = 0 then st else x.bad })

/-- A record of the undo log for a range about to be written: what it holds, fetched beforehand where it lies on flash or another package (R43, R362). -/
def State.logRange (s : State) (o : Op) (a n : Nat) : State :=
  s.modPart o.part (fun p => { p with undo := ⟨a, s.opMem o a n, o.ctx, s.frame, .range⟩ :: p.undo })

/-- The ranges whose old contents an operation with IN_PLACE must fetch before it writes them (R43). -/
def State.undoReads (s : State) (o : Op) : List (Nat × Nat) :=
  if o.flagBit 0 then
    ((opcOf o.opcode).elim [] (fun c => o.desc.outRanges c)).filter (fun r => decide (1 < s.place r.1))
  else []

/-- Write bytes for an operation to wherever they belong: local and host memory, flash, or another package (R212, R240). -/
def State.putAt (s : State) (o : Op) (a : Nat) (bs : List Byte) (logged : Bool) : State :=
  match s.place a with
  | 0 => if logged then s.write (localKey a) bs else s.store (localKey a) bs
  | 1 => s.kWr (s.keyOf o.ctx a) bs
  | 2 => s.flashWrite a bs (.write (some o.seq) none)
  | _ => s.postBytes (some o.seq) o.ctx (o.flagBit 2) a bs

/-- Write an output of an operation; with IN_PLACE its old contents go to the undo log first (R43). -/
def State.opWr (s : State) (o : Op) (a : Nat) (bs : List Byte) : State :=
  if o.flagBit 0 then (s.logRange o a bs.length).putAt o a bs true else s.putAt o a bs false

/-- Write a range of an operation whose writes are logged in every case (R42, R363). -/
def State.opWrLogged (s : State) (o : Op) (a : Nat) (bs : List Byte) : State :=
  (s.logRange o a bs.length).putAt o a bs true

/-! ### Elements of rows (R89, R274, R275) -/

/-- The encodings of the elements of a row (R87, R274). -/
def rowCodes (elem cols : Nat) (bs : List Byte) : List Nat :=
  if elem = 6 then
    let a := bs.toArray
    (List.range cols).map (fun i => (a.getD (i / 2) 0).toNat / 16 ^ (i % 2) % 16)
  else
    let w := elemBits elem / 8
    let a := bs.toArray
    (List.range cols).map (fun i => leBytes ((List.range w).map (fun j => a.getD (i * w + j) 0)))

/-- Bytes of the elements of a row, scales apart. -/
def Tensor.dataBytes (t : Tensor) : Nat := cdiv (t.cols * elemBits t.elem) 8

/-- The scale bytes of a row (R275). -/
def Tensor.rowScales (t : Tensor) (bs : List Byte) : List Nat :=
  if t.scaled then (bs.drop t.dataBytes).map BitVec.toNat else []

/-- The value of each element, scaled by its block (R277). -/
def scaleVals (elem : Nat) (signed : Bool) (codes scales : List Nat) : List FV :=
  let a := scales.toArray
  codes.zipIdx.map (fun c =>
    let v := decodeElem elem signed c.1
    if scales.isEmpty then v else applyScale v (a.getD (c.2 / 32) 127))

/-- The bytes of element encodings (R274). -/
def packCodes (elem : Nat) (codes : List Nat) : List Byte :=
  if elem = 6 then
    let a := codes.toArray
    (List.range (cdiv codes.length 2)).map (fun i => BitVec.ofNat 8 (a.getD (2 * i) 0 % 16 + a.getD (2 * i + 1) 0 % 16 * 16))
  else codes.flatMap (fun c => toLe (elemBits elem / 8) c)

/-! ### The compressed format (R325–R330) -/

/-- Elements that the tokens of a row cover: for each element, its place among the literals, or none for a zero (R328). -/
def tokenMap : List Nat → Nat → List (Option Nat)
  | [], _ => []
  | t :: ts, n =>
    let len := t % 128 + 1
    if 128 ≤ t then (List.range len).map (fun i => some (n + i)) ++ tokenMap ts (n + len)
    else List.replicate len none ++ tokenMap ts n

/-- The literals that tokens cover (R330). -/
def tokenLits : List Nat → Nat
  | [] => 0
  | t :: ts => (if 128 ≤ t then t % 128 + 1 else 0) + tokenLits ts

/-- A compressed row: element encodings and scales, or none when it is invalid; `room` is how many bytes there are up to the next row (R327, R330). -/
def Tensor.expandRow (t : Tensor) (bs : List Byte) (room : Nat) : Option (List Nat × List Nat) :=
  let nt := leBytes (bs.take 2)
  let nl := leBytes ((bs.drop 2).take 2)
  let toks := ((bs.drop 4).take nt).map BitVec.toNat
  let litOff := roundUp (4 + nt) 4
  let litBytes := cdiv (nl * elemBits t.elem) 8
  let size := litOff + litBytes + (if t.scaled then t.cols / 32 else 0)
  if nt = 0 ∨ (tokenMap toks 0).length ≠ t.cols ∨ tokenLits toks ≠ nl ∨ room < size then none
  else
    let lits := (rowCodes t.elem nl ((bs.drop litOff).take litBytes)).toArray
    some ((tokenMap toks 0).map (fun x => match x with | some i => lits.getD i 0 | none => 0),
      if t.scaled then ((bs.drop (litOff + litBytes)).take (t.cols / 32)).map BitVec.toNat else [])

/-- Offset and literal count of a row of a compressed tensor (R326). -/
def State.compEntry (s : State) (o : Op) (t : Tensor) (r : Nat) : Nat × Nat :=
  let e := s.opRdN o (t.addr + 64 + 8 * r) 8
  (e % 2 ^ 48, e / 2 ^ 48)

/-- Whether the header of a compressed tensor agrees with the reference (R330). -/
def State.compHeaderOk (s : State) (o : Op) (t : Tensor) : Bool :=
  let h := s.opRdN o t.addr 8
  bitsN h 0 8 == 0x30 && bitsN h 16 24 == t.rows && bitsN h 48 16 == t.cols

/-- A row of a compressed tensor (R327). -/
def State.compRow (s : State) (o : Op) (t : Tensor) (r : Nat) : Option (List Nat × List Nat) :=
  let a := (s.compEntry o t r).1
  let b := (s.compEntry o t (r + 1)).1
  if b ≤ a ∨ t.span < b then none else t.expandRow (s.opRd o (t.addr + a) (b - a)) (b - a)

/-- Element encodings and scales of a row of a tensor, dense or compressed. -/
def State.rowRaw (s : State) (o : Op) (t : Tensor) (r : Nat) : Option (List Nat × List Nat) :=
  if t.compressed then s.compRow o t r
  else
    let bs := s.opRd o (t.addr + r * t.pitch) t.rowBytes
    some (rowCodes t.elem t.cols bs, t.rowScales bs)

/-- The values of a row under R277 with T = 1; an invalid compressed row has none. -/
def State.rowVals (s : State) (o : Op) (t : Tensor) (r : Nat) : List FV :=
  match s.rowRaw o t r with
  | some x => scaleVals t.elem t.signed x.1 x.2
  | none => List.replicate t.cols .nan

/-- All rows of a tensor. -/
def State.matVals (s : State) (o : Op) (t : Tensor) : List (List FV) := (List.range t.rows).map (s.rowVals o t)

/-- Whether a compressed tensor is valid throughout (R330). -/
def State.compOk (s : State) (o : Op) (t : Tensor) : Bool :=
  !t.compressed || (s.compHeaderOk o t && (List.range t.rows).all (fun r => (s.compRow o t r).isSome))

/-- The unsigned elements of an index tensor of one column (INT32 or ID40). -/
def State.colCodes (s : State) (o : Op) (t : Tensor) : List Nat :=
  (List.range t.rows).map (fun r => s.opRdN o (t.addr + r * t.pitch) (elemBits t.elem / 8))

/-! ### Writing rows (R291–R293, R296) -/

/-- Cut a list into blocks of `n`. -/
def blocksAux {α : Type} (n : Nat) : Nat → List α → List (List α)
  | 0, _ => []
  | _ + 1, [] => []
  | k + 1, l => l.take n :: blocksAux n k (l.drop n)

def blocks {α : Type} (n : Nat) (l : List α) : List (List α) := blocksAux n (l.length + 1) l

/-- A row converted to a format: its bytes, and which of its elements are non-finite (R291–R293, R296); `flush` for matrix-engine outputs (R288). -/
def encodeRow (elem : Nat) (scaled signed flush : Bool) (vs : List FV) : List Byte × List Bool :=
  if scaled then
    let bl := (blocks 32 vs).map (narrowBlock elem signed)
    (packCodes elem (bl.flatMap Prod.snd) ++ bl.map (fun b => BitVec.ofNat 8 b.1),
      bl.flatMap (fun b => b.2.map (fun _ => b.1 == 0xFF)))
  else
    let cs := vs.map (fun v => (encodeElem elem signed false flush v, v))
    (packCodes elem (cs.map Prod.fst), cs.map (fun c => outNonfinite elem c.2 c.1))

/-- The first non-finite element by tile and position (R297), from rows of marks. -/
def captureAux (tr tc tpr : Nat) : Nat → List (List Bool) → Option (Nat × Nat) → Option (Nat × Nat)
  | _, [], b => b
  | r, m :: ms, b =>
    let b := m.zipIdx.foldl (fun b x =>
      if x.1 then
        let t := r / tr * tpr + x.2 / tc
        let p := r % tr * tc + x.2 % tc
        match b with
        | none => some (t, p)
        | some c => if t < c.1 ∨ (t = c.1 ∧ p < c.2) then some (t, p) else some c
      else b) b
    captureAux tr tc tpr (r + 1) ms b

def capture (tr tc cols : Nat) (marks : List (List Bool)) : Option (Nat × Nat) := captureAux tr tc (cdiv cols tc) 0 marks none

/-- AUX of a captured operation: tile and position, all ones in [31:0] when nothing was captured (R122, R298). -/
def captureAuxField : Option (Nat × Nat) → Nat
  | none => 2 ^ 32 - 1
  | some (t, p) => t % 2 ^ 32 + p % 2 ^ 16 * 2 ^ 32

/-- Convert and write rows of an output tensor; gives the marks of non-finite elements. -/
def State.writeMat (s : State) (o : Op) (t : Tensor) (flush : Bool) (rows : List (List FV)) : State × List (List Bool) :=
  let enc := rows.map (encodeRow t.elem t.scaled t.signed flush)
  (s.each enc.zipIdx (fun s x => s.opWr o (t.addr + x.2 * t.pitch) x.1.1), enc.map Prod.snd)

/-! ### The end of a run -/

/-- An operation fails at run time: its status and DETAIL, and its tasks go. -/
def State.opFail (s : State) (q st detail : Nat) : State :=
  (s.dropTasks (fun t => t.op == q)).modOp q (fun o =>
    { o with stage := .finished, status := (if o.status = 0x30 then 0x30 else st), detail := detail, reads := [], await := 0, tasksLeft := 0 })

/-- The data effect of an operation has happened, with its AUX; a non-finite output joins the guarded set (R111, R298). -/
def State.opEnd (s : State) (q aux : Nat) (nonfinite : Bool) : State :=
  match s.op? q with
  | none => s
  | some o =>
    let s := s.modOp q (fun o =>
      let o := { o with stage := .ran, aux := aux }
      if nonfinite then o.addFlag 3 else o)
    let guarded := o.flagBit 3 || (match opcOf o.opcode with | some c => alwaysGuarded c | none => false)
    let s := if nonfinite ∧ guarded then s.modPart o.part (fun p => { p with nonfinite := true }) else s
    s.settleOp q

end Sys2Proof.Machine
end

