-- ==== Sys2Proof/Machine/Rng.lean ====
section
/-! DEFINITION. The random streams: generator, leap, seed expansion and words (R379–R382). -/

namespace Sys2Proof.Machine

/-- One step of the LFSR: new state and output bit (R379). -/
def lfsrStep (s : Nat) : Nat × Nat :=
  let n := (s / 2 ^ 126 % 2 + s / 2 ^ 63 % 2) % 2
  (s % 2 ^ 126 * 2 + n, n)

/-- `n` single steps. -/
def lfsrSteps : Nat → Nat → Nat
  | 0, s => s
  | n + 1, s => lfsrSteps n (lfsrStep s).1

/-- Multiply a polynomial over GF(2) by x, modulo x^127 + x^63 + 1. -/
def polyX (a : Nat) : Nat :=
  if a / 2 ^ 126 % 2 = 1 then (a % 2 ^ 126 * 2) ^^^ (2 ^ 63 + 1) else a * 2

/-- Product of two polynomials of degree below 127, modulo x^127 + x^63 + 1; the first argument counts the bits of `b` left. -/
def polyMulAux : Nat → Nat → Nat → Nat → Nat
  | 0, _, _, acc => acc
  | k + 1, a, b, acc => polyMulAux k (polyX a) (b / 2) (if b % 2 = 1 then acc ^^^ a else acc)

/-- Product of two polynomials modulo x^127 + x^63 + 1. -/
def polyMul (a b : Nat) : Nat := polyMulAux 127 a b 0

/-- x^n modulo x^127 + x^63 + 1, by the bits of n: `sq` is x^(2^j), the power that M_j of R381 stands for. -/
def polyPow : Nat → Nat → Nat → Nat → Nat
  | 0, _, _, acc => acc
  | k + 1, n, sq, acc => polyPow k (n / 2) (polyMul sq sq) (if n % 2 = 1 then polyMul acc sq else acc)

/-- Parity of the low `n` bits. -/
def parityN (n v : Nat) : Nat := popCount n v % 2

/-- The state that a polynomial of steps makes of a window of the sequence: each new bit is the sum of the sequence bits the polynomial names, and the window moves on by one. Bit i of the window is the sequence bit that s[126 − i] holds. -/
def polyApply (c : Nat) : Nat → Nat → Nat
  | 0, _ => 0
  | k + 1, w => parityN 127 (c &&& w) * 2 ^ k + polyApply c k (w / 2 + (w % 2 + w / 2 ^ 63 % 2) % 2 * 2 ^ 126)

/-- Bit reversal of a 127-bit state, so that sequence bit i stands at place i. -/
def revLow : Nat → Nat → Nat → Nat
  | 0, _, acc => acc
  | k + 1, v, acc => revLow k (v / 2) (acc * 2 + v % 2)

/-- leap(s, n): n steps at once (R381). -/
def leap (s n : Nat) : Nat := polyApply (polyPow 127 n 2 1) 127 (revLow 127 s 0)

/-- mix64 (R382). -/
def mix64 (x : Nat) : Nat :=
  let m := 2 ^ 64
  let x := ((x ^^^ (x / 2 ^ 30)) * 0xBF58476D1CE4E5B9) % m
  let x := ((x ^^^ (x / 2 ^ 27)) * 0x94D049BB133111EB) % m
  x ^^^ (x / 2 ^ 31)

/-- expand(seed) (R382). -/
def expandSeed (seed : Nat) : Nat :=
  let lo := mix64 ((seed + 0x9E3779B97F4A7C15) % 2 ^ 64)
  let hi := mix64 ((seed + 2 * 0x9E3779B97F4A7C15) % 2 ^ 64)
  let s := hi % 2 ^ 63 * 2 ^ 64 + lo
  if s = 0 then 1 else s

/-- 32 output bits from a state, the first in bit 0 (R380). -/
def lfsrWord : Nat → Nat → Nat → Nat
  | 0, _, _ => 0
  | k + 1, i, s =>
    let r := lfsrStep s
    r.2 * 2 ^ i + lfsrWord k (i + 1) r.1

/-- word(b, k) of stream S at position P under a seed (R380). -/
def rngWord (seed S P b k : Nat) : Nat :=
  lfsrWord 32 0 (leap (expandSeed seed) ((S * 2 ^ 96 + b * 2 ^ 64 + 32 * (P + k)) % (2 ^ 127 - 1)))

end Sys2Proof.Machine
end

