-- ==== Sys2Proof/Machine/Steps.lean ====
section
/-! DEFINITION. Steps: random streams, the undo log, gather records, interruption, abandonment (ch. 2, 5, 10, 18). -/

namespace Sys2Proof.Machine

/-! ### Random words (R379–R387) -/

/-- Words that one operation may take: the advance of a stream (R385). -/
def streamStep : Nat := 2 ^ 24

/-- word(b, k) for an operation: the seed in force at its admission, its stream and the position it took then (R380, R387). -/
def State.opWord (_ : State) (o : Op) (b k : Nat) : Nat :=
  rngWord o.seed.toNat (dField o.desc 24 4) o.pos b k

/-- Whether a stream is, or can be, in the position table (R384). -/
def State.streamRoom (s : State) (p st : Nat) : Bool :=
  (sget st (s.part p).streams).isSome || decide ((s.part p).streams.length < 1024)

/-- STREAMS of SCH_RNG_STATUS follows the table. -/
def State.streamReg (s : State) (p : Nat) : State :=
  s.setFld (.schRngStatus p) F.schRngStatus_STREAMS (s.part p).streams.length

/-- The position that an admitted operation takes, and the stream moved on (R385). -/
def State.takeStream (s : State) (p st : Nat) : Nat × State :=
  if st = 0 then (0, s)
  else
    let pos := sgetD st 0 (s.part p).streams
    (pos, (s.modPart p (fun x => { x with streams := sput st ((pos + streamStep) % 2 ^ 59) x.streams })).streamReg p)

/-- CONTROL 0x03 sets a stream's position (R386). -/
def State.rewind (s : State) (p st pos : Nat) : State :=
  (s.modPart p (fun x => { x with streams := sput st pos x.streams })).streamReg p

/-! ### Gather records (R189, R190) -/

/-- Bring TBL_CHART_STATUS up to date. -/
def State.chartStatus (s : State) : State :=
  let s := s.setFld .tblChartStatus F.tblChartStatus_LIVE (min 4096 s.charts.length)
  s.setFld .tblChartStatus F.tblChartStatus_SPILLED
    (min (2 ^ 24 - 1) (sumN (s.charts.map (fun c => (c.chunks.filter (fun k => k.2.isNone)).length))))

/-- Free the gather records that a test names. -/
def State.freeCharts (s : State) (f : Chart → Bool) : State :=
  ({ s with charts := s.charts.filter (fun c => !f c) } : State).chartStatus

/-- The live gather record of a context under an ID. -/
def State.chart? (s : State) (ctx id : Nat) : Option Chart := s.charts.find? (fun c => c.ctx == ctx && c.id == id)

/-! ### Rows of tables under their header (R235–R240) -/

/-- The header of a row whose place and pitch are given (R236). -/
def rowHeader (ver : Nat) (busy : Bool) (writer : Nat) : Nat := ver % 2 ^ 32 + (if busy then 2 ^ 32 else 0) + writer % 4096 * 2 ^ 48

/-- The image of a row: contents, zeros up to the header, and the header (R235, R239). -/
def rowImage (pitch : Nat) (bs : List Byte) (header : Nat) : List Byte :=
  bs ++ List.replicate (pitch - 8 - bs.length) 0 ++ toLe 8 header

/-- The three writes of a row in flash, which takes whole 64-byte units: the last unit of the old row under a BUSY header, the contents with it, and the last unit under the final header (R239, R240, R620). A move copied from here is no longer good (R258). -/
def State.rowFlash (s : State) (a pitch writer ver : Nat) (old bs : List Byte) (what : Bool → FlashFor) : State :=
  let busy := toLe 8 (rowHeader ver true writer)
  let new := rowImage pitch bs (rowHeader (ver + 1) false writer)
  let t := a + pitch - 64
  let unit := fun (l : List Byte) => (l.drop (pitch - 64)).take 56
  let pad := List.replicate (56 - (unit old).length) (0 : Byte)
  let s := s.flashOver a new
  let s := s.flashWrite t (unit old ++ pad ++ busy) (what false)
  let s := s.flashWrite a (new.take (pitch - 8) ++ busy) (what false)
  let s := s.flashWriteBy t (new.drop (pitch - 64)) what
  { s with tbl := { s.tbl with moves := s.tbl.moves.map (fun m => if m.source = a then { m with copied := none } else m) } }

/-- A row's contents are written at its place: header BUSY, contents, header with ROW_VER + 1; `old` is the row in flash before (R239, R240). -/
def State.rowPut (s : State) (ctx a pitch writer ver : Nat) (old bs : List Byte) (what : FlashFor) : State :=
  let h := a + pitch - 8
  match s.place a with
  | 0 =>
    let k := localKey a
    let s := s.write (k + (h - a)) (toLe 8 (rowHeader ver true writer))
    let s := s.write k bs
    s.write (k + (h - a)) (toLe 8 (rowHeader (ver + 1) false writer))
  | 1 =>
    let s := s.kWr (s.keyOf ctx h) (toLe 8 (rowHeader ver true writer))
    let s := s.kWr (s.keyOf ctx a) bs
    s.kWr (s.keyOf ctx h) (toLe 8 (rowHeader (ver + 1) false writer))
  | 2 => s.rowFlash a pitch writer ver old bs (fun _ => what)
  | _ => s

/-- ROW_VER of a row in local or host memory. -/
def State.rowVer (s : State) (ctx a pitch : Nat) : Nat := leBytes (s.kRd (s.keyOf ctx (a + pitch - 8)) 4)

/-! ### Restoring (R367, R629) -/

/-- Put one undo record back (R367). -/
def State.putBack (s : State) (r : UndoRec) : State :=
  match r.kind with
  | .range => match s.place r.addr with
    | 0 => s.write (localKey r.addr) r.old
    | 1 => s.kWr (s.keyOf r.ctx r.addr) r.old
    | 2 => s.flashWrite r.addr r.old (.write none none)
    | _ => s.postBytes none r.ctx false r.addr r.old
  | .row pitch =>
    let ver := if s.place r.addr = 2 then leBytes ((r.old.drop (pitch - 8)).take 4) + 1 else s.rowVer r.ctx r.addr pitch
    s.rowPut r.ctx r.addr pitch s.ownId ver r.old (r.old.take (pitch - 8)) (.write none none)
  | .remote pkg key row => s.post none r.ctx pkg (.rowWrite r.ctx 0 0 s.ownId 0 key row true r.old)

/-- Restore the undo records that a test names, latest first, and drop them (R367, R629). -/
def State.restore (s : State) (p : Nat) (f : UndoRec → Bool) : State :=
  let l := (s.part p).undo
  let s := s.each (l.filter f) State.putBack
  s.modPart p (fun x => { x with undo := x.undo.filter (fun r => !f r) })

/-! ### Gradient accumulators (R204, R234, R44) -/

/-- Add a record into an accumulator: the step's first one replaces contents and count, a later one adds (R204, R234). -/
def State.accWrite (s : State) (r : AccRec) : State :=
  let tail := leBytes (s.kRd (r.key + r.pitch - 8) 8)
  let fresh := tail / 65536 ≠ r.stamp
  let old := if fresh then List.replicate (4 * r.cols) (0 : Byte) else s.kRd r.key (4 * r.cols)
  let mine := (old.drop (4 * r.first)).take (4 * r.vals.length)
  let sum := (blocks 4 mine).zip r.vals |>.map (fun x =>
    if fresh then x.2 else bits32 (FV.f32 (FV.add (fv32 (BitVec.ofNat 32 (leBytes x.1))) (fv32 x.2))))
  let bs := old.take (4 * r.first) ++ sum.flatMap (fun v => toLe 4 v.toNat) ++ old.drop (4 * r.first + 4 * r.vals.length)
  let s := s.store r.key bs
  s.store (r.key + r.pitch - 8) (toLe 8 (min 65535 ((if fresh then 0 else tail % 65536) + r.count) + r.stamp * 65536))

/-- Add a record and keep what an interruption needs (R44, R204). -/
def State.accAdd (s : State) (r : AccRec) : State :=
  let s := { s with tbl := { s.tbl with accs := { r with old := s.kRd r.key r.pitch } :: s.tbl.accs } }
  s.accWrite r

/-- Take back the records that an interrupted partition's own SCATTERs delivered in the frame; those of other packages stand (R44, R634). -/
def State.accRevert (s : State) (p : Nat) : State :=
  let mine := s.tbl.accs.filter (fun r => r.part == p)
  let s := { s with tbl := { s.tbl with
    accs := s.tbl.accs.filter (fun r => r.part ≠ p), merge := s.tbl.merge.filter (fun m => (s.op? m.op).elim false (fun o => o.part ≠ p)),
    switches := s.tbl.switches.filter (fun x => x.part ≠ p), subs := s.tbl.subs.filter (fun x => x.part ≠ p) } }
  let s := s.each mine (fun s r => s.store r.key r.old)
  s.each (mine.reverse.filter AccRec.remote) State.accAdd

/-! ### The end of a step (R47, R374) -/

/-- Mark norm records of the step as not VALID (R374). -/
def State.clearNorms (s : State) (p : Nat) : State :=
  s.each (s.part p).norms (fun s a => s.write (localKey a + 32) [((s.kRd (localKey a + 32) 1).headD 0) &&& 0xFE#8])

/-- Set STALE in the sketches that the step's operations updated (R263). -/
def State.staleSketches (s : State) (p : Nat) : State :=
  s.each (s.part p).sketches (fun s a => s.write (localKey a + 1) [((s.kRd (localKey a + 1) 1).headD 0) ||| 1#8])

/-- What every end of a step does: charts and the undo reservation are released, and the next step starts with the next frame (R190, R367, R371). -/
def State.stepEnd (s : State) (p : Nat) : State :=
  let s := s.freeCharts (fun c => c.part == p)
  let s := s.setFld (.schUndoStatus p) F.schUndoStatus_RESERVED 0
  let s := { s with tbl := { s.tbl with touched := s.tbl.touched.filter (fun x => x.1 ≠ p) } }
  s.modPart p (fun x => { x with
    stepFrames := 0, nonfinite := false, taint := false, late := 0, undo := [], norms := [], sketches := [],
    verdicts := x.verdicts.filter (fun v => decide (s.frame < v.2.1)), deciding := none, interrupts := 0, mismatch := false, stepFirst := s.frame + 1 })

/-- An aborted or abandoned step: everything restored, norms and sketches marked, carried contributions dropped (R367, R374). -/
def State.stepUndo (s : State) (p : Nat) : State :=
  let s := s.restore p (fun _ => true)
  let s := (s.clearNorms p).staleSketches p
  { s with gradCarry := s.gradCarry.filter (fun g => s.partOf g.ctx ≠ p), redCarry := s.redCarry.filter (fun g => s.partOf g.ctx ≠ p) }

/-- Abandonment of a partition's step: changes undone, pending operations complete with status 0x31 (R48, R53). What a tick abandons completes in the following frame, its STRETCH as it was (DESIGN CHOICE, log entry 68). -/
def State.abandon (s : State) (p : Nat) : State :=
  let s := s.wakeTasks (fun t => t.part == p)
  let s := s.stepUndo p
  let ops : List Op := (s.ops ++ (s.part p).rerun).map (fun o =>
    if o.part = p ∧ o.stage ≠ .refused ∧ o.stage ≠ .finished then
      { o with stage := .finished, status := 0x31, detail := 0, aux := o.aux0, reads := [], await := 0, tasksLeft := 0 } else o)
  let s : State := { s with ops := ops }
  let s := s.modPart p (fun x => { x with rerun := [], stretch := 0, commit := none, restoring := false, stopped := false })
  (s.barReset p).stepEnd p


/-! ### Interruption (R44, R45, R628–R632) -/

/-- The progress that a re-run keeps: a CONTROL of the pool that has allocated or freed is not repeated, and keeps its AUX (R758; log entry 72). -/
def Op.keeps (o : Op) : List Nat :=
  if o.desc.poolControl then
    if (o.stage = .ran ∨ o.stage = .finished) ∧ o.status = 0 then [o.aux] else o.prog
  else []

/-- An operation as it will be admitted again (R44, R46). -/
def Op.again (o : Op) : Op :=
  if o.stage = .refused then o
  else { o with stage := .admitted, status := 0, detail := 0, aux := o.aux0, flags := 0, late := 0, stretch := 0, tasksLeft := 0,
                reads := [], fetched := [], await := 0, cores := [], prog := o.keeps }

/-- Whether a context reset has ended the operation: it only completes, and no re-run takes it up (R124, R125). -/
def Op.ended (o : Op) : Bool := o.stage == .finished && o.status == 0x60

/-- Whether a partition's COMMIT has passed step 3 of its sequence: a fault then waits, and finds nothing left to re-run (R630). -/
def State.committing (s : State) (p : Nat) : Bool :=
  s.ops.any (fun o => o.part == p && o.opcode == 0x10 && (o.stage == .started || o.stage == .finished)
    && (match o.prog with | a :: _ => decide (2 ≤ a) | [] => false))

/-- An abandonment that a fault causes is counted; a COMMIT past step 3 finishes first, and leaves nothing to abandon (R630, R662). -/
def State.faultAbandon (s : State) (p : Nat) : State :=
  if s.committing p then s else (s.abandon p).satFld .rasFaultCnt F.rasFaultCnt_ABANDONED 1

/-- The four prediction counters of a partition (R348). -/
def State.preds (s : State) (p : Nat) : Nat × Nat × Nat × Nat :=
  (s.fld (.schPredMarked p) F.schPredMarked_COUNT, s.fld (.schPredIdle p) F.schPredIdle_COUNT,
    s.fld (.schPredAudit p) F.schPredAudit_COUNT, s.fld (.schPredMiss p) F.schPredMiss_COUNT)

/-- The four prediction counters take values (R348, R349). -/
def State.predPut (s : State) (p : Nat) (x : Nat × Nat × Nat × Nat) : State :=
  let s := s.setFld (.schPredMarked p) F.schPredMarked_COUNT x.1
  let s := s.setFld (.schPredIdle p) F.schPredIdle_COUNT x.2.1
  let s := s.setFld (.schPredAudit p) F.schPredAudit_COUNT x.2.2.1
  s.setFld (.schPredMiss p) F.schPredMiss_COUNT x.2.2.2

/-- Stop and undo a partition's frame: tasks stop, this frame's undo records are restored, streams and charts return to the tick, and the operations wait to be admitted again (R629). -/
def State.halt (s : State) (p cls : Nat) : State :=
  let mine := s.ops.filter (fun o => o.part == p && !o.ended)
  if s.frm.phase = .idle ∨ s.committing p then s
  else
    let s := s.wakeTasks (fun t => t.part == p)
    let s := (s.restore p (fun r => decide (s.frame ≤ r.frame + (s.part p).stretch))).accRevert p
    let s := s.predPut p (s.part p).pred0
    let pt := s.part p
    let s : State := { s with
      ops := s.ops.filter (fun o => o.part != p || o.ended),
      graph := { s.graph with appends := s.graph.appends.filter (fun a => a.part ≠ p), counts := s.graph.counts.filter (fun c => c.2.1 ≠ p) },
      charts := s.charts.filter (fun c => c.part ≠ p) ++ pt.charts0 }
    let s := s.modPart p (fun x => { x with
      streams := x.streams0, rerun := mine.map Op.again ++ x.rerun, interrupts := x.interrupts + 1, recovering := true, stopped := true,
      inputs := [], commit := none, deciding := none, missed := [], verdicts := [], stretch := 0 })
    let s := ((s.streamReg p).chartStatus).barReset p
    let s := s.satFld .rasFaultCnt F.rasFaultCnt_RERUNS 1
    s.eventW 0x0701 757 none (some p) cls 0

/-- Interrupt a partition's frame; its third interruption without an end of the re-run abandons it (R629, R632). -/
def State.interrupt (s : State) (p cls : Nat) : State :=
  let t := s.halt p cls
  if 3 ≤ (t.part p).interrupts then t.faultAbandon p else t

/-- The partitions that hold an admitted operation (R628). -/
def State.busyParts (s : State) : List Nat := (s.ops.map Op.part).eraseDups

/-- Interrupt every partition that holds an admitted operation, unless its COMMIT has passed step 3 (R628, R630). -/
def State.interruptAll (s : State) (cls : Nat) : State := s.each s.busyParts (fun s p => s.interrupt p cls)

/-- RECOVERY_END: recovery from an interrupting fault ends; the re-run waits for the next tick (R631, R662). -/
def recoveryEnd (p took at_ : Nat) (s : State) : State :=
  let s := s.reach at_
  if (s.part p).recovering then
    let s := s.modPart p (fun x => { x with recovering := false })
    s.wrapFld .rasUnavail F.rasUnavail_NS took
  else s

end Sys2Proof.Machine
end

