-- ==== Sys2Proof/Machine/TableMap.lean ====
section
/-! DEFINITION. How tables lie in memory: descriptors, versions, shards, row maps, rows and their places (ch. 6, R222–R237, R260, R261). -/

namespace Sys2Proof.Machine

/-- A stand-in operation for accesses made for a context without one of its operations. -/
def ctxOp (c : Nat) : Op := { (default : Op) with ctx := c, desc := 0 }

/-! ### Descriptors and versions (R222–R225) -/

/-- A table descriptor as memory holds it (R222). -/
structure Tbl where
  desc : Nat
  version : Nat
  fmt : Nat
  cols : Nat
  stride : Nat
  current : Nat
  rows : Nat
  deflt : Nat
  sharers : Nat
  sharerCount : Nat
  /-- version slots: NUMBER, SHARDS, SHARD_MAP (R223) -/
  slots : List (Nat × Nat × Nat)
  /-- every reserved field is zero -/
  clean : Bool
  deriving DecidableEq, Repr, Inhabited

/-- The 256 bytes of a table descriptor read as fields (R222, R223). -/
def tblOf (desc : Nat) (bs : List Byte) : Tbl :=
  let v := leBytes bs
  let f := fun off n => bitsN v (8 * off) (8 * n)
  { desc := desc, version := f 0 1, fmt := f 1 1, cols := f 2 2, stride := f 4 2, current := f 6 1, rows := f 8 5, deflt := f 16 8,
    sharers := f 24 8, sharerCount := f 32 2,
    slots := (List.range 4).map (fun i => (f (128 + 16 * i) 4, f (132 + 16 * i) 2, f (136 + 16 * i) 8)),
    clean := f 7 1 == 0 && f 13 3 == 0 && f 34 14 == 0 && f 60 4 == 0 && f 80 48 == 0 && f 192 64 == 0
      && (List.range 4).all (fun i => f (134 + 16 * i) 2 == 0) }

/-- The one form in which the model keeps the address of a replica, whichever way it was named (R390). -/
def State.repAddr (s : State) (desc : Nat) : Nat := mkAddr (localKey desc / 2 ^ 60) s.ownId (localKey desc % 2 ^ 60)

/-- A table descriptor in this package's memory. -/
def State.tblAt (s : State) (desc : Nat) : Tbl := tblOf (s.repAddr desc) (s.kRd (localKey desc) 256)

/-- A stand-in operation for the checks of the descriptor that a context fetches, with what its admission has fetched (R135, R162, R243). -/
def State.admitOp (s : State) (x : Ctx) : Op :=
  { ctxOp x.id with fetched := ((s.net.waits.find? (fun w => w.what == .fetching x.id x.fetched)).map Wait.fetched).getD [] }

/-- A stand-in operation for accesses to a replica's structures, with what was fetched of those that lie elsewhere (log entry 20). -/
def State.repOp (s : State) (ctx desc : Nat) : Op :=
  { ctxOp ctx with fetched := ((s.tbl.known.find? (fun k => k.ctx == ctx && k.desc == s.repAddr desc)).map Known.fetched).getD [] }

/-- The row format as a one-row tensor reference. -/
def Tbl.rowT (t : Tbl) : Tensor := ⟨0, 0, 1, t.fmt, t.cols, 0⟩

/-- Row pitch in bytes. -/
def Tbl.pitch (t : Tbl) : Nat := t.stride * 64

/-- The slot in force. -/
def Tbl.slot (t : Tbl) : Nat × Nat × Nat := nthD t.slots (t.current % 4) (0, 0, 0)

/-- Whether a table descriptor is valid (R2, R224). -/
def Tbl.valid (t : Tbl) : Bool :=
  t.version == 0x30 && decide (t.fmt % 16 ≤ 6) && !bitN t.fmt 6 && !bitN t.fmt 7 && t.rowT.fmtOk false
  && decide (t.rowT.rowBytes + 8 ≤ t.pitch) && decide (t.current < 4) && t.slot.1 != 0 && t.clean

/-- The held slot that a VERSION_PIN names; 0 names the one in force (R95). -/
def Tbl.pinned (t : Tbl) (pin : Nat) : Option (Nat × Nat × Nat) :=
  if pin = 0 then some t.slot else t.slots.find? (fun s => s.1 == pin)

/-- TABLE_KEY of a shard map address (R502). -/
def tableKey (map : Nat) : Nat := bitsN map 5 28

/-- The key of a table's version in force. -/
def Tbl.key (t : Tbl) : Nat := tableKey t.slot.2.2

/-- Columns used and their first, from a table reference (R93). -/
def colsUsed (t : Tbl) (first count : Nat) : Nat := if count = 0 then t.cols - first else count

/-- SHARERS of a table (R225). -/
def State.sharersOf (s : State) (o : Op) (t : Tbl) : List Nat :=
  (List.range (max 1 (min t.sharerCount 4096))).map (fun i => s.opRdN o (t.sharers + 2 * i) 2 % 4096)

/-! ### Shards (R226–R228) -/

/-- A shard entry (R226). -/
structure ShardE where
  first : Nat
  tail : Nat
  ctrl : Nat
  rows : Nat
  deriving DecidableEq, Repr, Inhabited

/-- Shard entry i of a shard map. -/
def State.shardE (s : State) (o : Op) (map i : Nat) : ShardE :=
  let v := s.opRdN o (map + 32 * i) 32
  ⟨bitsN v 0 40, bitsN v 64 64, bitsN v 128 64, bitsN v 192 40⟩

/-- A shard control block (R228). -/
structure Ctrl where
  addr : Nat
  rowMap : Nat
  hotSram : Nat
  nSram : Nat
  nHbm : Nat
  hotHbm : Nat
  tags : Nat
  grad : Nat
  state : Nat
  statePitch : Nat
  sketch : Nat
  deriving DecidableEq, Repr, Inhabited

/-- The 128 bytes of a control block read as fields. -/
def ctrlOf (a : Nat) (bs : List Byte) : Ctrl :=
  let v := leBytes bs
  let f := fun off n => bitsN v (8 * off) (8 * n)
  ⟨a, f 0 8, f 8 8, f 16 4, f 20 4, f 24 8, f 32 8, f 40 8, f 48 8, f 56 2, f 64 8⟩

/-- The control block at an address of this package. -/
def State.ctrlAt (s : State) (a : Nat) : Ctrl := ctrlOf a (s.kRd (localKey a) 128)

/-- A control block as an operation reads it, here or fetched from its package. -/
def State.ctrlOp (s : State) (o : Op) (a : Nat) : Ctrl := ctrlOf a (s.opRd o a 128)

/-- The last shard with FIRST_ROW at or below a row, among the first `n` of a map (R231). -/
def State.lastShard (s : State) (o : Op) (map r : Nat) : Nat → Option Nat
  | 0 => none
  | n + 1 => if (s.shardE o map n).first ≤ r then some n else s.lastShard o map r n

/-- The shard that holds a row, and the row's local index (R231). -/
def State.shardOf (s : State) (o : Op) (slot : Nat × Nat × Nat) (r : Nat) : Option (Nat × Nat) :=
  match s.lastShard o slot.2.2 r slot.2.1 with
  | none => none
  | some i =>
    let e := s.shardE o slot.2.2 i
    if e.rows ≤ r - e.first then none else some (i, r - e.first)

/-! ### Row maps and places (R229–R233) -/

/-- Address of a row map entry. -/
def Ctrl.mapAddr (c : Ctrl) (i : Nat) : Nat := c.rowMap + 8 * i

/-- Address of the row map entry of a row, on whichever package it lies; 0 where the control block that says so is not at hand. -/
def State.mapOf (s : State) (o : Op) (slot : Nat × Nat × Nat) (r : Nat) : Nat :=
  match s.shardOf o slot r with
  | none => 0
  | some (sh, i) =>
    let a := (s.shardE o slot.2.2 sh).ctrl
    if s.isOwn (pkgOf a) ∨ (fetchedAt o.fetched a 128).isSome then (s.ctrlOp o a).mapAddr i else 0

/-- The structures of this package that say where rows are: control blocks and row map entries (R757, R401). -/
def State.rowStructs (s : State) (o : Op) (slot : Nat × Nat × Nat) (r : Nat) : List (Nat × Nat) :=
  match s.shardOf o slot r with
  | none => []
  | some (sh, i) =>
    let e := s.shardE o slot.2.2 sh
    if s.isOwn (pkgOf e.ctrl) then [(e.ctrl, 128), ((s.ctrlAt e.ctrl).mapAddr i, 8)] else []

/-- Address of hot slot n (R231). -/
def Ctrl.slotAddr (c : Ctrl) (pitch n : Nat) : Nat := if n < c.nSram then c.hotSram + n * pitch else c.hotHbm + (n - c.nSram) * pitch

/-- Where a row is: what the map says, seen from its owner (R231). -/
inductive RowAt where
  | invalid
  | missing
  /-- poisoned: address of its row map entry -/
  | poisoned (map : Nat)
  /-- at a place of a shard of this package: shard that holds the place, place number, address, address of its row map entry -/
  | here (shard place addr map : Nat)
  /-- in a guest slot of a shard of another package (KIND 2): its owner, shard and slot -/
  | guest (pkg shard slot : Nat)
  deriving DecidableEq, Repr, Inhabited

/-- Where the map of a shard that this package owns puts a row, its poison mark aside (R229, R231). -/
def State.placeIn (s : State) (o : Op) (t : Tbl) (slot : Nat × Nat × Nat) (sh i : Nat) : RowAt :=
  let e := s.shardE o slot.2.2 sh
  let c := s.ctrlAt e.ctrl
  let m := s.rdN (localKey c.rowMap + 8 * i) 8
  let map := c.mapAddr i
  let kind := m % 4
  let n := bitsN m 16 32
  if kind = 0 then .here sh i (e.tail + i * t.pitch) map
  else if kind = 1 then .here sh (e.rows + n) (c.slotAddr t.pitch n) map
  else if kind = 2 then
    let g := bitsN m 2 12
    if slot.2.1 ≤ g then .missing
    else
      let ge := s.shardE o slot.2.2 g
      if s.isOwn (pkgOf ge.ctrl) then .here g (ge.rows + n) ((s.ctrlAt ge.ctrl).slotAddr t.pitch n) map
      else .guest (pkgOf ge.ctrl) g n
  else .missing

/-- resolve(r) of R231 for a shard that this package owns. -/
def State.resolveIn (s : State) (o : Op) (t : Tbl) (slot : Nat × Nat × Nat) (sh i : Nat) : RowAt :=
  let c := s.ctrlAt (s.shardE o slot.2.2 sh).ctrl
  if bitN (s.rdN (localKey c.rowMap + 8 * i) 8) 63 then .poisoned (c.mapAddr i) else s.placeIn o t slot sh i

/-- resolve(r) of R231 for a row whose shard this package owns. -/
def State.resolve (s : State) (o : Op) (t : Tbl) (slot : Nat × Nat × Nat) (r : Nat) : RowAt :=
  if t.rows ≤ r then .invalid
  else
    match s.shardOf o slot r with
    | none => .missing
    | some (sh, i) => s.resolveIn o t slot sh i

/-- GRAD_PITCH (R233). -/
def Tbl.gradPitch (t : Tbl) : Nat := cdiv (4 * t.cols + 8) 64 * 64

/-- Key of the gradient accumulator of a place (R233). -/
def Ctrl.gradKey (c : Ctrl) (t : Tbl) (p : Nat) : Nat := localKey c.grad + p * t.gradPitch

/-- Address of the optimiser state of a place (R233). -/
def Ctrl.stateAddr (c : Ctrl) (p : Nat) : Nat := c.state + p * c.statePitch

/-- COUNT and STAMP of an accumulator (R234). -/
def State.gradTail (s : State) (t : Tbl) (k : Nat) : Nat × Nat :=
  let v := leBytes (s.kRd (k + t.gradPitch - 8) 8)
  (v % 65536, v / 65536)

/-- Write the POISON bit of a row map entry, here where it changes or by a posted write of its last byte to the package that holds it (R218, R229, R251); an entry of address 0 is not known. -/
def State.markRow (s : State) (ctx map : Nat) (poison : Bool) : State :=
  if map = 0 then s
  else if s.isOwn (pkgOf map) then
    let v := leBytes (s.kRd (localKey map) 8)
    if bitN v 63 = poison then s else s.store (localKey map) (toLe 8 (v % 2 ^ 63 + (if poison then 2 ^ 63 else 0)))
  else s.postBytes none ctx false (map + 7) [if poison then 0x80 else 0]

/-- Set the POISON bit of a row map entry (R218). -/
def State.poisonRow (s : State) (ctx map : Nat) : State := s.markRow ctx map true

/-- Clear the POISON bit of a row map entry (R251). -/
def State.unpoisonRow (s : State) (ctx map : Nat) : State := s.markRow ctx map false

/-- The rows of a shard of this package whose tail places or hot slots a run of bytes touches: addresses of their row map entries. -/
def State.shardMapsAt (s : State) (o : Op) (t : Tbl) (sh k n : Nat) : List Nat :=
  let e := s.shardE o t.slot.2.2 sh
  let c := s.ctrlAt e.ctrl
  let idx := fun (base count : Nat) =>
    if t.pitch = 0 ∨ k + n ≤ base then [] else
      let lo := (k - base) / t.pitch
      (List.range (cdiv (k + n - base) t.pitch - lo)).filterMap (fun j => if lo + j < count then some (lo + j) else none)
  let tail := if spaceOf e.tail ≤ 1 then
      ((idx (localKey e.tail) e.rows).filter (fun i => leBytes (s.kRd (localKey (c.mapAddr i)) 8) % 4 == 0)).map c.mapAddr
    else []
  let slots := (idx (localKey c.hotSram) c.nSram) ++ (idx (localKey c.hotHbm) c.nHbm).map (· + c.nSram)
  tail ++ slots.filterMap (fun i =>
    let v := leBytes (s.kRd (localKey c.tags + 8 * i) 8)
    if bitN v 63 then some (s.mapOf o t.slot (bitsN v 0 40)) else none)

/-- A failed write of another package marks the table rows that it targets (R218). -/
def State.poisonRowsAt (s : State) (k n : Nat) : State :=
  let l := s.tbl.known.flatMap (fun x =>
    let t := s.tblAt x.desc
    let o := s.repOp x.ctx x.desc
    if t.valid then
      (List.range t.slot.2.1).flatMap (fun sh =>
        if s.isOwn (pkgOf (s.shardE o t.slot.2.2 sh).ctrl) then (s.shardMapsAt o t sh k n).map (fun m => (x.ctx, m)) else [])
    else [])
  s.each ((l.map Prod.snd).eraseDups) (fun s m => s.poisonRow (((l.find? (fun x => x.2 == m)).map Prod.fst).getD 0) m)

/-! ### Counters and sketches (R260, R261, R265) -/

/-- Count for a shard's load counter, written at the tick (R265). -/
def State.load (s : State) (ctrl i n : Nat) : State :=
  { s with tbl := { s.tbl with loads := smod (ctrl * 8 + i) 0 (· + n) s.tbl.loads } }

/-- Load counts reach the control blocks at the tick, and wrap at 48 bits (R265). -/
def State.loadTick (s : State) : State :=
  let l := s.tbl.loads
  let s := { s with tbl := { s.tbl with loads := [] } }
  s.each l (fun s x =>
    let k := localKey (x.1 / 8) + 72 + 8 * (x.1 % 8)
    s.write k (toLe 8 ((leBytes (s.kRd k 6) + x.2) % 2 ^ 48)))

/-- below(u, m) of R158. -/
def below (u m : Nat) : Nat := u % 2 ^ 32 * m / 2 ^ 32

/-- sketch_index (R261). -/
def sketchIndex (r j w : Nat) : Nat := below (mix64 ((r + (j + 1) * 0x9E3779B97F4A7C15) % 2 ^ 64) / 2 ^ 32) w

/-- One counter of a sketch grows, and SATURATED is set at 0xFFFF (R261). -/
def State.sketchBump (s : State) (base r w j : Nat) : State :=
  let k := localKey base + 64 + 2 * w * j + 2 * sketchIndex r j w
  let v := leBytes (s.kRd k 2)
  let s := s.write k (toLe 2 (min 65535 (v + 1)))
  if v + 1 ≥ 65535 then s.write (localKey base + 1) [((s.kRd (localKey base + 1) 1).headD 0) ||| 2#8] else s

/-- A row read served by the owner counts in its shard's sketch (R261). -/
def State.sketchRead (s : State) (p : Option Nat) (base r : Nat) : State :=
  if base = 0 then s
  else
    let lg := (s.kRd (localKey base) 1).headD 0 |>.toNat
    if lg < 10 ∨ 20 < lg then s
    else
      let s := s.each (List.range 4) (fun s j => s.sketchBump base r (2 ^ lg) j)
      let k := localKey base + 16
      let s := s.write k (toLe 6 (leBytes (s.kRd k 6) + 1))
      match p with
      | some p => s.modPart p (fun x => { x with sketches := insertNew base x.sketches })
      | none => s

/-- Remember a replica that a context has named, and what was fetched of its structures (log entry 20). -/
def State.learnTable (s : State) (ctx desc : Nat) : State :=
  let t := s.tblAt desc
  if t.valid then
    let k : Known := ⟨ctx, t.key, t.desc, (s.repOp ctx desc).fetched⟩
    { s with tbl := { s.tbl with known := k :: s.tbl.known.filter (fun k => !(k.ctx == ctx && k.desc == t.desc)) } }
  else s

/-- Keep what was fetched of the structures of a replica on other packages, in place of what was kept (log entry 20). -/
def State.learnFetched (s : State) (ctx desc : Nat) (rs : List (Nat × Nat)) (fetched : List (Nat × List Byte)) : State :=
  let far := rs.filter (fun r => decide (1 < s.place r.1))
  let l := fetched.filter (fun p => far.any (fun r => overlap p.1 p.2.length r.1 r.2))
  if l.isEmpty then s
  else
    { s with tbl := { s.tbl with known := s.tbl.known.map (fun k =>
        if k.ctx = ctx ∧ k.desc = s.repAddr desc then
          { k with fetched := k.fetched.filter (fun p => l.all (fun q => p.1 != q.1)) ++ l }
        else k) } }

/-- The replica that a context of this package uses for a table key (log entry 20). -/
def State.replica (s : State) (ctx key : Nat) : Option Tbl :=
  ((s.tbl.known.find? (fun k => k.ctx == ctx && k.key == key)).map (fun k => s.tblAt k.desc)).filter (fun t => t.valid)

/-- The fields that the JH3 writes at ticks, read as zero for the shoal (R647): counters of descriptors, load counters, sketches. -/
def State.tickFields (s : State) : List (Nat × Nat) :=
  s.tbl.known.flatMap (fun k =>
    let t := s.tblAt k.desc
    let d := localKey k.desc
    [(d + 48, 12), (d + 64, 16)] ++
    (List.range t.slot.2.1).flatMap (fun i =>
      let e := s.shardE (s.repOp k.ctx k.desc) t.slot.2.2 i
      if s.isOwn (pkgOf e.ctrl) then
        let c := s.ctrlAt e.ctrl
        let lg := ((s.kRd (localKey c.sketch) 1).headD 0).toNat
        (localKey e.ctrl + 72, 48) :: (if c.sketch = 0 then [] else [(localKey c.sketch, 64 + 8 * 2 ^ (min lg 20))])
      else []))

end Sys2Proof.Machine
end

