-- ==== Sys2Proof/Machine/Shoal.lean ====
section
/-! DEFINITION. Parity shoals: stripes, deltas and seals, repair, rebuild, the standby, and lost packages (ch. 18, R639–R659). -/

namespace Sys2Proof.Machine

/-! ### Stripes (R642, R643) -/

def State.shK (s : State) : Nat := s.fld .rasShoalCtrl F.rasShoalCtrl_K
def State.shM (s : State) : Nat := s.fld .rasShoalCtrl F.rasShoalCtrl_M

/-- n = k + m members. -/
def State.shN (s : State) : Nat := s.shK + s.shM

/-- Package ID of a rank. -/
def State.member (s : State) (r : Nat) : Nat := bitsN (s.reg (.rasShoalMember (r / 4))).toNat (r % 4 * 16) 12

/-- The members by rank. -/
def State.members (s : State) : List Nat := (List.range s.shN).map s.member

/-- Rank of this package in its shoal, or of the member whose ID a standby serves. -/
def State.shRank (s : State) : Option Nat := findIdxN s.isOwn 0 s.members

/-- Members that are not lost; a valid alias stands for the one it serves. -/
def State.live (s : State) (r : Nat) : Bool := s.isOwn (s.member r) || decide (s.member r ∉ s.net.lost)

/-- stripe_of(r, L): stripe and position (R642). -/
def stripeOf (n k r L : Nat) : Nat × Nat := ((L * n + r) / k, (L * n + r) % k)

/-- holder(t, j): rank and parity slot (R642). -/
def holderOf (n m t j : Nat) : Nat × Nat :=
  let q := (t + 1) * m - 1 - j
  (n - 1 - q % n, q / n)

/-- Stripe and parity index of a slot of a rank: the inverse of `holderOf`. -/
def slotStripe (n m r s : Nat) : Nat × Nat :=
  let q := s * n + (n - 1 - r)
  (q / m, m - 1 - q % m)

/-- Rank and line at position i of a stripe. -/
def stripeLine (n k t i : Nat) : Nat × Nat := ((t * k + i) % n, (t * k + i) / n)

/-- Product by 2 in GF(2^8) with x^8 + x^4 + x^3 + x^2 + 1 (R643). -/
def gfX (a : Nat) : Nat := if 128 ≤ a then (a * 2) % 256 ^^^ 0x1D else a * 2

/-- Product in GF(2^8). -/
def gfMulAux : Nat → Nat → Nat → Nat → Nat
  | 0, _, _, acc => acc
  | n + 1, a, b, acc => gfMulAux n (gfX a) (b / 2) (if b % 2 = 1 then acc ^^^ a else acc)

def gfMul (a b : Nat) : Nat := gfMulAux 8 a b 0

/-- g^n with g = 2. -/
def gfPow : Nat → Nat
  | 0 => 1
  | n + 1 => gfX (gfPow n)

/-- Inverse: a^254. -/
def gfInv (a : Nat) : Nat := (List.range 253).foldl (fun x _ => gfMul x a) a

/-- coef_j(i) (R644). -/
def parCoef (j i : Nat) : Nat := if j = 0 then 1 else gfPow i

def xorBytes (a b : List Byte) : List Byte := List.zipWith (· ^^^ ·) a b

def scaleBytes (c : Nat) (a : List Byte) : List Byte := a.map (fun x => BitVec.ofNat 8 (gfMul c x.toNat))

/-! ### Lines of this member -/

/-- Key of a protected line of this package, if it lies within a range (R642). -/
def lineKeyIn : List (Nat × Nat) → Nat → Option Nat
  | [], _ => none
  | (k, n) :: rs, L => if 2048 * L < n then some (k + 2048 * L) else lineKeyIn rs (L - n / 2048)

def State.lineKey (s : State) (L : Nat) : Option Nat := lineKeyIn s.shoalRanges L

/-- The protected line that holds a key. -/
def keyLineIn : List (Nat × Nat) → Nat → Nat → Option Nat
  | [], _, _ => none
  | (k, n) :: rs, base, a => if k ≤ a ∧ a < k + n then some (base + (a - k) / 2048) else keyLineIn rs (base + n / 2048) a

def State.keyLine (s : State) (a : Nat) : Option Nat := keyLineIn s.shoalRanges 0 a

/-- Zero the fields that the JH3 writes at ticks (R647). -/
def State.maskTick (s : State) (k : Nat) (bs : List Byte) : List Byte :=
  s.tickFields.foldl (fun bs f => overlay k bs (f.1, List.replicate f.2 0)) bs

/-- The undo records of a partition's step in local memory, latest first, as keys and bytes. -/
def State.stepOld (s : State) (p : Nat) : List (Nat × List Byte) :=
  (s.part p).undo.filterMap (fun r =>
    match r.kind with
    | .remote .. => none
    | _ => if s.place r.addr = 0 then some (localKey r.addr, r.old) else none)

/-- The local undo records of the open steps of partitions that a test names, latest first. -/
def State.openOld (s : State) (f : Nat → Bool) : List (Nat × List Byte) :=
  s.parts.flatMap (fun p => if f p.1 then s.stepOld p.1 else [])

/-- A run of bytes as of this package's latest seal: what waits for the tick's seal and the open steps are undone (R650). -/
def State.sealedBytes (s : State) (k n : Nat) : List Byte := (s.shoal.tick ++ s.openOld (fun _ => true)).foldl (overlay k) (s.kRd k n)

/-- A 256-byte part of a protected line as of a seal, where R650 lets it be read. -/
def State.linePart (s : State) (reader L part no : Nat) : Option (List Byte) :=
  let latest := s.fld .rasShoalSeal F.rasShoalSeal_SEAL
  match s.lineKey L with
  | none => some (List.replicate 256 0)
  | some k0 =>
    let k := k0 + 256 * part
    if no = latest then some (s.maskTick k (s.sealedBytes k 256))
    else
      match s.shoal.out.find? (fun x => x.no == latest) with
      | some x =>
        if (no + 1) % 2 ^ 48 = latest ∧ reader ∈ x.wait then
          some (s.maskTick k (x.old.foldl (overlay k) (s.sealedBytes k 256)))
        else none
      | none => none

/-! ### Deltas and seals (R644, R645, R652) -/

/-- Key of a parity slot. -/
def State.slotKey (s : State) (slot : Nat) : Nat := memKey (s.fld .rasShoalParityBase F.rasShoalParityBase_BASE * 65536) + 2048 * slot

/-- A shoal message, in sequence with the posted writes (R645, R646). -/
def State.shoalSend (s : State) (dst kind j part line no count : Nat) (data : List Byte) : State :=
  s.post none 0 dst (.parity kind j part line no count 0 data)

/-- The 256-byte parts of protected lines that a list of records touches, each once. -/
def State.touchedParts (s : State) (recs : List (Nat × List Byte)) : List Nat :=
  (recs.flatMap (fun r => (List.range ((r.1 % 256 + r.2.length + 255) / 256)).map (fun i => r.1 / 256 + i))).eraseDups.filter
    (fun p => (s.keyLine (256 * p)).isSome)

/-- Form a seal from what a list of records, latest first, says the lines held, beside writes that stay open: deltas to the holders, and a SEAL to every other member (R644). -/
def State.formSeal (s : State) (recs others : List (Nat × List Byte)) : State :=
  if !s.bit .rasShoalCtrl F.rasShoalCtrl_ENABLE then s
  else
    match s.shRank with
    | none => s
    | some me =>
      let ps := s.touchedParts recs
      if ps.isEmpty then s
      else
        let no := (s.fld .rasShoalSeal F.rasShoalSeal_SEAL + 1) % 2 ^ 48
        let s := s.setFld .rasShoalSeal F.rasShoalSeal_SEAL no
        let n := s.shN
        let held := fun (p : Nat) => others.foldl (overlay (256 * p)) (s.kRd (256 * p) 256)
        let old := ps.map (fun p => (256 * p, held p, recs.foldl (overlay (256 * p)) (held p)))
        let ds : List (Nat × Nat × Nat × Nat × List Byte) := old.flatMap (fun o =>
          let d := xorBytes (s.maskTick o.1 o.2.2) (s.maskTick o.1 o.2.1)
          if d.all (· == 0) then []
          else
            match s.keyLine o.1 with
            | none => []
            | some L =>
              let st := stripeOf n s.shK me L
              (List.range s.shM).map (fun j =>
                let h := holderOf n s.shM st.1 j
                (h.1, j, o.1 % 2048 / 256, h.2, scaleBytes (parCoef j st.2) d)))
        let ds := ds.filter (fun d => s.live d.1)
        let s := s.each ds (fun s d => s.shoalSend (s.member d.1) 0 d.2.1 d.2.2.1 d.2.2.2.1 no 0 d.2.2.2.2)
        let rest := (List.range n).filter (fun r => r != me && s.live r)
        let s := s.each rest (fun s r => s.shoalSend (s.member r) 1 0 0 0 no (ds.countP (fun d => d.1 == r)) [])
        { s with shoal := { s.shoal with out := s.shoal.out ++ [⟨no, rest.map s.member, old.map (fun o => (o.1, o.2.2))⟩] } }

/-- The seal of a committing step of a partition (R371, R644). -/
def State.sealStep (s : State) (p : Nat) : State := s.formSeal (s.stepOld p) (s.shoal.tick ++ s.openOld (fun q => q != p))

/-- The seal of a tick that has applied moves or version switches to protected lines (R644). -/
def State.sealTick (s : State) : State :=
  if s.shoal.tick.isEmpty then s
  else ({ s with shoal := { s.shoal with tick := [] } } : State).formSeal s.shoal.tick (s.openOld (fun _ => true))

/-- XOR deltas into parity slots. -/
def State.xorDeltas (s : State) (l : List Delta) : State :=
  s.each l (fun s d =>
    let k := s.slotKey d.slot + 256 * d.part
    s.write k (xorBytes (s.kRd k 256) d.data))

/-- Whether a stripe read of this package defers newer deltas of a slot (R651). -/
def State.slotBusy (s : State) (slot : Nat) : Bool :=
  match s.shRank with
  | none => false
  | some r => s.shoal.jobs.any (fun j => j.stripe == (slotStripe s.shN s.shM r slot).1)

/-- Apply a seal of a source when its deltas have come and no stripe read defers it (R645, R651). -/
def State.trySeal (s : State) (x : Nat × Nat × Nat) : State :=
  let mine := s.shoal.staged.filter (fun d => d.src == x.1 && d.sealNo == x.2.1)
  if mine.length ≠ x.2.2 ∨ mine.any (fun d => s.slotBusy d.slot) then s
  else
    let left : List Delta := s.shoal.staged.filter (fun d => !(d.src == x.1 && d.sealNo == x.2.1))
    let kept : List Delta := s.shoal.journal.filter (fun d => d.src ≠ x.1)
    let s : State := { s with shoal := { s.shoal with
      staged := left
      seals := s.shoal.seals.filter (fun y => y ≠ x)
      applied := sput x.1 x.2.1 s.shoal.applied
      journal := kept ++ mine } }
    let aliased := s.bit .rasAlias F.rasAlias_VALID
    let s := s.xorDeltas (mine.filter (fun d => !aliased || decide (d.slot < s.shoal.rebuilt)))
    let s := if s.fld .rasShoalJournalSize F.rasShoalJournalSize_UNITS * 256 < s.shoal.journal.length then s.shoalState 3 else s
    s.shoalSend x.1 2 0 0 0 x.2.1 0 []

/-- Try every waiting seal, oldest first. -/
def State.trySeals (s : State) : State := s.each s.shoal.seals State.trySeal

/-- Delta and seal of a source's seal (R645): DELTA. -/
def State.deltaIn (s : State) (src part slot no : Nat) (data : List Byte) : State :=
  { s with shoal := { s.shoal with staged := s.shoal.staged ++ [⟨src, no, slot, part, data⟩] } }

/-- SEAL (R645). -/
def State.sealIn (s : State) (src no count : Nat) : State :=
  ({ s with shoal := { s.shoal with seals := s.shoal.seals ++ [(src, no, count)] } } : State).trySeals

/-- ACK: a member has applied a seal of this package (R645). -/
def State.parityAckIn (s : State) (src no : Nat) : State :=
  let out : List SealOut := s.shoal.out.map (fun x => if x.no = no then { x with wait := x.wait.filter (· ≠ src) } else x)
  { s with shoal := { s.shoal with out := out.filter (fun x => !x.wait.isEmpty) } }

/-- Seals whose acknowledgements a COMMIT waits for (R371). -/
def State.sealsOpen (s : State) : Bool := !s.shoal.out.isEmpty

/-! ### Reading a stripe (R649–R653, R656–R658) -/

/-- READ: a 256-byte part of a protected line as of a seal, or with J 1 of a parity slot, is answered (R650; log entry 31). -/
def State.parityReadIn (s : State) (src j part line no tag : Nat) : State :=
  if j = 1 then s.shoalSend src 4 1 part line no tag (s.kRd (s.slotKey line + 256 * part) 256)
  else
    match s.linePart src line part no with
    | some d => s.shoalSend src 4 0 part line no tag d
    | none => s

/-- The whole of a piece, once its 8 parts are there. -/
def ShoalPiece.data (p : ShoalPiece) : List Byte := (List.range 8).flatMap (fun i => sgetD i [] p.got)

def ShoalPiece.complete (p : ShoalPiece) : Bool := (List.range 8).all (fun i => (sget i p.got).isSome)

/-- The data line missing at position `i`, from the other data lines and one parity (R643). -/
def solveOne (k j i : Nat) (data : List (Nat × List Byte)) (par : List Byte) : List Byte :=
  let sum := (List.range k).foldl (fun acc x => if x = i then acc else xorBytes acc (scaleBytes (parCoef j x) (sgetD x (List.replicate 2048 0) data))) par
  scaleBytes (gfInv (parCoef j i)) sum

/-- The data line missing at position `i` where position `i2` is lost too, from P and Q together (R658). -/
def solveTwo (k i i2 : Nat) (data : List (Nat × List Byte)) (p q : List Byte) : List Byte :=
  let rest := fun j (par : List Byte) => (List.range k).foldl (fun acc x =>
    if x = i ∨ x = i2 then acc else xorBytes acc (scaleBytes (parCoef j x) (sgetD x (List.replicate 2048 0) data))) par
  let a := rest 0 p
  let b := rest 1 q
  scaleBytes (gfInv (gfPow i ^^^ gfPow i2)) (xorBytes b (scaleBytes (gfPow i2) a))

/-- Parity j of a stripe from its data lines (R643). -/
def parityLine (k j : Nat) (data : List (Nat × List Byte)) : List Byte :=
  (List.range k).foldl (fun acc x => xorBytes acc (scaleBytes (parCoef j x) (sgetD x (List.replicate 2048 0) data))) (List.replicate 2048 0)

/-- The latest seal of a member that this package has applied (R651). -/
def State.appliedOf (s : State) (pkg : Nat) : Nat := sgetD pkg 0 s.shoal.applied

/-- What a piece is read from: nothing to ask for a line of this package, a zero line, or a read of each part. -/
def State.startPiece (s : State) (id idx : Nat) (pos : Option Nat) (par rank line : Nat) : ShoalPiece × State :=
  let pkg := s.member rank
  let tag := id * 32 + idx
  let ready := fun (bs : List Byte) => ((blocks 256 bs).zipIdx.map (fun b => (b.2, b.1)))
  if s.isOwn pkg ∨ (pos.isSome ∧ s.fld .rasShoalLines F.rasShoalLines_LINES ≤ line) then
    let bs := if pos.isNone then s.kRd (s.slotKey line) 2048
      else if !s.isOwn pkg then List.replicate 2048 0
      else match s.lineKey line with
        | some k => s.maskTick k (s.sealedBytes k 2048)
        | none => List.replicate 2048 0
    (⟨pos, par, pkg, line, tag, ready bs⟩, s)
  else
    (⟨pos, par, pkg, line, tag, []⟩,
      s.each (List.range 8) (fun s p => s.shoalSend pkg 3 (if pos.isNone then 1 else 0) p line (s.appliedOf pkg) tag []))

/-- Start pieces one after another. -/
def State.startPieces (s : State) (id : Nat) : List (Option Nat × Nat × Nat × Nat) → Nat → List ShoalPiece → List ShoalPiece × State
  | [], _, acc => (acc, s)
  | (pos, par, rank, line) :: r, idx, acc =>
    let x := s.startPiece id idx pos par rank line
    x.2.startPieces id r (idx + 1) (acc ++ [x.1])

/-- The lost positions of a stripe, and the parities whose holder lives. -/
def State.stripeLost (s : State) (t : Nat) : List Nat :=
  (List.range s.shK).filter (fun i => !s.live (stripeLine s.shN s.shK t i).1)

def State.stripePars (s : State) (t : Nat) : List Nat :=
  (List.range s.shM).filter (fun j => s.live (holderOf s.shN s.shM t j).1)

/-- Begin to read a stripe: its live data lines but one to be found, and as many parities as lines are unknown (R651, R653, R658). -/
def State.startJob (s : State) (t : Nat) (skip : Option Nat) (what : ShoalFor) : State :=
  let id := s.shoal.nextJob
  let unknown := insertNewOpt skip (s.stripeLost t)
  let data := ((List.range s.shK).filter (fun i => i ∉ unknown)).map (fun i =>
    let x := stripeLine s.shN s.shK t i
    (some i, 0, x.1, x.2))
  let pars := match what with
    | .slot _ => []
    | _ => ((s.stripePars t).take unknown.length).map (fun j =>
      let h := holderOf s.shN s.shM t j
      (none, j, h.1, h.2))
  let s := { s with shoal := { s.shoal with nextJob := (id + 1) % 2 ^ 26 } }
  let x := s.startPieces id (data ++ pars) 0 []
  { x.2 with shoal := { x.2.shoal with jobs := x.2.shoal.jobs ++ [⟨id, t, what, x.1⟩] } }
where
  /-- add the position to be found to the lost ones -/
  insertNewOpt (o : Option Nat) (l : List Nat) : List Nat := match o with | some i => insertNew i l | none => l

/-- The line at a position, from the pieces of a job. -/
def State.solveLine (s : State) (j : ShoalJob) (i : Nat) : Option (List Byte) :=
  let data := j.pieces.filterMap (fun p => p.pos.map (fun i => (i, p.data)))
  let pars := j.pieces.filter (fun p => p.pos.isNone)
  let unknown := (List.range s.shK).filter (fun x => (sget x (data.foldl (fun l d => sput d.1 d.2 l) [])).isNone)
  let data := data.foldl (fun l d => sput d.1 d.2 l) []
  match sget i data with
  | some d => some d
  | none =>
    match unknown.filter (· ≠ i), pars with
    | [], p :: _ => some (solveOne s.shK p.par i data p.data)
    | [i2], p :: q :: _ => some (solveTwo s.shK i i2 data p.data q.data)
    | _, _ => none

/-- Poison a protected line that cannot be repaired (R653). -/
def State.poisonLine (s : State) (L : Nat) : State :=
  match s.lineKey L with
  | some k => { s with poison := (burstsOf k 2048).foldl (fun l b => insertNew b l) s.poison }
  | none => s

/-- Where the rebuilt line of a lost member goes: to its ID, which the standby serves, or with MODE 1 to a survivor's spread area (R656, R657; log entry 31). -/
def State.sendRebuilt (s : State) (L : Nat) (bs : List Byte) : State :=
  let x := s.fld .rasShoalStatus F.rasShoalStatus_LOST
  let spread := s.bit .rasShoalCtrl F.rasShoalCtrl_MODE && !s.bit .rasShoalStandby F.rasShoalStandby_VALID
  let surv := s.members.filter (fun p => p ≠ x)
  let dst := if spread then nthD surv (L % (s.shN - 1)) 0 else x
  let s := s.wrapFld .rasShoalRepair F.rasShoalRepair_REBUILT 1
  if s.isOwn dst then
    s.write (memKey (s.fld .rasSpreadBase F.rasSpreadBase_BASE * 65536) + 2048 * (L / (s.shN - 1))) bs
  else s.each (chunks 256 bs) (fun s c => s.shoalSend dst 4 0 (c.1 / 256) L (s.shoal.rebuildSeal.getD 0) (2 ^ 32 - 1) c.2)

/-- Use the pieces of a complete job. -/
def State.useJob (s : State) (j : ShoalJob) : State :=
  match j.what with
  | .slot sl =>
    let par := (match s.shRank with | some r => (slotStripe s.shN s.shM r sl).2 | none => 0)
    let data := j.pieces.foldl (fun l p => match p.pos with | some i => sput i p.data l | none => l) []
    let s := s.write (s.slotKey sl) (parityLine s.shK par data)
    if s.bit .rasAlias F.rasAlias_VALID then
      ({ s with shoal := { s.shoal with rebuilt := max s.shoal.rebuilt (sl + 1) } } : State).wrapFld .rasShoalRepair F.rasShoalRepair_REBUILT 1
    else s
  | .repair L parts =>
    match s.shRank, s.lineKey L with
    | some r, some k =>
      match s.solveLine j (stripeOf s.shN s.shK r L).2 with
      | some d =>
        let s := s.write k d
        let s := (s.satFld .rasShoalRepair F.rasShoalRepair_REPAIRED 1).eventW 0x0708 755 none none L 0
        s.each parts State.faultAbandon
      | none => s.poisonLine L
    | _, _ => s
  | .line L =>
    match findIdxN (· == s.fld .rasShoalStatus F.rasShoalStatus_LOST) 0 s.members with
    | some r =>
      match s.solveLine j (stripeOf s.shN s.shK r L).2 with
      | some d => s.sendRebuilt L d
      | none => s
    | none => s

/-- Finish the jobs whose pieces are all there, and apply what they deferred (R651). -/
def State.endJobs (s : State) : State :=
  let fin := s.shoal.jobs.filter (fun j => j.pieces.all ShoalPiece.complete)
  let s := { s with shoal := { s.shoal with jobs := s.shoal.jobs.filter (fun j => !j.pieces.all ShoalPiece.complete) } }
  (s.each fin State.useJob).trySeals

/-- Parity slots of a member (R642). -/
def State.slotCount (s : State) : Nat := cdiv (s.fld .rasShoalLines F.rasShoalLines_LINES * s.shM) s.shK + 1

/-- The pass of INIT goes on with its next slot while no read is outstanding, and ends with STATE protected (R649). -/
def State.initStep (s : State) (_ : Nat) : State :=
  match s.shoal.initNext with
  | none => s
  | some sl =>
    if !s.shoal.jobs.isEmpty then s
    else if s.slotCount ≤ sl then ({ s with shoal := { s.shoal with initNext := none } } : State).shoalState 2
    else
      match s.shRank with
      | none => s
      | some r =>
        let s := { s with shoal := { s.shoal with initNext := some (sl + 1) } }
        (s.startJob (slotStripe s.shN s.shM r sl).1 none (.slot sl)).endJobs

def State.initPass (s : State) : State :=
  match s.shoal.initNext with
  | none => s
  | some sl => s.each (List.range (s.slotCount + 1 - sl)) State.initStep

/-- SHOAL_INIT: a write of INIT computes every parity slot afresh (R649). -/
def shoalInit (s : State) : State :=
  if s.bit .rasShoalCtrl F.rasShoalCtrl_ENABLE then
    let s := s.shoalState 1
    ({ s with shoal := { s.shoal with initNext := some 0 } } : State).initPass
  else s

/-- READ_DATA: a part of a line arrives for a stripe read, or a rebuilt line for the standby or the spread area (R651, R656, R657). -/
def State.parityDataIn (s : State) (part line tag : Nat) (data : List Byte) : State :=
  if tag = 2 ^ 32 - 1 then
    let k := if s.bit .rasAlias F.rasAlias_VALID then s.lineKey line
      else some (memKey (s.fld .rasSpreadBase F.rasSpreadBase_BASE * 65536) + 2048 * (line / (s.shN - 1)))
    match k with
    | some k => (s.write (k + 256 * part) data).iff (part == 7) (fun s => s.wrapFld .rasShoalRepair F.rasShoalRepair_REBUILT 1)
    | none => s
  else
    let jobs : List ShoalJob := s.shoal.jobs.map (fun j =>
      { j with pieces := j.pieces.map (fun p => if p.tag = tag then { p with got := sput part data p.got } else p) })
    (({ s with shoal := { s.shoal with jobs := jobs } } : State).endJobs).initPass

/-- Whether this member can repair its lines (R653, R658). -/
def State.canRepair (s : State) : Bool :=
  s.bit .rasShoalCtrl F.rasShoalCtrl_ENABLE &&
  (s.fld .rasShoalStatus F.rasShoalStatus_STATE == 2 || s.fld .rasShoalStatus F.rasShoalStatus_STATE == 4)

/-- Line repair: the stripe of a protected line is read, and the line comes back as of the latest seal; without enough of the stripe the line stays poisoned (R653). -/
def State.repairLine (s : State) (L : Nat) : State :=
  match s.shRank, s.lineKey L with
  | some r, some k =>
    let st := stripeOf s.shN s.shK r L
    if !s.canRepair ∨ (s.stripePars st.1).length < (s.stripeLost st.1).length + 1 then s.poisonLine L
    else
      let parts := (s.parts.filter (fun p => p.2.undo.any (fun u =>
        s.place u.addr == 0 && overlap (localKey u.addr) u.old.length k 2048))).map Prod.fst
      (s.startJob st.1 (some st.2) (.repair L parts)).endJobs
  | _, _ => s.poisonLine L

/-- A frame reads an uncorrectable burst: the frames are interrupted and the line repaired where the shoal protects it, else the reading partition's frame is abandoned (R627, R628, R653). -/
def State.frameFault (s : State) (p burst : Nat) : State :=
  let s := s.uncorrectable burst
  match s.keyLine (64 * burst) with
  | some L =>
    if s.canRepair then (s.interruptAll 7).repairLine L else s.faultAbandon p
  | none => s.faultAbandon p

/-! ### Seal agreement and rebuild (R654, R656–R659) -/

/-- SEAL_QUERY: report which seal of a member this package has applied (R654). -/
def State.sealQueryIn (s : State) (src lost : Nat) : State := s.shoalSend src 7 0 0 0 (s.appliedOf lost) lost []

/-- REVERT: undo the lost member's next seal from the journal (R654). -/
def State.revertIn (s : State) (lost no : Nat) : State :=
  if s.appliedOf lost = (no + 1) % 2 ^ 48 then
    let mine := s.shoal.journal.filter (fun d => d.src == lost)
    let s := s.xorDeltas mine
    let kept : List Delta := s.shoal.journal.filter (fun d => d.src ≠ lost)
    { s with shoal := { s.shoal with
      journal := kept
      applied := sput lost no s.shoal.applied, rebuildSeal := some no } }
  else { s with shoal := { s.shoal with rebuildSeal := some no } }

/-- The lesser of two seal numbers, modulo 2^48 (R645). -/
def sealMin (a b : Nat) : Nat := if (b + 2 ^ 48 - a) % 2 ^ 48 < 2 ^ 47 then a else b

/-- SEAL_REPORT: once every survivor has reported, the least is the rebuild seal; members ahead of it revert, and the standby hears it, J 1 where some report was higher (R654, R659; log entry 31). -/
def State.sealReportIn (s : State) (src j lost no : Nat) : State :=
  if s.bit .rasAlias F.rasAlias_VALID then
    let s := { s with shoal := { s.shoal with rebuildSeal := some no } }
    s.setFld .rasShoalStatus F.rasShoalStatus_BEHIND (if j = 1 then 1 else 0)
  else
    let reps : List (Nat × Nat) := sput src no s.shoal.reports
    let s : State := { s with shoal := { s.shoal with reports := reps } }
    let surv := (List.range s.shN).filter (fun r => s.live r && s.member r != lost)
    if surv.all (fun r => (sget (s.member r) reps).isSome) ∧ s.shoal.rebuildSeal.isNone then
      let least := (reps.map Prod.snd).foldl sealMin no
      let ahead := reps.any (fun r => r.2 != least)
      let s := { s with shoal := { s.shoal with rebuildSeal := some least } }
      let s := s.each (reps.filter (fun r => r.2 != least)) (fun s r =>
        if s.isOwn r.1 then s.revertIn lost least else s.shoalSend r.1 5 0 0 0 least lost [])
      s.shoalSend lost 7 (if ahead then 1 else 0) 0 0 least lost []
    else s

/-- The shoal's side of a declared loss: acknowledgements count as given, deltas are dropped, and the lowest-ranked survivor asks for seals (R652, R654, R658). -/
def State.shoalLost (s : State) (x : Nat) : State :=
  if s.bit .rasShoalCtrl F.rasShoalCtrl_ENABLE ∧ x ∈ s.members ∧ !s.isOwn x then
    let out : List SealOut := s.shoal.out.map (fun o => { o with wait := o.wait.filter (· ≠ x) })
    let s := { s with shoal := { s.shoal with out := out.filter (fun o => !o.wait.isEmpty) } }
    let s := s.setFld .rasShoalStatus F.rasShoalStatus_LOST x
    if s.fld .rasShoalStatus F.rasShoalStatus_STATE ∉ [2, 4] then s
    else
      let lost := (List.range s.shN).countP (fun r => !s.live r)
      if s.shM < lost then s.shoalState 5
      else
        let s := s.shoalState 4
        let s : State := { s with shoal := { s.shoal with reports := [], rebuildSeal := none } }
        match s.shRank, (List.range s.shN).find? s.live with
        | some me, some low =>
          if me = low then
            let s := s.each ((List.range s.shN).filter (fun r => s.live r && r != me)) (fun s r =>
              s.shoalSend (s.member r) 6 0 0 0 0 x [])
            s.sealReportIn (s.member me) 0 x (s.appliedOf x)
          else s
        | _, _ => s
  else s

/-- The standby's parity slots `first … first + n − 1` are computed afresh, its last one ending the rebuild (R656). -/
def State.rebuildSlots (s : State) (me first n : Nat) : State :=
  let s := (s.each ((List.range n).map (first + ·)) (fun s sl =>
    if sl < s.slotCount then (s.startJob (slotStripe s.shN s.shM me sl).1 none (.slot sl)).endJobs else s))
  s.iff (s.slotCount ≤ s.shoal.rebuilt) (fun s => s.shoalState 2)

/-- A survivor reconstructs those of lines `first … first + n − 1` of the lost member of rank `r` whose first surviving parity lies here (R656). -/
def State.rebuildLines (s : State) (me r first n : Nat) : State :=
  s.each ((List.range n).map (first + ·)) (fun s L =>
    let st := stripeOf s.shN s.shK r L
    let par := (s.stripePars st.1).headD s.shM
    if L < s.fld .rasShoalLines F.rasShoalLines_LINES ∧ par < s.shM ∧ (holderOf s.shN s.shM st.1 par).1 = me
        ∧ (s.stripeLost st.1).length ≤ (s.stripePars st.1).length
    then (s.startJob st.1 none (.line L)).endJobs else s)

/-- STANDBY_REBUILD: a survivor's part of the lost member's lines, or the standby's parity slots (R656). -/
def standbyRebuild (first n : Nat) (s : State) : State :=
  match s.shRank with
  | none => s
  | some me =>
    if s.bit .rasAlias F.rasAlias_VALID then s.rebuildSlots me first n
    else if s.fld .rasShoalStatus F.rasShoalStatus_STATE ≠ 4 then s
    else
      match findIdxN (· == s.fld .rasShoalStatus F.rasShoalStatus_LOST) 0 s.members with
      | none => s
      | some r => s.rebuildLines me r first n

/-- SPREAD_REBUILD: without a standby and with MODE 1, lines of the lost member go to the survivors' spread areas; STATE becomes spread with the last line (R657). -/
def spreadRebuild (first n : Nat) (s : State) : State :=
  if s.bit .rasShoalCtrl F.rasShoalCtrl_MODE ∧ !s.bit .rasShoalStandby F.rasShoalStandby_VALID then
    let s := standbyRebuild first n s
    s.iff (s.fld .rasShoalStatus F.rasShoalStatus_STATE == 4 && decide (s.fld .rasShoalLines F.rasShoalLines_LINES ≤ first + n))
      (fun s => s.shoalState 6)
  else s

/-! ### Enabling (R641) and the alias (R655, R656, R664) -/

/-- Areas that protected ranges may not overlap, as keys: parity, journal, undo and spill areas, stream-port buffers (R641). -/
def State.shoalAvoid (s : State) : List (Nat × Nat) :=
  [(memKey (s.fld .rasShoalParityBase F.rasShoalParityBase_BASE * 65536), 2048 * s.slotCount),
   (memKey (s.fld .rasShoalJournalBase F.rasShoalJournalBase_BASE * 65536), 65536 * s.fld .rasShoalJournalSize F.rasShoalJournalSize_UNITS)]
  ++ (List.range 64).flatMap s.partAreas
  ++ (List.range 4).map (fun f => (memKey (s.fld (.fryBufBase f) F.fryBufBase_BASE * 65536),
      if s.fld (.fryBufBase f) F.fryBufBase_BASE = 0 then 0 else 2 ^ 22))

/-- ERR of a refused ENABLE; 0 when the shoal is valid (R641). -/
def State.shoalErr (s : State) : Nat :=
  let m := s.members
  let rs := s.shoalRanges
  if s.fld .devStatus F.devStatus_STAGE < 6 then 5
  else if s.shK < 2 ∨ 14 < s.shK ∨ s.shM < 1 ∨ 2 < s.shM then 2
  else if s.shRank.isNone ∨ m.eraseDups.length ≠ m.length
      ∨ (s.bit .rasShoalStandby F.rasShoalStandby_VALID ∧ s.fld .rasShoalStandby F.rasShoalStandby_ID ∈ m) then 1
  else if s.fld .rasShoalParityBase F.rasShoalParityBase_BASE = 0 ∨ s.fld .rasShoalJournalBase F.rasShoalJournalBase_BASE = 0
      ∨ s.fld .rasShoalJournalSize F.rasShoalJournalSize_UNITS = 0 then 4
  else if s.fld .rasShoalLines F.rasShoalLines_LINES < sumN (rs.map (fun r => r.2 / 2048))
      ∨ (List.range 8).any (fun x => s.fld (.rasShoalRangeLines x) F.rasShoalRangeLines_LINES != 0 && !s.isLocal (s.fld (.rasShoalRange x) F.rasShoalRange_BASE * 2048))
      ∨ rs.any (fun r => !s.exists_ (r.1 / 2 ^ 60) (r.1 % 2 ^ 60) r.2 || s.shoalAvoid.any (fun a => overlap r.1 r.2 a.1 a.2)) then 3
  else 0

/-- SHOAL_ENABLE: a valid shoal goes into service, another is refused with ERR (R641). -/
def State.shoalEnable (s : State) : State :=
  let e := s.shoalErr
  let s := s.setFld .rasShoalCtrl F.rasShoalCtrl_ERR e
  s.setFld .rasShoalCtrl F.rasShoalCtrl_ENABLE (if e = 0 then 1 else 0)

/-- RAS_ALIAS: a standby adopts the ID of a package declared lost, unless it is a member itself (R655, R656, R664). -/
def State.aliasWrite (s : State) (v : Word) : State :=
  let id := F.rasAlias_ID.get v
  let on := F.rasAlias_VALID.get v
  if on = 1 ∧ (id ∉ s.net.lost ∨ s.bit .rasShoalCtrl F.rasShoalCtrl_ENABLE) then
    s.eventW 0x0707 755 none none (s.fld .rasShoalStatus F.rasShoalStatus_STATE) 0
  else
    let s := s.setReg .rasAlias (BitVec.ofNat 64 (id + on * 4096))
    if on = 1 then
      let s := { s with net := { s.net with rx := s.net.rx.filter (fun r => decide (r.1 < 4096)) }, shoal := { s.shoal with rebuilt := 0, aliasAt := some s.frm.now } }
      s.shoalState 4
    else s

/-! ### A lost package (R639, R640) -/

/-- A package is declared lost: unacknowledged posted writes to it fail, and the shoal counts it out (R640, R652, R654). -/
def State.declareLost (s : State) (x : Nat) : State :=
  if x ∈ s.net.lost ∨ s.isOwn x then s
  else
    let t := sgetD x {} s.net.tx
    let fail := (t.unacked ++ t.wait).filter (fun w => !w.relaxed)
    let s := { s with net := { s.net with lost := s.net.lost ++ [x], tx := sdel x s.net.tx, rx := sdel x s.net.rx } }
    let s := s.each fail (fun s w =>
      match w.op.bind s.op? with
      | none => s
      | some o =>
        let s := s.modOp o.seq (fun o => { o with late := satAdd 16 o.late 1, status := 0x30 })
        s.modPart o.part (fun p => { p with taint := true, late := p.late + 1 }))
    let s := s.eventW 0x0706 757 none none x 0
    (s.shoalLost x).retryArrivals

/-- PACKAGE_LOST: the management ring reports the package off, or every strait of its route has been down for 100 ms (R639). -/
def packageLost (x : Nat) (off : Bool) (at_ : Nat) (s : State) : State :=
  let s := s.reach at_
  let r := Reg.rasRoute x
  let ns := (if s.bit r F.rasRoute_P_EN then [s.fld r F.rasRoute_PRIMARY] else [])
    ++ (if s.bit r F.rasRoute_A1_EN then [s.fld r F.rasRoute_ALT1] else [])
    ++ (if s.bit r F.rasRoute_A2_EN then [s.fld r F.rasRoute_ALT2] else [])
  let dead := !ns.isEmpty && ns.all (fun n => match (s.strait n).down with
    | some t => decide (t + 100000000 ≤ s.frm.now)
    | none => false)
  if x < 4096 ∧ (off ∨ dead) then s.declareLost x else s

/-- The shoal messages by KIND (R646). -/
def State.parityMsg (s : State) (src kind j part line no count : Nat) (data : List Byte) : State :=
  match kind with
  | 0 => s.deltaIn src part line no data
  | 1 => s.sealIn src no count
  | 2 => s.parityAckIn src no
  | 3 => s.parityReadIn src j part line no count
  | 4 => s.parityDataIn part line count data
  | 5 => s.revertIn (count % 4096) no
  | 6 => s.sealQueryIn src (count % 4096)
  | _ => s.sealReportIn src j (count % 4096) no

end Sys2Proof.Machine
end

