-- ==== Sys2Proof/Machine/Gate.lean ====
section
/-! DEFINITION. How a started operation comes to its data effect: what it must fetch first, what a failed access does, and free outputs (R389, R401, R562, R759). -/

namespace Sys2Proof.Machine

/-- The operation that a run command of a context drives: the oldest started one whose descriptor a test accepts (log entry 11). -/
def State.runTarget (s : State) (c : Nat) (p : Desc → Bool) : Option Op :=
  s.ops.find? (fun o => o.ctx == c && o.stage == .started && p o.desc)

/-- The oldest such operation that waits for nothing: no read and no answer of its own is out (log entry 11). -/
def State.readyTarget (s : State) (c : Nat) (p : Desc → Bool) : Option Op :=
  s.ops.find? (fun o => o.ctx == c && o.stage == .started && p o.desc && o.reads.isEmpty && o.await == 0)

/-- The slot of a descriptor through which an operation reaches an address: the tensor whose span holds it, else a given slot (R562, R759). -/
def slotOfAddr (o : Op) (a dflt : Nat) : Nat :=
  match opcOf o.opcode with
  | none => dflt
  | some c =>
    match (o.desc.tensors c).find? (fun t => decide (t.1.addr ≤ a) && decide (a < t.1.addr + t.1.span)) with
    | some t => t.1.off
    | none => dflt

/-- The slot of an operation's table, graph or other reference that is no tensor. -/
def refSlot (o : Op) : Nat :=
  match opcOf o.opcode with
  | some .ingest => 48
  | some .gather => 48
  | some .scatter => 48
  | _ => 32

/-- The outputs of a failed operation are undefined: each local output byte takes a free value (R562, R759). -/
def State.freeOutputs (s : State) (o : Op) : State :=
  match opcOf o.opcode with
  | none => s
  | some c =>
    s.each (o.desc.outRanges c) (fun s r =>
      if s.place r.1 = 0 then
        let x := s.freeBytes r.2
        x.2.opWr o r.1 x.1
      else s)

/-- The frame of an operation is tainted by one late error, without a message (R217, R562). -/
def State.taintOp (s : State) (o : Op) : State :=
  s.modPart o.part (fun p => { p with taint := true, late := p.late + 1 })

/-- The started operation of a context that reaches host memory through a slot. -/
def State.hostUser (s : State) (ctx slot : Nat) : Option Op :=
  s.ops.find? (fun o => o.ctx == ctx && (o.stage == .started || o.stage == .ran)
      && (match opcOf o.opcode with
        | some c => (o.desc.tensors c).any (fun t => t.1.off == slot && spaceOf t.1.addr == 2) || (slot == refSlot o && !(o.desc.tensors c).any (fun t => t.1.off == slot))
        | none => false))

/-- What a failed host access does to its operation: status 0x21 with the slot's offset, and the frame is tainted (R562). -/
def State.hostFails (s : State) (o : Op) (slot : Nat) : State := ((s.freeOutputs o).taintOp o).opFail o.seq 0x21 slot

/-- The first slot through which an operation would reach host memory that does not answer now: the link is down, or the host refuses a page (R561, R562, R579). -/
def State.hostSilent (s : State) (o : Op) : Option Nat :=
  match opcOf o.opcode with
  | none => none
  | some c =>
    let l := (o.desc.tensors c).map (fun t => (t.1.off, t.1.addr, t.1.span, t.2.2.1))
      ++ (o.desc.slotsAt c).filterMap (fun y => match y.2 with
        | .program _ => some (y.1, dField o.desc y.1 8, 4 * dField o.desc (y.1 + 8) 2, false)
        | _ => none)
    (l.find? (fun t => spaceOf t.2.1 == 2
      && !(s.hostUp && (s.translateAll (s.fnOf o.ctx) (s.pasidOf o.ctx) t.2.2.2 (pagesOf t.2.1 t.2.2.1)).1))).map Prod.fst

/-- HOST_ACCESS_FAILURE: a run-time host access of an operation fails; status 0x21 with the slot's offset, and the frame is tainted (R562). -/
def hostAccessFailure (ctx slot : Nat) (s : State) : State :=
  match s.hostUser ctx slot with
  | none => s
  | some o => s.hostFails o slot

/-- A flash read, or an uncorrectable error of another package's memory, fails a tensor access: late error 2 and status 0x30 (R759). -/
def State.accessLate (s : State) (o : Op) (a : Nat) : State :=
  let s := s.freeOutputs o
  let s := s.lateErrorOp o.seq 2 a
  match s.op? o.seq with
  | none => s
  | some o => s.opFail o.seq 0x30 o.late

/-- A read of another package fails its segment check there (R391, R759). -/
def State.accessDenied (s : State) (o : Op) (a : Nat) : State :=
  (s.freeOutputs o).opFail o.seq 0x20 (slotOfAddr o a (refSlot o))

/-- A piece of a tensor has been fetched. -/
def State.pieceIn (s : State) (q a : Nat) (bs : List Byte) : State :=
  s.modOp q (fun o => { o with fetched := o.fetched ++ [(a, bs)] })

/-- The first burst of local ranges that reads as uncorrectable. -/
def State.badBurst (s : State) (rs : List (Nat × Nat)) : Option Nat :=
  if s.poison.isEmpty ∧ s.hbm.fenced.isEmpty ∧ s.hbm.lost.isEmpty then none
  else (rs.filter (fun r => s.place r.1 == 0)).flatMap (fun r => burstsOf (localKey r.1) r.2) |>.find? (fun b => s.poisoned (64 * b) 64)

/-- The ranges that a descriptor's operation writes. -/
def Op.outputs (o : Op) : List (Nat × Nat) := (opcOf o.opcode).elim [] o.desc.outRanges

/-- The bursts of an operation's outputs here that a fenced channel serves: it discards their writes, which fail as a read of them would (R408). -/
def State.fencedOuts (s : State) (o : Op) : List (Nat × Nat) :=
  if s.hbm.fenced.isEmpty then []
  else ((o.outputs.filter (fun r => s.place r.1 == 0)).flatMap (fun r => burstsOf (localKey r.1) r.2)).filterMap (fun b =>
    if s.fencedKey (64 * b) then some (mkAddr 0 s.ownId (64 * b), 64) else none)

/-- The HBM bursts of ranges here are served from a bucket of their stacks (R414). -/
def State.draw (s : State) (bucket : Nat) (rs : List (Nat × Nat)) : State :=
  if s.hbm.tokens.isEmpty then s
  else s.each (rs.filter (fun r => s.place r.1 == 0)) (fun s r => s.takeTokens bucket (localKey r.1) r.2)

/-- The requests of an operation's run are served: what came from elsewhere enters the L0 caches, and the partition's buckets pay for what lies here (R395, R414). -/
def State.supplied (s : State) (o : Op) (rs : List (Nat × Nat)) : State := (s.l0Fetched o).draw o.part (rs ++ o.outputs)

/-- The data effect of a started operation: what it reads elsewhere is fetched first, and an uncorrectable burst among what it reads here, or a write that a fenced channel discards, is a fault of the frame (R389, R401, R408, R627). -/
def State.gate (s : State) (o : Op) (rs : List (Nat × Nat)) (f : State → State) : State :=
  if !o.reads.isEmpty ∨ o.await ≠ 0 then s
  else
    match s.hostSilent o with
    | some slot => s.hostFails o slot
    | none =>
      let m := s.missing o (rs ++ s.undoReads o)
      if !m.isEmpty then s.issueReads o.seq m
      else
        match s.badBurst (rs ++ s.fencedOuts o) with
        | some b => s.frameFault o.part b
        | none => f (s.supplied o rs)

/-- The ranges that an operation's tensors let it read. -/
def Op.inputs (o : Op) (c : Opc) : List (Nat × Nat) := o.desc.inRanges c

/-- Run the data effect of the context's oldest started operation of an opcode that waits for nothing. -/
def State.runOp (s : State) (ctx : Nat) (p : Desc → Bool) (rs : State → Op → List (Nat × Nat)) (f : Op → State → State) : State :=
  match s.readyTarget ctx p with
  | none => s
  | some o => s.gate o (rs s o) (f o)

/-- Whether a descriptor is of an opcode. -/
def isOpc (c : Opc) (d : Desc) : Bool := opcOf d.opcode == some c

end Sys2Proof.Machine
end

