-- ==== Sys2Proof/Machine/Sampling.lean ====
section
/-! DEFINITION. Neighbourhood sampling, INGEST and its appends, alias tables and publication (ch. 4; R617–R619). -/

namespace Sys2Proof.Machine

/-! ### Graph descriptors (R127–R129, R135) -/

/-- Whether the bytes of a graph descriptor header obey R135. -/
def graphHdrOk (addr : Nat) (h : Nat) : Bool :=
  addr % 64 == 0 && bitsN h 0 8 == 0x30 && decide (1 ≤ bitsN h 8 8) && decide (bitsN h 8 8 ≤ 16) && bitsN h 16 48 == 0

/-- Whether the bytes of a relation entry obey R135. -/
def graphRelOk (e : Nat) : Bool :=
  bitsN e 42 6 == 0 && bitsN e 104 24 == 0 && bitsN e 192 320 == 0 && bitsN e 128 64 % 64 == 0

/-- Whether the relation entries that follow a graph descriptor header obey R135. -/
def graphRelsOk (bs : List Byte) : Bool := (blocks 64 bs).all (fun e => graphRelOk (leBytes e))

/-- What admission can read of a range: its bytes, the status with which reading it failed, or neither while it still has to be fetched (R134, R135, R162, R243). -/
inductive AdmGot where
  | bytes (bs : List Byte)
  | fails (st : Nat)
  | unread
  deriving DecidableEq, Repr

/-- What admission has of a range that the access checks let it read. DESIGN CHOICE (log entry 81): a read that draws STATUS 3 fails with 0x20, one whose memory cannot be read with 0x15. -/
def State.admGet (s : State) (x : Ctx) (a n : Nat) : AdmGot :=
  let o := s.admitOp x
  if (s.missing o [(a, n)]).isEmpty then .bytes (s.opRd o a n)
  else
    match s.wait? (.fetching x.id x.fetched) with
    | some w => if w.ended ∧ w.bad = 3 then .fails 0x20 else if w.ended ∧ w.bad ≠ 0 then .fails 0x15 else .unread
    | none => .unread

/-- Number of relations by a graph descriptor header. -/
def relationsOf (h : List Byte) : Nat := bitsN (leBytes (h.take 2)) 8 8

/-- A graph descriptor header with its relation entries, as admission reads them (R135). -/
def State.graphGot (s : State) (x : Ctx) (a : Nat) : AdmGot :=
  match s.admGet x a 64 with
  | .bytes h =>
    if graphHdrOk a (leBytes h) then
      match s.admGet x (a + 64) (64 * relationsOf h) with
      | .bytes r => .bytes (h ++ r)
      | g => g
    else .bytes h
  | g => g

/-- Admission checks of a graph reference in the slot at an offset (R134, R135, R136). -/
def State.graphFails (s : State) (x : Ctx) (d : Desc) (off : Nat) : List Fail :=
  let a := dField d off 8
  failIf (a % 64 != 0 || spaceOf a == 2 || spaceOf a == 3) 0x15 off ++
  (if spaceOf a ∉ [0, 1, 4] then []
  else
    match s.rangeFail x a 64 true false with
    | some st => [(st, off)]
    | none =>
      match s.admGet x a 64 with
      | .unread => []
      | .fails st => [(st, off)]
      | .bytes h =>
        if !graphHdrOk a (leBytes h) then [(0x15, off)]
        else
          match s.rangeFail x a (64 + 64 * relationsOf h) true false with
          | some st => [(st, off)]
          | none =>
            match s.graphGot x a with
            | .unread => []
            | .fails st => [(st, off)]
            | .bytes g => failIf (!graphRelsOk (g.drop 64)) 0x15 off)

/-- What admission must still read of a graph that lies on another package. -/
def State.graphWants (s : State) (x : Ctx) (a : Nat) : List (Nat × Nat) :=
  let want := fun (a n : Nat) => if s.rangeFail x a n true false = none ∧ s.admGet x a n = .unread then [(a, n)] else []
  if a % 64 ≠ 0 ∨ spaceOf a ∉ [0, 1, 4] then []
  else
    match s.admGet x a 64 with
    | .bytes h => if graphHdrOk a (leBytes h) then want (a + 64) (64 * relationsOf h) else []
    | _ => want a 64

/-! ### Reading a graph while sampling (R130–R136) -/

/-- What building a block gathers: nodes in local-index order, edges of each hop, the counts of R168, and what stopped it. -/
structure Blk where
  nodes : List Nat := []
  /-- edges of the hop under way: parent, child, relation, timestamp -/
  edges : List (Nat × Nat × Nat × Nat) := []
  hops : List (List (Nat × Nat × Nat × Nat)) := []
  empty : Nat := 0
  future : Nat := 0
  noAlias : Nat := 0
  /-- bursts of other packages not fetched yet (R173) -/
  miss : List (Nat × Nat) := []
  /-- failing status of R134 or R136 -/
  fail : Option Nat := none
  /-- an uncorrectable burst among what was read here -/
  bad : Option Nat := none
  deriving DecidableEq, Repr, Inhabited

/-- A number of `n` bytes read from the graph, with what R134 to R136 say of the address. After a range that has yet to be fetched, or a failure, the block reads no further. -/
def State.gRead (s : State) (o : Op) (b : Blk) (a n : Nat) : Nat × Blk :=
  let sp := spaceOf a
  let fail := fun (st : Nat) => ((0 : Nat), { b with fail := some (b.fail.getD st) })
  if !b.miss.isEmpty ∨ b.fail.isSome then (0, b)
  else if sp ∉ [0, 1, 4] ∨ bitsN a 56 4 ≠ 0 then fail 0x15
  else if s.isOwn (pkgOf a) then
    match s.rangeFail (s.ctx o.ctx) a n true false with
    | some st => fail st
    | none =>
      let k := localKey a
      let b := if s.poisoned k n then { b with bad := some (b.bad.getD (k / 64)) } else b
      (leBytes (s.kRd k n), b)
  else if !s.reachable (pkgOf a) then fail 0x22
  else
    let m := s.missingBy 64 o [(a, n)]
    if m.isEmpty then (leBytes (fetchedBytes o.fetched a n), b) else (0, { b with miss := b.miss ++ m })

/-- A relation of the graph (R128). -/
structure Rel where
  base : Nat
  weighted : Bool
  auto : Bool
  shards : Nat
  count : Nat
  table : Nat
  deriving DecidableEq, Repr, Inhabited

def relOf (e : Nat) : Rel := ⟨bitsN e 0 40, bitN e 40, bitN e 41, bitsN e 48 16, bitsN e 64 40, bitsN e 128 64⟩

/-- RELATIONS of the graph of an operation, as admission read it (R135). -/
def Op.relations (o : Op) : Nat := relationsOf o.held

/-- Relation r of the graph of an operation, as admission read it (R128, R135). -/
def Op.rel (o : Op) (r : Nat) : Rel := relOf (leBytes ((o.held.drop (64 + 64 * r)).take 64))

/-- The type fan-out table of a typed SAMPLE, as admission read it (R162). -/
def Op.fanTable (o : Op) : List Byte := o.held.drop (64 + 64 * o.relations)

/-- A node entry with its arrays (R129, R131). -/
structure NodeE where
  addr : Nat
  edgeAddr : Nat
  aliasA : Nat
  aliasB : Nat
  start : Nat
  sel : Bool
  count : Nat
  headroom : Nat
  aliasN : Nat
  deriving DecidableEq, Repr, Inhabited

/-- The alias array in force. -/
def NodeE.alias (e : NodeE) : Nat := if e.sel then e.aliasB else e.aliasA

/-- The last shard entry at or below a node, among the first `n`. -/
def State.lastGShard (s : State) (o : Op) (table v : Nat) : Nat → Blk → Option Nat × Blk
  | 0, b => (none, b)
  | n + 1, b =>
    let x := s.gRead o b (table + 64 * n) 8
    if x.1 % 2 ^ 40 ≤ v ∧ x.2.fail.isNone then (some n, x.2) else s.lastGShard o table v n x.2

/-- Shard entry bytes and index of a node in a relation, if it has edges there (R130). -/
def State.shardFor (s : State) (o : Op) (b : Blk) (r : Rel) (v : Nat) : Option (Nat × Nat) × Blk :=
  if v < r.base ∨ r.base + r.count ≤ v then (none, b)
  else
    match s.lastGShard o r.table v r.shards b with
    | (none, b) => (none, b)
    | (some i, b) =>
      let x := s.gRead o b (r.table + 64 * i) 64
      let idx := v - x.1 % 2 ^ 40
      if bitsN x.1 320 40 ≤ idx then (none, x.2) else (some (x.1, idx), x.2)

/-- The node entry of a node (R130, R131). -/
def State.nodeE (s : State) (o : Op) (b : Blk) (r : Rel) (v : Nat) : Option NodeE × Blk :=
  match s.shardFor o b r v with
  | (none, b) => (none, b)
  | (some (sh, i), b) =>
    let a := bitsN sh 64 64 + 16 * i
    let x := s.gRead o b a 16
    (some ⟨a, bitsN sh 128 64, bitsN sh 192 64, bitsN sh 256 64, bitsN x.1 0 40, bitN x.1 40, bitsN x.1 48 32, bitsN x.1 80 16,
      bitsN x.1 96 32⟩, x.2)

/-- DST and TS of the edge at a position (R132). -/
def State.edgeAt (s : State) (o : Op) (b : Blk) (e : NodeE) (p : Nat) : (Nat × Nat) × Blk :=
  let x := s.gRead o b (e.edgeAddr + 16 * (e.start + p)) 16
  ((bitsN x.1 0 40, bitsN x.1 64 32), x.2)

/-- The lowest position from `p` on, among `n`, whose timestamp is at or above a bound; else the end. -/
def State.firstTs (s : State) (o : Op) (e : NodeE) (bound : Nat) : Nat → Nat → Blk → Nat × Blk
  | 0, p, b => (p, b)
  | n + 1, p, b =>
    let x := s.edgeAt o b e p
    if bound ≤ x.1.2 then (p, x.2) else s.firstTs o e bound n (p + 1) x.2

/-- The visible end of a node (R139). -/
def State.visEnd (s : State) (o : Op) (b : Blk) (e : NodeE) (tnow : Nat) : Nat × Blk :=
  if e.count = 0 then (0, b)
  else
    let x := s.edgeAt o b e (e.count - 1)
    if x.1.2 ≤ tnow then (e.count, x.2) else s.firstTs o e (tnow + 1) e.count 0 x.2

/-! ### Drawing (R155–R161) -/

/-- The draws of Floyd's method from j on: `n` of them left (R160). -/
def floydGo (w : Nat → Nat) (lo : Nat) : Nat → Nat → Nat → List Nat → List Nat
  | 0, _, _, out => out
  | n + 1, j, i, out =>
    let t := below (w i) (j + 1)
    floydGo w lo n (j + 1) (i + 1) (out ++ [if lo + t ∈ out then lo + j else lo + t])

/-- floyd(b, lo, m, f, k0), with the words of the draws (R160). -/
def floyd (w : Nat → Nat) (lo m f : Nat) : List Nat :=
  if m ≤ f then (List.range m).map (lo + ·) else floydGo w lo f (m - f) 0 []

/-- insert(v): the local index (R166, R167). -/
def Blk.insert (b : Blk) (dedup : Bool) (v : Nat) : Nat × Blk :=
  match (if dedup then findIdxN (· == v) 0 b.nodes else none) with
  | some i => (i, b)
  | none => (b.nodes.length, { b with nodes := b.nodes ++ [v] })

/-- emit(p): the edge joins the hop, and its child the node table; `kids` gathers the children's indices and IDs (R159, R166). -/
def State.emitEdge (s : State) (o : Op) (dedup : Bool) (parent rel : Nat) (e : NodeE) (x : Blk × List (Nat × Nat)) (p : Nat) : Blk × List (Nat × Nat) :=
  let y := s.edgeAt o x.1 e p
  let i := y.2.insert dedup y.1.1
  ({ i.2 with edges := i.2.edges ++ [(parent, i.1, rel, y.1.2)] }, x.2 ++ [(i.1, y.1.1)])

/-- weighted(b, v, r, f, k0): draws d … of the alias table (R161). -/
def State.weightedGo (s : State) (o : Op) (w : Nat → Nat) (dedup : Bool) (tnow n parent rel : Nat) (e : NodeE) :
    Nat → Nat → Blk × List (Nat × Nat) → Blk × List (Nat × Nat)
  | 0, _, x => x
  | k + 1, d, x =>
    let x :=
      if n = 0 then ({ x.1 with noAlias := x.1.noAlias + 1 }, x.2)
      else
        let c := below (w (2 * d)) n
        let y := s.gRead o x.1 (e.alias + 8 * (e.start + c)) 8
        let p := if w (2 * d + 1) < y.1 % 2 ^ 32 then c else y.1 / 2 ^ 32
        if e.count ≤ p then ({ y.2 with future := y.2.future + 1 }, x.2)
        else
          let z := s.edgeAt o y.2 e p
          if tnow < z.1.2 then ({ z.2 with future := z.2.future + 1 }, x.2)
          else s.emitEdge o dedup parent rel e (z.2, x.2) p
    s.weightedGo o w dedup tnow n parent rel e k (d + 1) x

/-- What a SAMPLE asks of every hop. -/
structure SampleP where
  tnow : Nat
  window : Nat
  dedup : Bool
  hops : Nat
  /-- fan-out per hop and relation: a list of (relation, fan-out) -/
  fans : List (List (Nat × Nat))
  modes : List Nat
  deriving DecidableEq, Repr, Inhabited

/-- One relation of sample_node (R159). -/
def State.sampleRel (s : State) (o : Op) (pr : SampleP) (w : Nat → Nat) (mode parent v : Nat) (rel f : Nat) (x : Blk × List (Nat × Nat)) :
    Blk × List (Nat × Nat) :=
  let r := o.rel rel
  match s.nodeE o x.1 r v with
  | (none, b) => (if mode = 1 then { b with noAlias := b.noAlias + f } else { b with empty := b.empty + f }, x.2)
  | (some e, b) =>
    if mode = 1 then
      s.weightedGo o w pr.dedup pr.tnow (if r.weighted then e.aliasN else 0) parent rel e f 0 (b, x.2)
    else
      let h := s.visEnd o b e pr.tnow
      let hi := h.1
      let lo := if mode = 3 then s.firstTs o e (if pr.window ≤ pr.tnow then pr.tnow - pr.window + 1 else 0) hi 0 h.2 else (0, h.2)
      let m := hi - lo.1
      let ps := if mode = 2 then (List.range (min f hi)).map (fun i => hi - 1 - i) else floyd w lo.1 m f
      let y := ps.foldl (s.emitEdge o pr.dedup parent rel e) (lo.2, x.2)
      ({ y.1 with empty := y.1.empty + (f - min f m) }, y.2)

/-- sample_node(b, q, v, h) over the relations of the hop; offsets run on by twice each fan-out (R155, R159). -/
def State.sampleNode (s : State) (o : Op) (pr : SampleP) (blk q mode parent v : Nat) : List (Nat × Nat) → Nat → Blk × List (Nat × Nat) → Blk × List (Nat × Nat)
  | [], _, x => x
  | (rel, f) :: rs, off, x =>
    s.sampleNode o pr blk q mode parent v rs (off + 2 * f)
      (s.sampleRel o pr (fun i => s.opWord o blk (128 * q + off + i)) mode parent v rel f x)

/-- The hops of a block: frontier nodes in order, their children the next frontier (R166, R167). -/
def State.sampleHops (s : State) (o : Op) (pr : SampleP) (blk : Nat) : Nat → Nat → Nat → List (Nat × Nat) → Blk → Blk
  | 0, _, _, _, b => b
  | n + 1, h, q0, front, b =>
    let y := front.zipIdx.foldl (fun (x : Blk × List (Nat × Nat)) fr =>
      s.sampleNode o pr blk (q0 + fr.2) (nthD pr.modes h 0) fr.1.1 fr.1.2 (nthD pr.fans h []) 0 x) (b, [])
    let b := { y.1 with hops := y.1.hops ++ [y.1.edges], edges := [] }
    let next := if pr.dedup then y.2.eraseDups else y.2
    s.sampleHops o pr blk n (h + 1) (q0 + front.length) next b

/-- A block from its seeds: the block, and the seed map (R166, R167). -/
def State.sampleBlock (s : State) (o : Op) (pr : SampleP) (blk : Nat) (seeds : List Nat) : Blk × List Nat :=
  let x := seeds.foldl (fun (x : Blk × List (Nat × Nat)) v =>
    let i := x.1.insert pr.dedup v
    (i.2, x.2 ++ [(i.1, v)])) ({}, [])
  let front := if pr.dedup then x.2.eraseDups else x.2
  (s.sampleHops o pr blk pr.hops 0 0 front x.1, x.2.map Prod.fst)

/-! ### Writing a block (R168–R171) -/

/-- Zero bytes up to a multiple of 64. -/
def pad64 (bs : List Byte) : List Byte := bs ++ List.replicate (roundUp bs.length 64 - bs.length) 0

/-- The header of a block (R168). -/
def blockHeader (nodes seeds first seedOff : Nat) (edgeOff : List Nat) (hops status : Nat) (edges : List Nat) (empty future noAlias frame stream : Nat) : List Byte :=
  toLe 2 nodes ++ toLe 2 seeds ++ toLe 4 first ++ toLe 2 seedOff ++ (List.range 4).flatMap (fun h => toLe 2 (nthD edgeOff h 0))
  ++ toLe 1 hops ++ toLe 1 status ++ (List.range 4).flatMap (fun h => toLe 4 (nthD edges h 0))
  ++ toLe 4 empty ++ toLe 4 future ++ toLe 4 noAlias ++ toLe 8 frame ++ toLe 4 stream ++ toLe 4 0

/-- The bytes of a complete block, or none when it overflows (R168–R170). -/
def blockBytes (o : Op) (pr : SampleP) (size first : Nat) (b : Blk) (map : List Nat) : Option (List Byte) :=
  let nodes := pad64 (b.nodes.flatMap (toLe 8))
  let smap := pad64 (map.flatMap (toLe 2))
  let secs := b.hops.map (fun l => pad64 (l.flatMap (fun e =>
    toLe 8 (e.1 % 2 ^ 14 + e.2.1 % 2 ^ 14 * 2 ^ 14 + e.2.2.1 % 16 * 2 ^ 28 + e.2.2.2 * 2 ^ 32))))
  let seedOff := 1 + nodes.length / 64
  let offs := (secs.foldl (fun (x : List Nat × Nat) sct => (x.1 ++ [x.2], x.2 + sct.length / 64)) ([], seedOff + smap.length / 64)).1
  let body := nodes ++ smap ++ secs.flatten
  if 16384 < b.nodes.length ∨ size < 64 + body.length then none
  else some (blockHeader b.nodes.length map.length first seedOff offs pr.hops (if pr.dedup then 0 else 2) (b.hops.map List.length)
    b.empty b.future b.noAlias o.frame (dField o.desc 24 4) ++ body)

/-- Write a block: whole, or its overflow header with free content (R170); gives the parts of AUX. -/
def State.writeBlock (s : State) (o : Op) (pr : SampleP) (t : Tensor) (blk first : Nat) (b : Blk) (map : List Nat) : (Nat × Nat × Bool) × State :=
  let size := t.stride * 64
  let a := t.addr + blk * size
  match blockBytes o pr size first b map with
  | some bs => ((b.nodes.length, map.length + sumN (b.hops.map List.length), false), s.opWr o a bs)
  | none =>
    let x := s.freeBytes (size - 64)
    let h := blockHeader 0 map.length first 0 [] pr.hops (1 + if pr.dedup then 0 else 2) [] 0 0 0 o.frame (dField o.desc 24 4)
    ((0, map.length, true), x.2.opWr o a (h ++ x.1))

/-! ### SAMPLE -/

/-- The fan-outs of a SAMPLE by hop: relation 0 for an untyped hop, the type fan-out table's for a typed one (R159, R162). -/
def sampleFans (d : Desc) (opt : List Byte) : List (List (Nat × Nat)) :=
  (List.range (min (d.param 0 1) 4)).map (fun h =>
    if 8 ≤ d.hopMode h then
      (List.range 16).filterMap (fun r =>
        let f := (nthD opt (16 * h + r) 0).toNat
        if f = 0 then none else some (r, f))
    else [(0, d.fanout h)])

/-- Whether the type fan-out table obeys R99 and R162. -/
def fanTableOk (d : Desc) (relations : Nat) (opt : List Byte) : Bool :=
  (List.range 4).all (fun h =>
    let fs := (List.range 16).map (fun r => (nthD opt (16 * h + r) 0).toNat)
    if h < d.param 0 1 ∧ 8 ≤ d.hopMode h then
      (fs.drop relations).all (· == 0) && sumN fs == d.fanout h && decide (sumN fs ≤ 64)
    else fs.all (· == 0))

/-- Checks of the type fan-out table, against RELATIONS of the graph (R162). -/
def State.fanFails (s : State) (x : Ctx) (d : Desc) : List Fail :=
  let a := dField d 96 8
  if !d.typed ∨ (s.rangeFail x a 64 true false).isSome then []
  else
    match s.admGet x a 64, s.admGet x (dField d 32 8) 64 with
    | .fails st, _ => [(st, 96)]
    | .bytes t, .bytes h => failIf (!fanTableOk d (relationsOf h) t) 0x15 96
    | _, _ => []

/-- Admission checks of a SAMPLE beyond ch. 3 (R134–R136, R157, R162, R164). -/
def State.sampleFails (s : State) (x : Ctx) (d : Desc) : List Fail :=
  let c := d.tensor 64
  let sd := d.tensor 48
  let n := sd.rows * sd.cols
  s.graphFails x d 32
  ++ failIf ((List.range (min (d.param 0 1) 4)).any (fun h => d.hopMode h % 8 != 2) && d.streamId == 0) 0x15 24
  ++ failIf (c.cols != 64) 0x15 76 ++ failIf (decide (c.stride < 2)) 0x15 78
  ++ failIf (decide (n < c.rows) || decide (16384 < cdiv n c.rows)) 0x15 72
  ++ s.fanFails x d

/-- What admission must still read for a SAMPLE. -/
def State.sampleWants (s : State) (x : Ctx) (d : Desc) : List (Nat × Nat) :=
  let a := dField d 96 8
  s.graphWants x (dField d 32 8)
  ++ (if d.typed ∧ s.rangeFail x a 64 true false = none ∧ s.admGet x a 64 = .unread then [(a, 64)] else [])

/-- What a SAMPLE takes as admission read it: its graph's descriptor, and the type fan-out table (R135, R162). -/
def State.sampleHeld (s : State) (x : Ctx) (d : Desc) : List Byte :=
  (match s.graphGot x (dField d 32 8) with | .bytes g => g | _ => [])
  ++ (if d.typed then s.opRd (s.admitOp x) (dField d 96 8) 64 else [])

/-- What a SAMPLE asks for. -/
def sampleP (o : Op) : SampleP :=
  let d := o.desc
  ⟨dField d 40 4, d.param 8 4, !d.flag 8, d.param 0 1, sampleFans d o.fanTable,
    (List.range 4).map (fun h => d.hopMode h % 8)⟩

/-- All blocks of a SAMPLE as they would be built now. -/
def State.sampleAll (s : State) (o : Op) (pr : SampleP) : List (Nat × Nat × Blk × List Nat) :=
  let sd := o.desc.tensor 48
  let n := sd.rows * sd.cols
  let bs := (o.desc.tensor 64).rows
  let seeds := (List.range sd.rows).flatMap (fun r =>
    (rowCodes 8 sd.cols (s.opRd o (sd.addr + r * sd.pitch) (8 * sd.cols))).map (· % 2 ^ 40))
  (List.range bs).map (fun b =>
    let lo := b * n / bs
    let x := s.sampleBlock o pr b ((seeds.drop lo).take ((b + 1) * n / bs - lo))
    (b, lo, x.1, x.2))

/-- The data effect of a SAMPLE (R158–R171); what it needs of other packages is fetched first, burst by burst, and R134 and R136 end it. -/
def State.sampleRun (s : State) (o : Op) : State :=
  let pr := sampleP o
  let all := s.sampleAll o pr
  let miss := (all.flatMap (fun b => b.2.2.1.miss)).eraseDups
  if !miss.isEmpty then s.issueReads o.seq miss
  else
    match (all.filterMap (fun b => b.2.2.1.fail)).head? with
    | some st => (s.freeOutputs o).opFail o.seq st 32
    | none =>
      match (all.filterMap (fun b => b.2.2.1.bad)).head? with
      | some b => s.frameFault o.part b
      | none =>
        let r := all.foldl (fun (x : (Nat × Nat × Bool) × State) b =>
          let y := x.2.writeBlock o pr (o.desc.tensor 64) b.1 b.2.1 b.2.2.1 b.2.2.2
          ((x.1.1 + y.1.1, x.1.2.1 + y.1.2.1, x.1.2.2 || y.1.2.2), y.2)) ((0, 0, false), s)
        let s := r.2.iff r.1.2.2 (fun s => s.modOp o.seq (fun o => { o with status := 0x24, detail := 64 }))
        s.opEnd o.seq (r.1.1 % 2 ^ 32 + r.1.2.1 % 2 ^ 32 * 2 ^ 32) false

/-- What a SAMPLE reads before it can run: its seeds. What it reads of the graph is asked for as it goes (R166). -/
def Op.sampleReads (o : Op) : List (Nat × Nat) := [((o.desc.tensor 48).addr, (o.desc.tensor 48).span)]

/-- SAMPLE, run. -/
def sampleOp (ctx : Nat) (s : State) : State :=
  s.runOp ctx (isOpc .sample) (fun _ o => o.sampleReads) (fun o s => s.sampleRun o)

/-! ### Appending (R142–R147) -/

/-- Add to a count that the next publication writes: 0 APPENDED, 1 REJ_LATE, 2 REJ_FULL, 3 REJ_RANGE, 4 REJ_REMOTE, 5 BAD_WEIGHT, 6 ALIAS_DROPPED, 7 REJECT_NEXT. -/
def State.graphCount (s : State) (g p which n : Nat) : State :=
  { s with graph := { s.graph with counts := s.graph.counts ++ [(g, p, which, n)] } }

/-- Sum of a waiting count. -/
def State.graphWaits (s : State) (g which : Nat) : Nat :=
  sumN ((s.graph.counts.filter (fun c => c.1 == g && c.2.2.1 == which)).map (fun c => c.2.2.2))

/-- Header of a graph by its canonical address: in memory here, or as last read of another package (log entry 82). -/
def State.graphHead (s : State) (g : Nat) : Nat :=
  leBytes (if spaceOf g = 4 then sgetD g [] s.graph.heads else s.kRd (localKey g) 64)

/-- Whether the copy of a rejected record may be written where the reject log lies (R146; log entry 82). -/
def State.logTakes (s : State) (o : Op) (a : Nat) : Bool :=
  decide (spaceOf a < 5) && bitsN a 56 4 == 0 && (s.rangeFail (s.ctx o.ctx) a 32 false true).isNone && (s.place a != 1 || s.hostUp)

/-- An edge is rejected: counted, and its record copied to the reject log with the reason, wherever the log lies (R127, R146). -/
def State.rejectEdge (s : State) (o : Op) (g reason : Nat) (rec_ : List Byte) : State :=
  let s := s.graphCount g o.part (if reason = 4 then 1 else if reason = 5 then 2 else if reason = 3 then 4 else 3) 1
  let h := s.graphHead g
  let slot := (bitsN h 160 32 + s.graphWaits g 7) % 2 ^ 32 % max 1 (bitsN h 128 32)
  let a := bitsN h 64 64 + 32 * slot
  if bitsN h 64 64 = 0 ∨ !s.logTakes o a then s
  else (s.graphCount g o.part 7 1).putAt o a (rec_.take 7 ++ [BitVec.ofNat 8 reason] ++ rec_.drop 8) false

/-- Queue an alias rebuild of a node, once, among at most 1,048,576 (R147). -/
def State.queueAlias (s : State) (g p ctx : Nat) (e : NodeE) : State :=
  let k := localKey e.addr
  if s.graph.queue.any (fun q => q.node == k && q.graph == g) then s
  else if 1048576 ≤ s.graph.queue.length then s.graphCount g p 6 1
  else { s with graph := { s.graph with queue := s.graph.queue ++ [AliasReq.mk g ctx k e.edgeAddr e.aliasA e.aliasB] } }

/-- Whether an address that a graph entry holds keeps R134. -/
def graphAddrOk (a : Nat) : Bool := (spaceOf a == 0 || spaceOf a == 1 || spaceOf a == 4) && bitsN a 56 4 == 0

/-- The failing status of a range that an APPEND writes, or that the rebuild it queues will read and write (R134, R136). -/
def State.appendRange (s : State) (o : Op) (a n : Nat) (wr : Bool) : Option Nat :=
  if !graphAddrOk a then some 0x15 else s.rangeFail (s.ctx o.ctx) a n true wr

/-- Append one edge under the checks of R144: whether it was appended, what reading the graph for it met, and the state. -/
def State.appendEdge (s : State) (o : Op) (b : Blk) (g rel src dst ts weight : Nat) (rec_ : List Byte) : Bool × Blk × State :=
  let no := fun (b : Blk) (r : Nat) => (false, b, s.rejectEdge o g r rec_)
  if o.relations ≤ rel then no b 1
  else
    let r := o.rel rel
    match s.shardFor o b r src with
    | (none, b) => no b 2
    | (some (sh, i), b) =>
      let node := bitsN sh 64 64
      let edge := bitsN sh 128 64
      if !graphAddrOk node ∨ !graphAddrOk edge then (false, { b with fail := some (b.fail.getD 0x15) }, s)
      else if !s.isOwn (pkgOf node) ∨ 1 < spaceOf node ∨ !s.isOwn (pkgOf edge) ∨ 1 < spaceOf edge then no b 3
      else
        match s.gRead o b (node + 16 * i) 16 with
        | (v, b) =>
          let e : NodeE := ⟨node + 16 * i, edge, bitsN sh 192 64, bitsN sh 256 64, bitsN v 0 40, bitN v 40, bitsN v 48 32, bitsN v 80 16, bitsN v 96 32⟩
          let k := localKey e.addr
          let mine := s.graph.appends.filter (fun a => a.node == k)
          let last := match mine.getLast? with
            | some a => (a.ts, b)
            | none => if e.count = 0 then (0, b) else let y := s.edgeAt o b e (e.count - 1); (y.1.2, y.2)
          let b := last.2
          if ts < last.1 then no b 4
          else if e.headroom ≤ mine.length then no b 5
          else
            let w := edge + 16 * (e.start + e.count + mine.length)
            let rebuild := r.weighted && r.auto
            let n := 8 * (e.count + e.headroom)
            let bad := (s.appendRange o w 16 true).orElse (fun _ =>
              if rebuild then (s.appendRange o (e.aliasA + 8 * e.start) n true).orElse (fun _ => s.appendRange o (e.aliasB + 8 * e.start) n true) else none)
            match bad with
            | some st => (false, { b with fail := some (b.fail.getD st) }, s)
            | none =>
              let s := s.store (localKey w) (toLe 5 dst ++ toLe 3 0 ++ toLe 4 ts ++ toLe 4 weight)
              let s : State := { s with graph := { s.graph with appends := s.graph.appends ++ [Append.mk g o.part k ts] } }
              let s := s.graphCount g o.part 0 1
              (true, b, if rebuild then s.queueAlias g o.part o.ctx e else s)

/-- Append one event record: forward edge, and the reverse edge where the record asks for it (R142–R144). -/
def State.appendRecord (x : Blk × State) (o : Op) (g : Nat) (rec_ : List Byte) : Blk × State :=
  let v := leBytes rec_
  if bitN v 49 then x
  else
    let f := x.2.appendEdge o x.1 g (bitsN v 40 4) (bitsN v 0 40) (bitsN v 64 40) (bitsN v 128 32) (bitsN v 160 32) rec_
    if f.1 ∧ bitN v 48 then
      (f.2.2.appendEdge o f.2.1 g (bitsN v 44 4) (bitsN v 64 40) (bitsN v 0 40) (bitsN v 128 32) (bitsN v 160 32) rec_).2
    else f.2

/-- APPEND of the bytes received; a partial last record is rejected with reason 6 (R143). -/
def State.appendAll (s : State) (o : Op) (g a bytes : Nat) : Blk × State :=
  let x := (List.range (bytes / 32)).foldl (fun x i => State.appendRecord x o g (s.opRd o (a + 32 * i) 32)) ({}, s)
  if bytes % 32 = 0 then x
  else
    let y := x.2.freeBytes (32 - bytes % 32)
    (x.1, y.2.rejectEdge o g 6 (s.opRd o (a + bytes / 32 * 32) (bytes % 32) ++ y.1))

/-! ### INGEST (R617–R619) -/

/-- Admission checks of an INGEST (R617, R135). -/
def State.ingestFails (s : State) (x : Ctx) (d : Desc) : List Fail :=
  let t := d.tensor 32
  let f := d.param 0 1 % 4
  let c := d.param 1 1
  failIf (decide (62 < c) || !s.bit (.fryChCfg f c) F.fryChCfg_ENABLE || s.fld (.fryChCfg f c) F.fryChCfg_CONTEXT != x.id) 0x20 113
  ++ failIf (t.fmt != 9 || t.pitch != t.rowBytes || !(decide (spaceOf t.addr ≤ 1) && s.isOwn (pkgOf t.addr))) 0x15 32
  ++ failIf (decide (t.rows * t.cols < d.param 4 4 + 64)) 0x15 116
  ++ (if d.flag 8 then s.graphFails x d 48 else [])

/-- Copy accepted frames of a channel while they fit: bytes, frames, first ALIVE, last ALIVE, END seen, FULL (R618). -/
def State.ingestCopy (s : State) (o : Op) (f c a maxb : Nat) : Nat → List Nat → State × List Nat × Bool × Bool
  | 0, g => (s, g, false, false)
  | n + 1, g =>
    match (s.fch f c).buf with
    | [] => (s, g, false, false)
    | b :: rest =>
      let bytes := nthD g 0 0
      if maxb < bytes + b.payload.length then (s, g, false, true)
      else
        let s := s.opWr o (a + 64 + bytes) b.payload
        let s := s.setFch f c { s.fch f c with buf := rest }
        let s := (s.fryFree f c (frameBlocks b.payload.length)).fryBuffered f c
        let g := [bytes + b.payload.length, nthD g 1 0 + 1, (if nthD g 1 0 = 0 then b.alive else nthD g 2 0), b.alive]
        if b.end_ then (s, g, true, false) else s.ingestCopy o f c a maxb n g

/-- The graph of an operation's slot at an offset, by its canonical address. -/
def State.graphOf (s : State) (o : Op) (off : Nat) : Nat := s.canon o.ctx (dField o.desc off 8)

/-- Whether an INGEST is one with APPEND that has not ended, on a graph. -/
def State.appends (s : State) (g : Nat) (o : Op) : Bool :=
  isOpc .ingest o.desc && o.desc.flag 8 && (o.stage == .admitted || o.stage == .started) && s.graphOf o 48 == g

/-- The appends of a stopped INGEST whose turn among the INGESTs of its graph has come, in admission order: what they need of other packages is read first, burst by burst, and R134 and R136 end it with nothing appended (R143–R147; log entry 82). -/
def State.ingestAppend (s : State) (o : Op) : State :=
  let g := s.graphOf o 48
  if s.ops.any (fun q => decide (q.seq < o.seq) && s.appends g q) then s
  else
    let x := s.appendAll o g ((o.desc.tensor 32).addr + 64) (nthD o.prog 0 0)
    if !x.1.miss.isEmpty then s.issueReads o.seq x.1.miss.eraseDups
    else
      match x.1.fail, x.1.bad with
      | some st, _ => (s.freeOutputs o).opFail o.seq st 48
      | none, some b => s.frameFault o.part b
      | none, none => x.2.opEnd o.seq 0 false

/-- An INGEST that has stopped keeps five numbers; the others keep four or none (R618). -/
def Op.stopped (o : Op) : Bool := isOpc .ingest o.desc && decide (o.prog.length = 5)

/-- Let the stopped INGESTs that wait for nothing append, in admission order (R143). -/
def State.ingestAppends (s : State) : State :=
  s.each (s.ops.filter (fun o => o.stopped && o.stage == .started && o.reads.isEmpty)) (fun s o => s.ingestAppend o)

/-- The INGEST stops: header, appends, and the end of the operation (R143, R619). -/
def State.ingestStop (s : State) (o : Op) (g : List Nat) (flags : Nat) : State :=
  let a := (o.desc.tensor 32).addr
  let none_ := nthD g 1 0 = 0
  let x := s.free 16
  let y := x.2.free 16
  let s := if none_ then y.2 else s
  let first := if none_ then x.1.toNat else nthD g 2 0
  let end_ := if none_ then y.1.toNat else (nthD g 3 0 + 1) % 65536
  let s := s.opWr o a (toLe 8 (nthD g 0 0) ++ toLe 4 (nthD g 1 0) ++ toLe 2 first ++ toLe 2 end_ ++ toLe 8 o.frame ++ toLe 1 flags ++ toLe 39 0)
  if o.desc.flag 8 then (s.modOp o.seq (fun o => { o with prog := g.take 4 ++ [1] })).ingestAppends else (s.opEnd o.seq 0 false)

/-- INGEST, run: copy what has come; it stops at MAX_BYTES, after END, or with the link down, and else waits (R618). -/
def State.ingestRun (s : State) (o : Op) : State :=
  if o.stopped then s.ingestAppends
  else
  let f := o.desc.param 0 1 % 4
  let c := o.desc.param 1 1
  let n := (s.fch f c).buf.length
  let down := !s.fryUp f && o.prog.isEmpty
  let r := s.ingestCopy o f c (o.desc.tensor 32).addr (o.desc.param 4 4) n o.prog
  let g := if r.2.1.isEmpty then [0, 0, 0, 0] else r.2.1
  if r.2.2.1 ∨ r.2.2.2 ∨ down then
    r.1.ingestStop o g ((if r.2.2.1 then 1 else 0) + (if down then 2 else 0) + (if r.2.2.2 then 4 else 0))
  else r.1.modOp o.seq (fun o => { o with prog := g })

/-- INGEST, run. -/
def ingestOp (ctx : Nat) (s : State) : State := s.runOp ctx (isOpc .ingest) (fun _ _ => []) (fun o s => s.ingestRun o)

/-- At the work boundary the running INGESTs of a partition stop with BOUNDARY (R618). -/
def State.ingestBoundary (s : State) (p : Nat) : State :=
  s.each (s.ops.filter (fun o => o.part == p && o.stage == .started && isOpc .ingest o.desc && !o.stopped)) (fun s o =>
    s.ingestStop o (if o.prog.isEmpty then [0, 0, 0, 0] else o.prog) 8)

/-! ### Alias tables (R148–R152) -/

/-- A weight as R149 takes it: negative values, infinities and NaN count as zero. -/
def aliasWeight (w : W32) : FV × Bool :=
  match fv32 w with
  | .fin false m e => (.fin false m e, false)
  | .fin true 0 _ => (.zero, false)
  | _ => (.zero, true)

/-- floor(((w · n) / W) · 2^32) in binary64 (R150). -/
def aliasShare (n : Nat) (tot w : FV) : Nat :=
  match (FV.f64 (FV.div 53 (FV.f64 (FV.mul w (.ofInt n))) tot)).scale 32 |>.floorv with
  | .fin _ m e => if 0 ≤ e then m * 2 ^ e.toNat else m / 2 ^ (-e).toNat
  | _ => 0

/-- The pairing loop of build_alias over columns `t`, with fuel; gives the entries set: index, PROB, ALIAS (R150). -/
def aliasLoop : Nat → List (Nat × Int) → List (Nat × Int) → List (Nat × Nat × Nat) → List (Nat × Nat × Nat) × List Nat
  | 0, small, large, out => (out, (small ++ large).map Prod.fst)
  | k + 1, small, large, out =>
    match small, large with
    | (i, ti) :: sm, (l, tl) :: lg =>
      let tl' := tl - ((2 ^ 32 : Nat) - ti)
      let out := out ++ [(i, ti.toNat, l)]
      if tl' < (2 ^ 32 : Nat) then aliasLoop k (sm ++ [(l, tl')]) lg out else aliasLoop k sm ((l, tl') :: lg) out
    | small, large => (out, (small ++ large).map Prod.fst)

/-- build_alias: PROB and ALIAS per position, or none when the weights sum to zero (R150). -/
def buildAlias (w : List FV) : Option (List (Nat × Nat × Nat)) :=
  let n := w.length
  let tot := w.foldl (fun a x => FV.f64 (FV.add a x)) .zero
  if tot.isZero then none
  else
    let t : List Nat := w.map (aliasShare n tot)
    let d : Int := (n * 2 ^ 32 : Nat) - (sumN t : Int)
    let mx := t.foldl max 0
    let m := (findIdxN (· == mx) 0 t).getD 0
    let ti : List (Nat × Int) := t.zipIdx.map (fun x => (x.2, if x.2 = m then (x.1 : Int) + d else (x.1 : Int)))
    let r := aliasLoop (2 * n + 1) (ti.filter (fun x => x.2 < (2 ^ 32 : Nat))) (ti.filter (fun x => ¬ x.2 < (2 ^ 32 : Nat))) []
    some (r.1 ++ r.2.map (fun i => (i, 2 ^ 32 - 1, i)))

/-- The rebuild of a node's alias array: its published edges, weights that are no positive finite numbers counted, into the array not in use (R149–R152). -/
def State.rebuildAlias (s : State) (q : AliasReq) : State :=
  let e := leBytes (s.kRd q.node 16)
  let n := bitsN e 48 32
  let start := bitsN e 0 40
  let target := if bitN e 40 then q.aliasA else q.aliasB
  let ws := (List.range n).map (fun p => aliasWeight (BitVec.ofNat 32 (leBytes (s.kRd (localKey (q.edgeAddr + 16 * (start + p)) + 12) 4))))
  let bad := ws.countP Prod.snd
  let s := s.iff (bad != 0) (fun s => s.graphCount q.graph 64 5 bad)
  let put := fun (s : State) (a : Nat) (bs : List Byte) => if s.place a = 0 then s.store (localKey a) bs else s.postBytes none q.ctx false a bs
  match (if n = 0 then none else buildAlias (ws.map Prod.fst)) with
  | none => { s with graph := { s.graph with done := s.graph.done ++ [(q.graph, q.node, q.ctx, 0)] } }
  | some l =>
    let s := s.each l (fun s x => put s (target + 8 * (start + x.1)) (toLe 4 x.2.1 ++ toLe 4 x.2.2))
    { s with graph := { s.graph with done := s.graph.done ++ [(q.graph, q.node, q.ctx, n)] } }

/-- Whether a frame whose snapshot used the array that a rebuild of a node would write has not ended without a fault (R151). -/
def State.aliasBusy (s : State) (node : Nat) : Bool := s.graph.flips.any (fun f => f.1 == node && decide (f.2 ∈ s.activeParts))

/-- ALIAS_REBUILD: the oldest queued rebuild runs, in a slack phase or an idle gap, once no unfinished frame uses the array that it writes and none of the node waits for its publication (R149–R152, R447). -/
def aliasRebuild (s : State) : State :=
  match s.graph.queue with
  | [] => s
  | q :: rest =>
    if s.aliasBusy q.node ∨ s.graph.done.any (fun d => d.1 == q.graph && d.2.1 == q.node) then s
    else ({ s with graph := { s.graph with queue := rest } } : State).rebuildAlias q

/-- A context reset drops the queued rebuilds of the graphs that the context's operations named (R153). -/
def State.dropAlias (s : State) (ctx : Nat) : State :=
  let gs := (s.graph.named.filter (fun n => n.1 == ctx)).map Prod.snd
  { s with graph := { s.graph with
    queue := s.graph.queue.filter (fun q => !gs.contains q.graph), named := s.graph.named.filter (fun n => n.1 != ctx) } }

/-- An admitted SAMPLE or INGEST names its graph; the header of one on another package is kept as it was read (R140, R153). -/
def State.nameGraph (s : State) (o : Op) : State :=
  let off := if isOpc .sample o.desc then some 32 else if isOpc .ingest o.desc ∧ o.desc.flag 8 then some 48 else none
  match off with
  | none => s
  | some off =>
    let g := s.graphOf o off
    let s : State := { s with graph := { s.graph with named := insertNew (o.ctx, g) s.graph.named } }
    if off = 48 ∧ spaceOf g = 4 ∧ !o.rerun then { s with graph := { s.graph with heads := sput g (o.held.take 64) s.graph.heads } } else s

/-! ### Publication (R140, R141, R152) -/

/-- Whether an operation reads a graph, by whatever address of it. -/
def State.readsGraph (s : State) (g : Nat) (o : Op) : Bool := isOpc .sample o.desc && s.graphOf o 32 == g

/-- Whether R141 lets a graph be published now. -/
def State.publishable (s : State) (g : Nat) : Bool :=
  !s.ops.any (fun o => s.readsGraph g o && o.stage != .finished && o.stage != .refused)
  && !s.parts.any (fun p => p.2.rerun.any (s.readsGraph g))

/-- Whether the frame of a partition has ended, so that what it appended can be published; 64 stands for no partition (R51, R140). -/
def State.frameOver (s : State) (p : Nat) : Bool := p == 64 || (s.part p).stretch == 0

/-- Whether the appends that wait at a node all belong to frames that have ended (log entry 82). -/
def State.nodeOver (s : State) (g node : Nat) : Bool :=
  s.graph.appends.all (fun a => !(a.graph == g && a.node == node) || s.frameOver a.part)

/-- The partitions whose frame goes on over this tick, or waits to be run again. -/
def State.openParts (s : State) : List Nat := s.activeParts.filter (fun p => decide ((s.part p).stretch ≠ 0) || !(s.part p).rerun.isEmpty)

/-- The single write of a changed node entry (R140, R152). -/
def State.publishNode (s : State) (g node : Nat) : State :=
  let v := leBytes (s.kRd node 16)
  let a := (s.graph.appends.filter (fun x => x.graph == g && x.node == node)).length
  let v := putN (putN v 48 32 (bitsN v 48 32 + a)) 80 16 (bitsN v 80 16 - a)
  match (s.graph.done.filter (fun d => d.1 == g && d.2.1 == node)).getLast? with
  | none => s.store node (toLe 16 v)
  | some d =>
    if d.2.2.2 = 0 then s.store node (toLe 16 (putN v 96 32 0))
    else
      let s := s.store node (toLe 16 (putN (putN v 96 32 d.2.2.2) 40 1 (1 - bitsN v 40 1)))
      { s with graph := { s.graph with flips := s.graph.flips ++ s.openParts.map (fun p => (node, p)) } }

/-- A waiting count of frames that have ended. -/
def State.graphDue (s : State) (g which : Nat) : Nat :=
  sumN ((s.graph.counts.filter (fun c => c.1 == g && c.2.2.1 == which && s.frameOver c.2.1)).map (fun c => c.2.2.2))

/-- The context whose operations last named a graph, which a write of another package's header names. -/
def State.graphCtx (s : State) (g : Nat) : Nat := ((s.graph.named.filter (fun n => n.2 == g)).getLast?.map Prod.fst).getD 0

/-- Write a field of a graph's header: here, or by a posted write to the package that holds it (R140). -/
def State.headPut (s : State) (g off : Nat) (bs : List Byte) : State :=
  if spaceOf g = 4 then
    let h := sgetD g (List.replicate 64 0) s.graph.heads
    let s : State := { s with graph := { s.graph with heads := sput g (h.take off ++ bs ++ h.drop (off + bs.length)) s.graph.heads } }
    s.postBytes none (s.graphCtx g) false (g + off) bs
  else s.store (localKey g + off) bs

/-- One header counter takes its waiting counts: byte offset, bytes, and whether it saturates. -/
def State.publishCount (s : State) (g which off n : Nat) (sat : Bool) : State :=
  let w := s.graphDue g which
  let old := bitsN (s.graphHead g) (8 * off) (8 * n)
  if w = 0 then s
  else s.headPut g off (toLe n (if sat then satAdd (8 * n) old w else old + w))

/-- Publish a graph: node entries, header counters, PUBLISHED (R140); `frame` is the frame that ends. -/
def State.publish (s : State) (frame g : Nat) : State :=
  let nodes := (((s.graph.appends.filter (fun a => a.graph == g)).map Append.node ++
    (s.graph.done.filter (fun d => d.1 == g)).map (fun d => d.2.1)).eraseDups).filter (s.nodeOver g)
  let s := s.each nodes (fun s n => s.publishNode g n)
  let s := s.publishCount g 7 20 4 false
  let s := s.publishCount g 0 24 8 false
  let s := s.publishCount g 1 32 4 true
  let s := s.publishCount g 2 36 4 true
  let s := s.publishCount g 3 40 4 true
  let s := s.publishCount g 4 44 4 true
  let s := s.publishCount g 5 48 4 true
  let s := s.publishCount g 6 52 4 true
  let s := s.headPut g 56 (toLe 8 frame)
  { s with graph := { s.graph with
    appends := s.graph.appends.filter (fun a => !(a.graph == g && nodes.contains a.node)),
    counts := s.graph.counts.filter (fun c => !(c.1 == g && s.frameOver c.2.1)),
    done := s.graph.done.filter (fun d => !(d.1 == g && nodes.contains d.2.1)) } }

/-- The graphs with something to publish now: appends or counts of a frame that has ended, or a finished rebuild (R140). -/
def State.graphsDue (s : State) : List Nat :=
  ((s.graph.appends.filter (fun a => s.nodeOver a.graph a.node)).map Append.graph
    ++ (s.graph.counts.filter (fun c => s.frameOver c.2.1)).map Prod.fst ++ s.graph.done.map Prod.fst).eraseDups

/-- At a tick every graph with something to publish is published, where R141 lets it; of a frame that goes on nothing is (R51, R140, R141). -/
def State.publishTick (s : State) (frame : Nat) : State :=
  let ended := s.activeParts.filter (fun p => p ∉ s.openParts)
  let s : State := { s with graph := { s.graph with flips := s.graph.flips.filter (fun f => !ended.contains f.2) } }
  s.each (s.graphsDue.filter s.publishable) (fun s g => s.publish frame g)

end Sys2Proof.Machine
end

