-- ==== Sys2Proof/Machine/MicroOps.lean ====
section
/-! DEFINITION. Micro-ops: what each computes on the lanes of a vector unit, programs and their checks, and EPILOGUE (ch. 8, R315–R323). -/

namespace Sys2Proof.Machine

/-! ### Values -/

/-- The canonical FP32 NaN. -/
def nan32 : W32 := 0x7FC00000#32

def isNan32 (b : W32) : Bool := (fv32 b).isNan

/-- An FP32 subnormal read as zero of its sign (R288). -/
def flush32 (v : FV) : FV := flushIn 0 v

/-- Apply a function unless an input is NaN, which gives the canonical NaN (R320). -/
def unlessNan (xs : List W32) (f : W32) : W32 := if xs.any isNan32 then nan32 else f

/-- 1.0 or 0.0. -/
def truth (b : Bool) : W32 := if b then 0x3F800000#32 else 0#32

/-! ### Functions within a bound of the exact result (R318–R320) -/

/-- Whether a candidate lies within 1 ulp of 1 / v for a finite non-zero v (R318). -/
def rcpNear (v c : FV) : Bool :=
  match v, FV.round 24 (-1000000) 1000000 (FV.div 24 (.fin false 1 0) v) with
  | .fin _ m e, .fin _ qm qe =>
    let u := FV.mul (ulpOf (FV.log2 qm qe)) (.fin false m e)
    let d := (FV.sub (FV.mul c v) (.fin false 1 0)).abs
    !c.nonfinite && !FV.lt u d
  | _, _ => false

/-- Whether a candidate lies within 1 ulp of 1 / sqrt v for a positive finite v (R318). -/
def rsqrtNear (v c : FV) : Bool :=
  match FV.round 24 (-1000000) 1000000 (FV.div 24 (.fin false 1 0) (FV.sqrt 30 v)) with
  | .fin _ qm qe =>
    let u := ulpOf (FV.log2 qm qe)
    let lo := FV.sub c u
    let hi := FV.add c u
    !c.nonfinite && !c.sign
      && (lo.sign || !FV.lt (.fin false 1 0) (FV.mul (FV.mul lo lo) v))
      && !FV.lt (FV.mul (FV.mul hi hi) v) (.fin false 1 0)
  | _ => false

/-- RCP: 1 / va within 1 ulp; which value is the implementation's (R318; log entry 5). -/
def rcp32 (a : W32) : W32 :=
  let v := fv32 a
  let exact := bits32 (FV.f32 (FV.div 24 (.fin false 1 0) v))
  if v.nonfinite ∨ v.isZero then exact
  else
    let c := Config.transcendental 0x0D a
    if rcpNear v (fv32 c) then c else exact

/-- RSQRT: 1 / sqrt(va) within 1 ulp, with the special results of R320 (R318; log entry 5). -/
def rsqrt32 (a : W32) : W32 :=
  match fv32 a with
  | .nan => nan32
  | .inf n => if n then nan32 else 0#32
  | .fin n 0 _ => if n then 0xFF800000#32 else 0x7F800000#32
  | .fin true _ _ => nan32
  | v =>
    let exact := bits32 (FV.f32 (FV.div 24 (.fin false 1 0) (FV.sqrt 30 v)))
    let c := Config.transcendental 0x0F a
    if rsqrtNear v (fv32 c) then c else exact

/-- Special results of the transcendental micro-ops (R319, R320): by opcode and value, where the table fixes one. -/
def special32 (op : Nat) (a : W32) : Option W32 :=
  let inf := 0x7F800000#32
  let one := 0x3F800000#32
  match fv32 a with
  | .nan => some nan32
  | .inf neg =>
    match op with
    | 0x18 => some (if neg then 0 else inf)
    | 0x19 => some (if neg then nan32 else inf)
    | 0x1A | 0x1C => some (if neg then 0xBF800000#32 else one)
    | 0x1B => some (if neg then 0 else one)
    | 0x22 | 0x23 => some (if neg then 0x80000000#32 else inf)
    | 0x24 => some (if neg then 0 else inf)
    | 0x1D => some nan32
    | _ => none
  | .fin neg 0 _ =>
    match op with
    | 0x18 => some one
    | 0x19 => some 0xFF800000#32
    | 0x1A | 0x1C | 0x22 | 0x23 => some (if neg then 0x80000000#32 else 0)
    | 0x1B => some 0x3F000000#32
    | 0x24 => some 0x3F317218#32
    | 0x1D => some one
    | _ => none
  | .fin neg m e =>
    if op = 0x19 ∧ neg then some nan32
    else if op = 0x1D ∧ FV.lt (.fin false 1 20) (.fin false m e) then some nan32
    else none

/-- A transcendental micro-op: the special result, or the implementation's value where it lies within the bound of R319 (R320; log entry 5). -/
def trans32 (op : Nat) (a : W32) : W32 :=
  match special32 op a with
  | some r => r
  | none =>
    let x := fxVal (fxMicro op (fxOf (fv32 a)))
    let c := Config.transcendental op a
    if microNear op x (fv32 c) then c else bits32 (FV.f32 x)

/-! ### Micro-ops without memory or a row (R318) -/

def mvAdd (a b : W32) : W32 := bits32 (FV.add (fv32 a) (fv32 b))
def mvSub (a b : W32) : W32 := bits32 (FV.sub (fv32 a) (fv32 b))
def mvMul (a b : W32) : W32 := bits32 (FV.mul (fv32 a) (fv32 b))
def mvFma (a b c : W32) : W32 := bits32 (FV.add (FV.mul (fv32 a) (fv32 b)) (fv32 c))
def mvDiv (a b : W32) : W32 := bits32 (FV.div 24 (fv32 a) (fv32 b))
def mvSqrt (a : W32) : W32 := bits32 (FV.sqrt 24 (fv32 a))
def mvMax (a b : W32) : W32 := bits32 (FV.maxv (fv32 a) (fv32 b))
def mvMin (a b : W32) : W32 := bits32 (FV.minv (fv32 a) (fv32 b))
def mvAbs (a : W32) : W32 := unlessNan [a] (a &&& 0x7FFFFFFF#32)
def mvNeg (a : W32) : W32 := unlessNan [a] (a ^^^ 0x80000000#32)
def mvClamp (a b c : W32) : W32 := mvMin (mvMax a b) c

/-- RELU: va when va > 0, +0 otherwise; a NaN stays as it is, as R320 excepts it. -/
def mvRelu (a : W32) : W32 := if isNan32 a then a else if FV.lt .zero (fv32 a) then a else 0

/-- LEAKY: va when va ≥ 0, va × vb otherwise. -/
def mvLeaky (a b : W32) : W32 := unlessNan [a, b] (if FV.lt (fv32 a) .zero then mvMul a b else a)

def mvCmpGt (a b : W32) : W32 := truth (FV.lt (fv32 b) (fv32 a))
def mvCmpGe (a b : W32) : W32 := truth (!isNan32 a && !isNan32 b && !FV.lt (fv32 a) (fv32 b))
def mvCmpEq (a b : W32) : W32 := truth (FV.eqv (fv32 a) (fv32 b))

/-- The canonical NaN in place of any other (R294, R299). -/
def canon32 (a : W32) : W32 := unlessNan [a] a

/-- SEL: vb when va is non-zero and not NaN, else vc. -/
def mvSel (a b c : W32) : W32 := canon32 (if !isNan32 a && !(fv32 a).isZero then b else c)

def mvIsFin (a : W32) : W32 := truth (!(fv32 a).nonfinite)

/-- RNDFMT: convert to a narrower format and widen back (R291). -/
def mvRndFmt (a : W32) (elem : Nat) : W32 := bits32 ((fmtOf elem).decode ((fmtOf elem).convert false false (fv32 a)))

def mvFloor (a : W32) : W32 := bits32 (FV.floorv (fv32 a))
def mvRound (a : W32) : W32 := bits32 (FV.nearest (fv32 a))

/-- CONST: IMM read as BF16, widened. -/
def mvConst (imm : Nat) : W32 := canon32 (BitVec.ofNat 32 (imm % 65536 * 65536))

/-- CONSTLO: bits [15:0] replaced. -/
def mvConstLo (d : W32) (imm : Nat) : W32 := canon32 (BitVec.ofNat 32 (d.toNat / 65536 * 65536 + imm % 65536))

/-! ### Lanes -/

def Lane.get (l : Lane) (i : Nat) : W32 := nthD l.v (i % 16) 0
def Lane.set (l : Lane) (i : Nat) (x : W32) : Lane := { l with v := l.v.set (i % 16) x }

/-- Write a result into register d of every lane. -/
def Vu.each (u : Vu) (d : Nat) (f : Lane → W32) : Vu := { u with lanes := u.lanes.map (fun l => l.set d (f l)) }

/-- The values of a register over a row's lanes, in column order as the lanes stand, as the matrix engine reads them (R321). -/
def Vu.row (u : Vu) (row a : Nat) : List FV := (u.lanes.filter (fun l => l.row == row)).map (fun l => flush32 (fv32 (l.get a)))

/-- A sum under shape S: the first term, then one addition for each further term, rounded as `add` says with the addition's index (R302). -/
def seqSum (add : Nat → FV → FV) : Nat → FV → List FV → FV
  | _, acc, [] => acc
  | a, acc, t :: ts => seqSum add (a + 1) (add a (FV.add acc t)) ts

def sumS (add : Nat → FV → FV) : List FV → FV
  | [] => .zero
  | t :: ts => seqSum add 0 t ts

/-- How an addition of a row reduction rounds: to nearest, or stochastically with word(row, 65,536 z + a) (R290, R321). -/
def State.redAdd (s : State) (u : Vu) (row z : Nat) (a : Nat) (v : FV) : FV :=
  if u.op.flagBit 12 then FV.stoch (s.opWord u.op row (65536 * z + a)) v else FV.xf v

/-- A row reduction's result on every lane of each row; each row is reduced once (R321). -/
def Vu.reduce (u : Vu) (d : Nat) (f : Nat → W32) : Vu :=
  let rows := (u.lanes.map Lane.row).eraseDups
  let vals := rows.map (fun r => (r, f r))
  { u.each d (fun l => ((vals.find? (fun x => x.1 == l.row)).map Prod.snd).getD 0) with red := u.red + 1 }

/-- RSUM (R321). -/
def State.vuRsum (s : State) (u : Vu) (d a : Nat) : Vu :=
  u.reduce d (fun r => bits32 (FV.f32 (sumS (s.redAdd u r u.red) (u.row r a))))

/-- RDOT: exact products, added in the same order (R321). -/
def State.vuRdot (s : State) (u : Vu) (d a b : Nat) : Vu :=
  u.reduce d (fun r => bits32 (FV.f32 (sumS (s.redAdd u r u.red) (List.zipWith FV.mul (u.row r a) (u.row r b)))))

/-- RMAX and RMIN take the columns in ascending order (R321). -/
def vuRext (u : Vu) (d a : Nat) (f : FV → FV → FV) : Vu :=
  u.reduce d (fun r => match u.row r a with | [] => 0 | x :: xs => bits32 (xs.foldl f x))

/-- The word that RAND takes for a lane (R321). -/
def State.vuRand (s : State) (u : Vu) (d : Nat) : Vu :=
  let y := u.rand
  { u.each d (fun l => bits32 (.fin false (s.opWord u.op l.row (2 ^ 20 + 65536 * y + l.col) / 256) (-24))) with rand := y + 1 }

/-- The auxiliary element of a lane: slot C or D with a broadcast mode, rounded to FP32 (R316). -/
def State.auxAt (s : State) (o : Op) (mod : Nat) (row col : Nat) : W32 :=
  let t := o.desc.tensor (if bitN mod 2 then 80 else 64)
  let m := mod % 4
  let r := if m = 0 ∨ m = 2 then row else 0
  let c := if m = 0 ∨ m = 1 then col else 0
  bits32 (FV.f32 (nthD (s.rowVals o t r) c .zero))

/-- LDAUX (R316). -/
def State.vuLdaux (s : State) (u : Vu) (d mod : Nat) : Vu := u.each d (fun l => s.auxAt u.op mod l.row l.col)

/-- LDIDX: the row or column index. -/
def vuLdidx (u : Vu) (d mod : Nat) : Vu := u.each d (fun l => bits32 (.ofInt (if mod = 0 then l.row else l.col)))

/-- OUT: r of every lane (R280, R318). -/
def vuOut (u : Vu) (a : Nat) : Vu := { u with out := u.lanes.map (fun l => l.get a) }

/-- One register to register micro-op of one, two or three sources over every lane. -/
def Vu.map1 (u : Vu) (d a : Nat) (f : W32 → W32) : Vu := u.each d (fun l => f (l.get a))
def Vu.map2 (u : Vu) (d a b : Nat) (f : W32 → W32 → W32) : Vu := u.each d (fun l => f (l.get a) (l.get b))
def Vu.map3 (u : Vu) (d a b c : Nat) (f : W32 → W32 → W32 → W32) : Vu := u.each d (fun l => f (l.get a) (l.get b) (l.get c))

/-! ### Words (R317) -/

/-- A micro-op word. -/
structure MWord where
  op : Nat
  d : Nat
  a : Nat
  b : Nat
  c : Nat
  mod : Nat
  deriving DecidableEq, Repr, Inhabited

def mwordOf (w : Nat) : MWord := ⟨bitsN w 26 6, bitsN w 22 4, bitsN w 18 4, bitsN w 14 4, bitsN w 10 4, bitsN w 0 10⟩

/-- IMM of CONST and CONSTLO. -/
def MWord.imm (w : MWord) : Nat := w.b % 4 * 16384 + w.c * 1024 + w.mod

/-- One word of a program on a vector unit (R318–R321). -/
def State.micro (s : State) (u : Vu) (w : MWord) : Vu :=
  match w.op with
  | 0x01 => u.map1 w.d w.a (fun x => unlessNan [x] x)
  | 0x02 => u.each w.d (fun _ => mvConst w.imm)
  | 0x03 => u.map1 w.d w.d (fun x => mvConstLo x w.imm)
  | 0x04 => s.vuLdaux u w.d w.mod
  | 0x05 => vuLdidx u w.d w.mod
  | 0x08 => u.map2 w.d w.a w.b mvAdd
  | 0x09 => u.map2 w.d w.a w.b mvSub
  | 0x0A => u.map2 w.d w.a w.b mvMul
  | 0x0B => u.map3 w.d w.a w.b w.c mvFma
  | 0x0C => u.map2 w.d w.a w.b mvDiv
  | 0x0D => u.map1 w.d w.a rcp32
  | 0x0E => u.map1 w.d w.a mvSqrt
  | 0x0F => u.map1 w.d w.a rsqrt32
  | 0x10 => u.map2 w.d w.a w.b mvMax
  | 0x11 => u.map2 w.d w.a w.b mvMin
  | 0x12 => u.map1 w.d w.a mvAbs
  | 0x13 => u.map1 w.d w.a mvNeg
  | 0x14 => u.map3 w.d w.a w.b w.c mvClamp
  | 0x20 => u.map1 w.d w.a mvRelu
  | 0x21 => u.map2 w.d w.a w.b mvLeaky
  | 0x28 => u.map2 w.d w.a w.b mvCmpGt
  | 0x29 => u.map2 w.d w.a w.b mvCmpGe
  | 0x2A => u.map2 w.d w.a w.b mvCmpEq
  | 0x2B => u.map3 w.d w.a w.b w.c mvSel
  | 0x2C => u.map1 w.d w.a mvIsFin
  | 0x30 => s.vuRsum u w.d w.a
  | 0x31 => vuRext u w.d w.a FV.maxv
  | 0x32 => vuRext u w.d w.a FV.minv
  | 0x33 => s.vuRdot u w.d w.a w.b
  | 0x38 => u.map1 w.d w.a (fun x => mvRndFmt x (w.mod % 16))
  | 0x39 => u.map1 w.d w.a mvFloor
  | 0x3A => u.map1 w.d w.a mvRound
  | 0x3B => s.vuRand u w.d
  | 0x3C => vuOut u w.a
  | 0x18 | 0x19 | 0x1A | 0x1B | 0x1C | 0x1D | 0x22 | 0x23 | 0x24 => u.map1 w.d w.a (trans32 w.op)
  | _ => u

/-- The vector unit of a logical core. -/
def State.vuOf (s : State) (core : Nat) : Vu := sgetD core {} s.vus

/-- A vector unit takes a value. -/
def State.putVu (s : State) (core : Nat) (u : Vu) : State := { s with vus := sput core u s.vus }

/-- A micro-op as a command: it acts on the lanes of a core's vector unit. -/
def State.vuDo (s : State) (core : Nat) (f : Vu → Vu) : State := s.putVu core (f (s.vuOf core))

/-- The vector units of the cores that run an EPILOGUE's tasks hold the lanes of their tiles once the program has run (R304, R317, R420). -/
def State.vuTiles (s : State) (o : Op) (cols : Nat) (u : Vu) : State :=
  s.each (s.tasks.filter (fun t => t.op == o.seq)) (fun s t =>
    match t.at_ with
    | .running core =>
      let mine := fun (l : Lane) => l.row / 16 * max 1 (cdiv cols 16) + l.col / 16 == t.idx
      s.putVu core { u with lanes := u.lanes.filter mine, out := ((u.lanes.zip u.out).filter (fun x => mine x.1)).map Prod.snd }
    | _ => s)

/-! ### Program checks (R322) -/

/-- Whether OP is assigned. -/
def microAssigned (op : Nat) : Bool :=
  decide (op ≤ 0x05) || (decide (0x08 ≤ op) && decide (op ≤ 0x14)) || (decide (0x18 ≤ op) && decide (op ≤ 0x1D))
  || (decide (0x20 ≤ op) && decide (op ≤ 0x24)) || (decide (0x28 ≤ op) && decide (op ≤ 0x2C))
  || (decide (0x30 ≤ op) && decide (op ≤ 0x33)) || (decide (0x38 ≤ op) && decide (op ≤ 0x3C))

/-- The fields that a micro-op uses: D, A, B, C as bits 0 to 3, MOD as the mask of its bits. -/
def microUses (op : Nat) : Nat × Nat :=
  match op with
  | 0x00 => (0, 0)
  | 0x04 => (1, 7)
  | 0x05 => (1, 1)
  | 0x08 | 0x09 | 0x0A | 0x0C | 0x10 | 0x11 | 0x21 | 0x28 | 0x29 | 0x2A | 0x33 => (7, 0)
  | 0x0B | 0x14 | 0x2B => (15, 0)
  | 0x38 => (3, 15)
  | 0x3B => (1, 0)
  | 0x3C => (2, 0)
  | _ => (3, 0)

/-- Whether every reserved field of a word is zero (R317). -/
def microClean (v : Nat) : Bool :=
  let w := mwordOf v
  if w.op = 2 ∨ w.op = 3 then bitsN v 16 6 == 0
  else
    let u := microUses w.op
    (bitN u.1 0 || w.d == 0) && (bitN u.1 1 || w.a == 0) && (bitN u.1 2 || w.b == 0) && (bitN u.1 3 || w.c == 0)
      && w.mod &&& (1023 - u.2) == 0

/-- The registers that a word reads. -/
def microReads (w : MWord) : List Nat :=
  if w.op = 3 then [w.d]
  else if w.op = 2 then []
  else
    let u := (microUses w.op).1
    (if bitN u 1 then [w.a] else []) ++ (if bitN u 2 then [w.b] else []) ++ (if bitN u 3 then [w.c] else [])

/-- Whether no word reads a register that nothing has written. -/
def microDefined : List Nat → List MWord → Bool
  | _, [] => true
  | known, w :: ws =>
    (microReads w).all (fun r => r ∈ known) && microDefined (if bitN (microUses w.op).1 0 ∨ w.op = 2 ∨ w.op = 3 then w.d :: known else known) ws

def isReduction (w : MWord) : Bool := decide (0x30 ≤ w.op) && decide (w.op ≤ 0x33)

/-- The checks of a program by R322; `agg` for AGGREGATE. -/
def progFails (d : Desc) (agg : Bool) (words : List Nat) : List Fail :=
  let ws := words.map mwordOf
  failIf (ws.any (fun w => !microAssigned w.op)) 0x13 96
  ++ failIf (!words.all microClean) 0x15 96
  ++ failIf (!((ws.getLast?.map (fun w => w.op == 0x3C)).getD false && (ws.dropLast).all (fun w => w.op != 0x3C))) 0x15 96
  ++ failIf (!microDefined (if agg then [0, 1, 2, 3] else [0]) ws) 0x15 96
  ++ failIf (decide (8 < ws.countP isReduction) || decide (16 < ws.countP (fun w => w.op == 0x3B))) 0x15 96
  ++ failIf (ws.any (fun w => w.op == 0x38 && (w.mod % 16 == 0 || decide (4 < w.mod % 16)))) 0x15 96
  ++ failIf (agg && ws.any (fun w => w.op == 4 || (w.op == 5 && w.mod == 0) || isReduction w || w.op == 0x3B)) 0x15 96
  ++ failIf (!agg && ws.any isReduction && decide (16384 < (d.tensor 32).cols)) 0x15 96
  ++ failIf (!agg && ws.any (fun w => w.op == 0x3B) && d.streamId == 0) 0x15 24
  ++ (if agg then [] else
      let l := fun (slot : Nat) (sel : Bool) => ws.any (fun w => w.op == 4 && bitN w.mod 2 == sel) && (dField d slot 16 == 0 || decide (7 < (d.tensor slot).elem))
      failIf (l 64 false) 0x15 64 ++ failIf (l 80 true) 0x15 80)

/-- The words of an operation's program, as it was read once (R323). -/
def Op.words (o : Op) : List Nat := (blocks 4 o.held).map leBytes

/-- What admission has of a descriptor's program, where its size and the access checks let it be read (R93, R322). -/
def State.progGot (s : State) (x : Ctx) (d : Desc) : AdmGot :=
  let a := dField d 96 8
  let n := dField d 104 2
  if n = 0 ∨ 256 < n ∨ 5 ≤ spaceOf a ∨ (s.rangeFail x a (4 * n) true false).isSome then .bytes [] else s.admGet x a (4 * n)

/-- The bytes of the program that admission has; none where there is nothing to check. Every core runs this copy (R323). -/
def State.progHeld (s : State) (x : Ctx) (d : Desc) : List Byte :=
  match s.progGot x d with
  | .bytes bs => bs
  | _ => []

/-- The words of the program that admission has. -/
def State.progAdm (s : State) (x : Ctx) (d : Desc) : List Nat := (blocks 4 (s.progHeld x d)).map leBytes

/-- What admission must still read of a program that lies elsewhere (R322). -/
def State.progWants (s : State) (x : Ctx) (d : Desc) : List (Nat × Nat) :=
  if s.progGot x d = .unread then [(dField d 96 8, 4 * dField d 104 2)] else []

/-- Program checks at admission; PROG_ADDR is 4-byte aligned and PROG_WORDS 1 to 256 (R93, R322). -/
def State.programFails (s : State) (x : Ctx) (d : Desc) (agg : Bool) : List Fail :=
  let n := dField d 104 2
  failIf (dField d 96 8 % 4 != 0) 0x15 96 ++ failIf (n = 0 || decide (256 < n)) 0x15 104
  ++ (match s.progGot x d with
    | .fails st => [(st, 96)]
    | _ => let ws := s.progAdm x d; if ws.isEmpty then [] else progFails d agg ws)

/-- Cost of a micro-op in core cycles per 32 elements (R318). -/
def microCost (op : Nat) : Nat :=
  if op ∈ [0x22, 0x23, 0x24] then 6
  else if op ∈ [0x0C, 0x0E, 0x18, 0x19, 0x1A, 0x1B, 0x1C, 0x1D] then 4
  else if op ∈ [0x0D, 0x0F, 0x30, 0x31, 0x32, 0x33] then 2
  else 1

/-- The cycles that a descriptor's program costs for 32 elements, and its row reductions; one cycle without a program (R318, R324; log entry 28). -/
def State.progCost (s : State) (x : Ctx) (d : Desc) (o : Opc) : Nat × Nat :=
  let ws := if (o = .epilogue ∨ o = .aggregate) ∧ d.slotRaw 4 ≠ 0 then (s.progAdm x d).map mwordOf else []
  (max 1 (sumN (ws.map (fun w => microCost w.op))), ws.countP isReduction)

/-! ### EPILOGUE (R280, R308, R315, R316) -/

/-- A tensor scale field as a value; zero means 1.0 (R279). -/
def scaleOf (v : Nat) : FV := if v = 0 then .fin false 1 0 else fv32 (BitVec.ofNat 32 v)

/-- A tensor scale that breaks R279. -/
def scaleFail (v off : Nat) : List Fail := failIf (v != 0 && !posNormal v) 0x15 off

/-- Whether an EPILOGUE takes a stochastic word (R308). -/
def epilogueStoch (d : Desc) (words : List Nat) : Bool :=
  d.flag 12 && decide (1 < (d.tensor 32).cols) && (words.map mwordOf).any (fun w => w.op == 0x30 || w.op == 0x33)

/-- Whether an auxiliary slot fits the modes with which LDAUX reads it (R316). -/
def auxShapeOk (d : Desc) (slot : Nat) (sel : Bool) (words : List Nat) : Bool :=
  let a := d.tensor 32
  let t := d.tensor slot
  (words.map mwordOf).all (fun w =>
    !(w.op == 4 && bitN w.mod 2 == sel) ||
    (match w.mod % 4 with
      | 0 => t.rows == a.rows && t.cols == a.cols
      | 1 => t.rows == 1 && t.cols == a.cols
      | 2 => t.rows == a.rows && t.cols == 1
      | _ => t.rows == 1 && t.cols == 1))

/-- Admission checks of an EPILOGUE (R279, R308, R315, R316, R322). -/
def State.epilogueFails (s : State) (x : Ctx) (d : Desc) : List Fail :=
  let a := d.tensor 32
  let b := d.tensor 48
  let ws := s.progAdm x d
  failIf (a.elem > 7) 0x14 43 ++ failIf (b.elem > 7 || b.compressed) 0x14 59
  ++ failIf (b.rows != a.rows) 0x15 56 ++ failIf (b.cols != a.cols) 0x15 60
  ++ scaleFail (d.param 0 4) 112 ++ scaleFail (d.param 4 4) 116
  ++ s.programFails x d false
  ++ failIf (epilogueStoch d ws && d.streamId == 0) 0x15 24
  ++ failIf (!auxShapeOk d 64 false ws) 0x15 72 ++ failIf (!auxShapeOk d 80 true ws) 0x15 88

/-- The vector unit at the start of an EPILOGUE: v0 of every element, the other registers undefined (R315). -/
def State.epilogueVu (s : State) (o : Op) : Vu × State :=
  let t := o.desc.tensor 32
  let sc := scaleOf (o.desc.param 0 4)
  let fr := (List.range 16).map (fun i => Config.freeBits (s.fresh + i) 32)
  let lanes := (List.range t.rows).flatMap (fun r =>
    (s.rowVals o t r).zipIdx.map (fun x => Lane.mk r x.2 (fr.set 0 (bits32 (FV.f32 (FV.mul sc x.1))))))
  ({ op := o, lanes := lanes }, { s with fresh := s.fresh + 16 })

/-- The data effect of an EPILOGUE (R280, R315): every element through the program, divided by SCALE_OUT, converted and stored. -/
def State.epilogueRun (s : State) (o : Op) : State :=
  let words := o.words
  let a := o.desc.tensor 32
  let b := o.desc.tensor 48
  if !s.compOk o a then (s.freeOutputs o).opFail o.seq 0x15 32
  else
    let x := s.epilogueVu o
    let u := words.foldl (fun u w => x.2.micro u (mwordOf w)) x.1
    let sc := scaleOf (o.desc.param 4 4)
    let vals := u.out.map (fun r => FV.f32 (FV.div 24 (fv32 r) sc))
    let y := (x.2.vuTiles o b.cols u).writeMat o b false (blocks a.cols vals)
    let cap := capture 16 16 b.cols y.2
    y.1.opEnd o.seq (captureAuxField cap) cap.isSome

/-- EPILOGUE, run. -/
def epilogueOp (ctx : Nat) (s : State) : State :=
  s.runOp ctx (isOpc .epilogue) (fun _ o => o.inputs .epilogue) (fun o s => s.epilogueRun o)

end Sys2Proof.Machine
end

