-- ==== Sys2Proof/Machine/Matrix.lean ====
section
/-! DEFINITION. DENSE, PREDICT, AGGREGATE and LOSS on the matrix engine (ch. 7, ch. 8, ch. 9; R276–R298, R300–R314, R341–R348, R760). -/

namespace Sys2Proof.Machine

/-! ### Operands -/

/-- A row of a DENSE operand: element values without block scale, and one scale factor per group of 32, 1 where the operand is not block-scaled. -/
structure DRow where
  vals : List FV
  scales : List FV
  deriving DecidableEq, Repr, Inhabited

/-- An E8M0 byte as a factor (R275). -/
def e8m0 (v : Nat) : FV := applyScale (.fin false 1 0) v

/-- The stored rows of an operand, as the matrix engine reads them (R288). -/
def State.dRows (s : State) (o : Op) (t : Tensor) : List DRow :=
  (List.range t.rows).map (fun r =>
    match s.rowRaw o t r with
    | some x => ⟨x.1.map (fun c => flushIn t.elem (decodeElem t.elem t.signed c)), x.2.map e8m0⟩
    | none => ⟨List.replicate t.cols .nan, []⟩)

/-- Rows along the inner dimension: transposed where the flag says so (R300). -/
def transposed (cols : Nat) (rows : List DRow) : List DRow :=
  (List.range cols).map (fun c => ⟨rows.map (fun r => nthD r.vals c .zero), []⟩)

/-- The exact sum of a list of terms (R283, R286). -/
def exactSum : List FV → FV
  | [] => .zero
  | t :: ts => ts.foldl FV.add t

/-- The values of a row with their block scales, one for each 32 elements (R277, R278). -/
def DRow.values (r : DRow) : List FV :=
  if r.scales.isEmpty then r.vals else r.vals.zipIdx.map (fun x => FV.mul x.1 (nthD r.scales (x.2 / 32) (.fin false 1 0)))

/-- A zero product or sum of integers is +0. -/
def intZero (isI : Bool) (v : FV) : FV := if isI && v.isZero then .zero else v

/-- Neighbouring pairs summed, each rounded to XF32 (R302, shape P). -/
def pairSums : List FV → List FV
  | [] => []
  | [a] => [a]
  | a :: b :: r => FV.xf (FV.add a b) :: pairSums r

/-- Group sums with their scale factors (R283, R302, shape G). -/
def groupSums (isI : Bool) (ps : List FV) (sx sw : List FV) : List FV :=
  (blocks 32 ps).zipIdx.map (fun g =>
    let one := FV.fin false 1 0
    FV.xf (FV.mul (FV.mul (intZero isI (exactSum g.1)) (nthD sx g.2 one)) (nthD sw g.2 one)))

/-- The sum of one output element; `add` rounds an addition into the running sum by its index. In shape G the block scales multiply a group's sum, in shapes P and S the elements themselves (R277, R283, R285, R302). -/
def dotSum (sh : Shape) (isI : Bool) (add : Nat → FV → FV) (x w : DRow) : FV :=
  let ps := List.zipWith (fun a b => intZero isI (FV.mul a b)) x.vals w.vals
  let scaled := List.zipWith FV.mul x.values w.values
  match sh with
  | .g => sumS add (groupSums isI ps x.scales w.scales)
  | .e => FV.xf (intZero true (exactSum ps))
  | .p => sumS add (pairSums scaled)
  | .s => sumS add scaled

/-! ### DENSE -/

/-- Inner and outer dimensions: K by X, M, K by W, N (R300). -/
def denseDims (d : Desc) : Nat × Nat × Nat × Nat :=
  let x := d.tensor 32
  let w := d.tensor 48
  (if d.flag 8 then x.rows else x.cols, if d.flag 8 then x.cols else x.rows,
   if d.flag 9 then w.rows else w.cols, if d.flag 9 then w.cols else w.rows)

/-- Format failures of an X and W pair, with the offsets of their FORMAT bytes (R276, R301, R333). -/
def pairFails (x w : Tensor) (tx tw : Bool) (wOff : Nat) : List Fail :=
  failIf (decide (6 < x.elem)) 0x14 43 ++ failIf (decide (6 < w.elem)) 0x14 wOff
  ++ failIf (decide (x.elem ≤ 6) && decide (w.elem ≤ 6) && isInt x.elem != isInt w.elem) 0x14 wOff
  ++ failIf (tx && (x.scaled || x.compressed)) 0x14 43 ++ failIf (tw && (w.scaled || w.compressed)) 0x14 wOff

/-- Admission checks of a DENSE (R99, R276, R279, R300, R301, R308, R333, R346). -/
def denseFails (d : Desc) : List Fail :=
  let x := d.tensor 32
  let w := d.tensor 48
  let y := d.tensor 64
  let dd := d.tensor 80
  let e := d.tensor 96
  let (kx, m, kw, n) := denseDims d
  let words := match shapeOf x w with | .g => cdiv kx 32 | .e => 0 | .p => cdiv kx 2 | .s => kx
  pairFails x w (d.flag 8) (d.flag 9) 59
  ++ failIf (decide (7 < y.elem)) 0x14 75
  ++ failIf (kx != kw) 0x15 (if d.flag 9 then 56 else 60)
  ++ failIf (y.rows != m) 0x15 72 ++ failIf (y.cols != n) 0x15 76
  ++ (if d.flag 10 then failIf (decide (7 < dd.elem)) 0x14 91 ++ failIf (dd.rows != m) 0x15 88 ++ failIf (dd.cols != n) 0x15 92 else [])
  ++ (if d.flag 11 then failIf (e.fmt != 9) 0x14 107 ++ failIf (e.rows != 1) 0x15 104 ++ failIf (e.cols != n) 0x15 108 else [])
  ++ scaleFail (d.param 0 4) 112 ++ scaleFail (d.param 4 4) 116 ++ scaleFail (d.param 8 4) 120
  ++ failIf (d.flag 12 && decide (1 < words) && d.streamId == 0) 0x15 24

/-- How an addition of an output element rounds: by R290 with its word when OPF STOCH_ROUND is set (R302, R307). -/
def State.denseAdd (s : State) (o : Op) (tile pos a : Nat) (v : FV) : FV :=
  if o.desc.flag 12 then FV.stoch (s.opWord o tile (65536 * pos + a)) v else FV.xf v

/-- What the accumulator holds for an output element at the end of its tile (R302, R307). -/
def State.denseAcc (s : State) (o : Op) (sh : Shape) (isI : Bool) (tpr r c : Nat) (x w : DRow) : FV :=
  dotSum sh isI (s.denseAdd o (r / sh.tileRows * tpr + c / 16) (r % sh.tileRows * 16 + c % 16)) x w

/-- A bank of the matrix engine of each core that runs a task of an operation takes the entries of that task's tile, row × 16 + column (R305, R306; log entry 33). -/
def State.fillBanks (s : State) (o : Op) (entries : Nat → List FV) : State :=
  s.each (s.tasks.filter (fun t => t.op == o.seq)) (fun s t =>
    match t.at_ with
    | .running core =>
      let a := sgetD core {} s.accs
      { s with accs := sput core { next := 1 - a.next, banks := a.banks.set a.next ⟨some (o.seq, t.idx), entries t.idx⟩ } s.accs }
    | _ => s)

/-- The entries of a tile, from a function of row and column: zero where the tile is partial. -/
def tileEntries (rows cols tr i : Nat) (f : Nat → Nat → FV) : List FV :=
  let t := tileDims rows cols tr i
  let r := i / max 1 (cdiv cols 16) * tr
  let c := i % max 1 (cdiv cols 16) * 16
  (List.range (16 * tr)).map (fun k => if k / 16 < t.1 ∧ k % 16 < t.2 then f (r + k / 16) (c + k % 16) else .zero)

/-- The value a / SCALE_Y of an output element before conversion (R280). -/
def State.denseElem (s : State) (o : Op) (sh : Shape) (isI : Bool) (tpr r c : Nat) (x w : DRow) (dv : Option FV) : FV :=
  let d := o.desc
  let acc := s.denseAcc o sh isI tpr r c x w
  let a := FV.xf (FV.mul acc (FV.xf (FV.mul (scaleOf (d.param 0 4)) (scaleOf (d.param 4 4)))))
  let a := match dv with | some v => FV.xf (FV.add a v) | none => a
  FV.xf (FV.div 24 a (scaleOf (d.param 8 4)))

/-- The columns that a DENSE computes (R346). -/
def State.denseMask (s : State) (o : Op) (n : Nat) : List Nat :=
  if o.desc.flag 11 then (s.opRd o (o.desc.tensor 96).addr n).map BitVec.toNat else List.replicate n 1

/-- The counts of R348: marked, idle, audited, missed. -/
def predCounts (mask : List Nat) (active : List Bool) : Nat × Nat × Nat × Nat :=
  (List.zip mask active).foldl (fun x c =>
    if c.1 = 0 then x
    else if c.1 = 2 then (x.1, x.2.1, x.2.2.1 + 1, x.2.2.2 + (if c.2 then 1 else 0))
    else (x.1 + 1, x.2.1 + (if c.2 then 0 else 1), x.2.2.1, x.2.2.2)) (0, 0, 0, 0)

/-- The prediction counters of a partition (R348). -/
def State.predAdd (s : State) (p : Nat) (x : Nat × Nat × Nat × Nat) : State :=
  let s := s.wrapFld (.schPredMarked p) F.schPredMarked_COUNT x.1
  let s := s.wrapFld (.schPredIdle p) F.schPredIdle_COUNT x.2.1
  let s := s.wrapFld (.schPredAudit p) F.schPredAudit_COUNT x.2.2.1
  s.wrapFld (.schPredMiss p) F.schPredMiss_COUNT x.2.2.2

/-- The data effect of a DENSE (R280, R300–R308, R346–R348). -/
def State.denseRun (s : State) (o : Op) : State :=
  let d := o.desc
  let x := d.tensor 32
  let w := d.tensor 48
  let y := d.tensor 64
  if !s.compOk o x then (s.freeOutputs o).opFail o.seq 0x15 32
  else if !s.compOk o w then (s.freeOutputs o).opFail o.seq 0x15 48
  else
    let sh := shapeOf x w
    let isI := isInt x.elem && isInt w.elem
    let xs := if d.flag 8 then transposed x.cols (s.dRows o x) else s.dRows o x
    let ws := if d.flag 9 then transposed w.cols (s.dRows o w) else s.dRows o w
    let dt := d.tensor 80
    let mask := s.denseMask o y.cols
    let tpr := cdiv y.cols 16
    let vals := xs.zipIdx.map (fun xr =>
      let dr := if d.flag 10 then (s.rowVals o dt xr.2).map (flushIn dt.elem) else []
      (ws.zip mask).zipIdx.map (fun wc =>
        if wc.1.2 = 0 then FV.zero
        else s.denseElem o sh isI tpr xr.2 wc.2 xr.1 wc.1.1 (if d.flag 10 then some (nthD dr wc.2 .zero) else none)))
    let bank := fun (i : Nat) => tileEntries y.rows y.cols sh.tileRows i (fun r c =>
      if nthD mask c 0 = 0 then .zero else s.denseAcc o sh isI tpr r c (nthD xs r default) (nthD ws c default))
    let out := (s.fillBanks o bank).writeMat o y true vals
    let marks := out.2.map (fun l => List.zipWith (fun m c => m && c != 0) l mask)
    let cap := capture sh.tileRows 16 y.cols marks
    let s := out.1
    let s := if d.flag 11 then
        let active := (List.range y.cols).map (fun c => vals.any (fun r => FV.lt .zero (nthD r c .zero)))
        s.predAdd o.part (predCounts mask active)
      else s
    s.opEnd o.seq (captureAuxField cap) cap.isSome

/-- What a DENSE reads: with a mask, that first, and then of W only what the column tiles with a computed column need (R346, R347). -/
def State.denseReads (s : State) (o : Op) : List (Nat × Nat) :=
  let d := o.desc
  if !d.flag 11 then o.inputs .dense
  else
    let w := d.tensor 48
    let e := d.tensor 96
    let n := (d.tensor 64).cols
    let rest := (o.inputs .dense).filter (fun r => r ≠ (w.addr, w.span))
    if !(s.missing o [(e.addr, e.span)]).isEmpty then rest
    else
      let mask := s.denseMask o n
      rest ++ (List.range (cdiv n 16)).flatMap (fun t =>
        if ((mask.drop (16 * t)).take 16).any (· != 0) then
          (if d.flag 9 then w.block 0 w.rows (16 * t) (partLen n 16 t) else w.block (16 * t) (partLen n 16 t) 0 w.cols)
        else [])

/-- DENSE, run. -/
def denseOp (ctx : Nat) (s : State) : State :=
  s.runOp ctx (isOpc .dense) State.denseReads (fun o s => s.denseRun o)

/-! ### PREDICT (R341–R345) -/

/-- Admission checks of a PREDICT (R341). -/
def predictFails (d : Desc) : List Fail :=
  let x := d.tensor 32
  let u := d.tensor 48
  let v := d.tensor 64
  let m := d.tensor 80
  pairFails x u false false 59
  ++ failIf (u.cols != x.cols) 0x15 60 ++ failIf (u.rows = 0 || decide (256 < u.rows)) 0x15 56
  ++ failIf (v.cols != u.rows) 0x15 76 ++ failIf (decide (4 < v.elem) || v.compressed || v.scaled) 0x14 75
  ++ failIf (m.fmt != 9) 0x15 91 ++ failIf (m.rows != 1) 0x15 88 ++ failIf (m.cols != v.rows) 0x15 92
  ++ failIf (fv32 (BitVec.ofNat 32 (d.param 0 4))).nonfinite 0x15 112

/-- An FP32 result of the matrix engine (R288, R291). -/
def engine32 (v : FV) : FV := (fmtOf 0).decode ((fmtOf 0).convert false true v)

/-- Whether a score ranks above another: NaN above every number, then the larger, then the lower neuron (R343). -/
def scoreBefore (a b : FV × Nat) : Bool :=
  if a.1.isNan ∧ b.1.isNan then decide (a.2 < b.2)
  else if a.1.isNan then true
  else if b.1.isNan then false
  else FV.lt b.1 a.1 || (FV.eqv a.1 b.1 && decide (a.2 < b.2))

/-- Scores of the neurons (R342). -/
def State.predictScores (s : State) (o : Op) : List FV :=
  let d := o.desc
  let x := d.tensor 32
  let u := d.tensor 48
  let sh := shapeOf x u
  let isI := isInt x.elem && isInt u.elem
  let xf := fun (_ : Nat) (v : FV) => FV.xf v
  let us := s.dRows o u
  let h := (s.dRows o x).map (fun xr => us.map (fun ur => engine32 (dotSum sh isI xf xr ur)))
  (s.dRows o (d.tensor 64)).map (fun vr =>
    match h.map (fun hr => engine32 (sumS xf (List.zipWith FV.mul (hr.map flush32) vr.vals))) with
    | [] => .zero
    | a :: r => r.foldl FV.maxv a)

/-- The data effect of a PREDICT (R342–R345). -/
def State.predictRun (s : State) (o : Op) : State :=
  let d := o.desc
  if !s.compOk o (d.tensor 32) then (s.freeOutputs o).opFail o.seq 0x15 32
  else
    let sc := (s.predictScores o).zipIdx
    let th := fv32 (BitVec.ofNat 32 (d.param 0 4))
    let ok := sc.filter (fun c => c.1.isNan || FV.lt th c.1)
    let cap := cdiv (sc.length * d.param 4 2) 1000
    let kept := if ok.length ≤ cap then ok else ok.filter (fun c => decide (ok.countP (fun e => scoreBefore e c) < cap))
    let mask := sc.map (fun c =>
      if kept.any (fun k => k.2 == c.2) then 1
      else if d.streamId ≠ 0 ∧ s.opWord o 0 c.2 < 2 ^ 25 then 2 else 0)
    let t := d.tensor 80
    (s.opWr o t.addr (mask.map (BitVec.ofNat 8))).opEnd o.seq ((mask.countP (· == 1)) % 2 ^ 32) false

/-- PREDICT, run. -/
def predictOp (ctx : Nat) (s : State) : State :=
  s.runOp ctx (isOpc .predict) (fun _ o => o.inputs .predict) (fun o s => s.predictRun o)

/-! ### AGGREGATE (R309–R314, R760) -/

/-- A subgraph block as AGGREGATE reads it: NODES, HOPS, and the edges of one hop: parent, child, timestamp. -/
structure ABlk where
  nodes : Nat
  hops : Nat
  edges : List (Nat × Nat × Nat)
  deriving DecidableEq, Repr, Inhabited

/-- The blocks of slot A, with the edges of a hop (R168, R169, R309). -/
def State.aggBlocks (s : State) (o : Op) (hop : Nat) : List ABlk :=
  let t := o.desc.tensor 32
  (List.range t.rows).map (fun r =>
    let a := t.addr + r * t.pitch
    let h := s.opRdN o a 64
    let off := bitsN h (80 + 16 * hop) 16 * 64
    let n := bitsN h (160 + 32 * hop) 32
    ⟨bitsN h 0 16, bitsN h 144 8, (List.range n).map (fun i =>
      let e := s.opRdN o (a + off + 8 * i) 8
      (bitsN e 0 14, bitsN e 14 14, bitsN e 32 32))⟩)

/-- Admission checks of an AGGREGATE (R311, R313, R314, R322). -/
def State.aggregateFails (s : State) (x : Ctx) (d : Desc) : List Fail :=
  let b := d.tensor 48
  let c := d.tensor 64
  let w := d.tensor 80
  failIf (decide (4 < b.elem)) 0x14 59
  ++ failIf (c.rows != b.rows) 0x15 72 ++ failIf (c.cols != b.cols) 0x15 76
  ++ failIf (decide (6 < c.elem) || c.compressed) 0x14 75
  ++ (if d.param 0 1 = 3 ∧ d.slotRaw 3 ≠ 0 then
      failIf (decide (1 < w.elem) || w.scaled || w.compressed) 0x14 91 ++ failIf (w.cols != 1) 0x15 92 else [])
  ++ failIf (d.flag 8 && (d.param 0 1 == 2 || d.slotRaw 4 != 0)) 0x15 112
  ++ (if d.slotRaw 4 = 0 then [] else s.programFails x d true)

/-- The run checks of an AGGREGATE, in the order of slot offsets (R311, R314, R760). -/
def aggRunFail (d : Desc) (bs : List ABlk) : Option (Nat × Nat) :=
  firstFail (failIf (bs.any (fun b => b.nodes != 0 && decide (b.hops ≤ d.param 1 1))) 0x15 113
    ++ failIf (decide ((d.tensor 48).rows < sumN (bs.map ABlk.nodes))) 0x15 56
    ++ failIf (d.param 0 1 = 3 && (d.tensor 80).rows != sumN ((bs.filter (fun b => b.nodes != 0)).map (fun b => b.edges.length))) 0x15 88)

/-- One edge as AGGREGATE uses it: output or input row of the parent and of the child, weight, timestamp. -/
structure AEdge where
  parent : Nat
  child : Nat
  w : FV
  ts : Nat
  /-- block number -/
  blk : Nat
  deriving DecidableEq, Repr, Inhabited

/-- The edges of the hop across all blocks, in block order and then emit order, with their weights. -/
def aggEdges (ws : List FV) : List ABlk → Nat → Nat → Nat → List AEdge
  | [], _, _, _ => []
  | b :: bs, base, i, k =>
    if b.nodes = 0 then aggEdges ws bs base i (k + 1)
    else b.edges.zipIdx.map (fun e => ⟨base + e.1.1, base + e.1.2.1, nthD ws (i + e.2) (.fin false 1 0), e.1.2.2, k⟩)
      ++ aggEdges ws bs (base + b.nodes) (i + b.edges.length) (k + 1)

/-- XF32 running sum under shape S, to nearest. -/
def sumNear (l : List FV) : FV := sumS (fun _ v => FV.xf v) l

/-- The reduction of one element's messages (R310); mean divides by the edge count. -/
def aggReduce (reducer n : Nat) (l : List FV) : FV :=
  match l with
  | [] => .zero
  | a :: r =>
    if reducer = 2 then r.foldl FV.maxv a
    else if reducer = 1 then FV.xf (FV.div 24 (sumNear l) (.ofInt n))
    else sumNear l

/-- The message of an edge for each column, through a program: registers v0 to v3 as R312 says. -/
def State.aggProgram (s : State) (o : Op) (words : List Nat) (x : List FV) (w : FV) (age n : Nat) : List FV :=
  let v := fun (c : FV) => [bits32 (FV.f32 c), bits32 (FV.f32 w), bits32 (FV.f32 (.ofInt age)), bits32 (FV.f32 (.ofInt n))] ++ List.replicate 12 0
  let u : Vu := { op := o, lanes := x.zipIdx.map (fun c => Lane.mk 0 c.2 (v c.1)) }
  ((words.foldl (fun u wd => s.micro u (mwordOf wd)) u).out).map (fun r => flush32 (fv32 r))

/-- The data effect of an AGGREGATE (R309–R313, R760). -/
def State.aggregateRun (s : State) (o : Op) : State :=
  let d := o.desc
  let b := d.tensor 48
  let c := d.tensor 64
  let red := d.param 0 1
  let words := if d.slotRaw 4 = 0 then [] else o.words
  let bs := s.aggBlocks o (d.param 1 1)
  if !s.compOk o b then (s.freeOutputs o).opFail o.seq 0x15 48
  else
    match aggRunFail d bs with
    | some f => s.opFail o.seq f.1 f.2
    | none =>
      if bs.any (fun b => b.nodes != 0 && b.edges.any (fun e => decide (b.nodes ≤ e.1) || decide (b.nodes ≤ e.2.1))) then
        (s.freeOutputs o).opFail o.seq 0x15 32
      else
        let wt := d.tensor 80
        let ws := if red = 3 then (List.range wt.rows).map (fun r => (s.rowVals o wt r).headD .zero) else []
        let es := aggEdges ws bs 0 0 0
        let total := sumN (bs.map ABlk.nodes)
        let raw := (s.matVals o b).toArray
        let row := fun (i : Nat) => raw.getD i []
        let flushed := fun (i : Nat) => (row i).map (flushIn b.elem)
        let cnt := fun (p : Nat) => es.countP (fun e => e.parent == p)
        let vals := (List.range total).map (fun i =>
          if d.flag 8 then
            let terms := (es.filter (fun e => e.child == i)).map (fun e =>
              let g := flushed e.parent
              if red = 1 then g.map (fun v => FV.xf (FV.div 24 v (.ofInt (cnt e.parent))))
              else if red = 3 then g.map (fun v => FV.xf (FV.mul (flushIn wt.elem e.w) v))
              else g)
            (List.range c.cols).map (fun k => sumNear (terms.map (fun t => nthD t k .zero)))
          else
            let mine := es.filter (fun e => e.parent == i)
            let n := mine.length
            let tsMax := (mine.map AEdge.ts).foldl max 0
            let msgs := mine.map (fun e =>
              if !words.isEmpty then s.aggProgram o words (row e.child) e.w (tsMax - e.ts) n
              else if red = 3 then (flushed e.child).map (fun v => FV.xf (FV.mul (flushIn wt.elem e.w) v))
              else flushed e.child)
            (List.range c.cols).map (fun k => aggReduce red n (msgs.map (fun t => nthD t k .zero))))
        let bank := fun (k : Nat) =>
          let r := sumN ((bs.take k).map ABlk.nodes)
          tileEntries ((bs.getD k default).nodes) c.cols 16 0 (fun i j => nthD (nthD vals (r + i) []) j .zero)
        let out := (s.fillBanks o bank).writeMat o c true vals
        let cap := capture 16 16 c.cols out.2
        out.1.opEnd o.seq (captureAuxField cap) cap.isSome

/-- AGGREGATE, run. -/
def aggregateOp (ctx : Nat) (s : State) : State :=
  s.runOp ctx (isOpc .aggregate) (fun _ o => o.inputs .aggregate) (fun o s => s.aggregateRun o)

/-! ### LOSS (R97, R297; the arithmetic is not stated: free values, log entry 12) -/

/-- A matrix of free FP32 values. -/
def State.freeMat (s : State) (rows cols : Nat) : List (List FV) × State :=
  ((List.range rows).map (fun r => (List.range cols).map (fun c => fv32 (Config.freeBits (s.fresh + r * cols + c) 32))),
   { s with fresh := s.fresh + rows * cols })

/-- The data effect of a LOSS: free loss and gradient values, the gradient multiplied by GRAD_SCALE, converted and captured, slot C first (R97, R288, R297). -/
def State.lossRun (s : State) (o : Op) : State :=
  let c := o.desc.tensor 64
  let g := o.desc.tensor 80
  let x := s.freeMat c.rows c.cols
  let l := x.2.writeMat o c false x.1
  let y := l.1.freeMat g.rows g.cols
  let sc := fv32 (BitVec.ofNat 32 (o.desc.param 4 4))
  let r := y.2.writeMat o g false (y.1.map (fun row => row.map (fun v => FV.f32 (FV.mul sc v))))
  let cap := (capture 16 16 c.cols l.2).or (capture 16 16 g.cols r.2)
  r.1.opEnd o.seq (captureAuxField cap) cap.isSome

/-- LOSS, run. -/
def lossOp (ctx : Nat) (s : State) : State :=
  s.runOp ctx (isOpc .loss) (fun _ o => o.inputs .loss) (fun o s => s.lossRun o)

end Sys2Proof.Machine
end

