-- ==== Sys2Proof/Machine/Sparsity.lean ====
section
/-! DEFINITION. COPY: plain, compress, expand, group (ch. 9, R336–R340). -/

namespace Sys2Proof.Machine

/-! ### Encoding (R329, R337) -/

/-- Maximal runs of zero and literal elements: literal or not, and length. -/
def runsOf : List Bool → List (Bool × Nat)
  | [] => []
  | b :: r =>
    match runsOf r with
    | (b', n) :: rs => if b = b' then (b, n + 1) :: rs else (b, 1) :: (b', n) :: rs
    | [] => [(b, 1)]

/-- Tokens of one run: pieces of 128 front first, the remainder last (R328, R337). -/
def runTokens (lit : Bool) (n : Nat) : List Nat :=
  let h := if lit then 128 else 0
  List.replicate (n / 128) (h + 127) ++ (if n % 128 = 0 then [] else [h + n % 128 - 1])

/-- Which elements of a row are literals: those that are not zero elements (R329). -/
def literalMarks (codes scales : List Nat) : List Bool :=
  codes.zipIdx.map (fun c => !(c.1 == 0 && (scales.isEmpty || nthD scales (c.2 / 32) 0 != 0xFF)))

/-- A compressed row, padded to 64 bytes, with its literal count (R327, R337). -/
def compressRow (elem : Nat) (codes scales : List Nat) : List Byte × Nat :=
  let marks := literalMarks codes scales
  let toks := (runsOf marks).flatMap (fun r => runTokens r.1 r.2)
  let lits := (codes.zip marks).filterMap (fun c => if c.2 then some c.1 else none)
  let head := toLe 2 toks.length ++ toLe 2 lits.length ++ toks.map (BitVec.ofNat 8)
  let head := head ++ List.replicate (roundUp head.length 4 - head.length) 0
  (pad64 (head ++ packCodes elem lits ++ scales.map (BitVec.ofNat 8)), lits.length)

/-- A compressed image of rows: header, row offset table, rows (R325, R326, R337, R338); with its BYTES. -/
def compressImage (t : Tensor) (rows : List (List Nat × List Nat)) : List Byte × Nat :=
  let enc := rows.map (fun r => compressRow t.elem r.1 r.2)
  let tab := cdiv (8 * (rows.length + 1)) 64 * 64
  let offs := enc.foldl (fun (x : List (Nat × Nat) × Nat) r => (x.1 ++ [(x.2, r.2)], x.2 + r.1.length)) ([], 64 + tab)
  let bytes := offs.2
  let table := pad64 (offs.1.flatMap (fun e => toLe 8 (e.1 % 2 ^ 48 + e.2 % 2 ^ 16 * 2 ^ 48)) ++ toLe 8 (bytes % 2 ^ 48))
  let hdr := toLe 1 0x30 ++ toLe 1 t.fmt ++ toLe 3 t.rows ++ toLe 1 0 ++ toLe 2 t.cols ++ toLe 8 bytes
    ++ toLe 6 (sumN (enc.map Prod.snd)) ++ toLe 42 0
  (hdr ++ table ++ enc.flatMap Prod.fst, bytes)

/-! ### Checks and helpers -/

/-- Admission checks of a COPY (R336, R340). -/
def copyFails (d : Desc) : List Fail :=
  let a := d.tensor 32
  let b := d.tensor 48
  let c := d.tensor 64
  let base := fun (t : Tensor) => t.fmt - (if t.compressed then 64 else 0)
  failIf (match d.fn with
    | 0 => a.fmt != b.fmt
    | 1 => a.compressed || a.elem == 0 || decide (6 < a.elem) || !b.compressed || base b != a.fmt
    | 2 => !a.compressed || b.compressed || b.fmt != base a
    | _ => base a != base b) 0x14 59
  ++ failIf (b.rows != a.rows) 0x15 56 ++ failIf (b.cols != a.cols) 0x15 60
  ++ (if d.fn = 3 ∧ d.slotRaw 2 ≠ 0 then failIf (c.rows != a.rows) 0x15 72 ++ failIf (c.cols != 2) 0x15 76 else [])

/-- Whether a raw row holds a non-finite element (R278, R296). -/
def rowNonfinite (t : Tensor) (r : List Nat × List Nat) : Bool :=
  decide (t.elem ≤ 6) && (scaleVals t.elem t.signed r.1 r.2).any FV.nonfinite

/-- Every row of slot A, or none when the tensor is not valid (R330). -/
def State.copyRows (s : State) (o : Op) : Option (List (List Nat × List Nat)) :=
  let t := o.desc.tensor 32
  if s.compOk o t then some ((List.range t.rows).map (fun r => (s.rowRaw o t r).getD ([], []))) else none

/-- A dense row's bytes from raw elements and scales. -/
def rawBytes (t : Tensor) (r : List Nat × List Nat) : List Byte := packCodes t.elem r.1 ++ r.2.map (BitVec.ofNat 8)

/-- Write rows in dense form. -/
def State.writeRaw (s : State) (o : Op) (t : Tensor) (rows : List (List Nat × List Nat)) : State :=
  s.each rows.zipIdx (fun s r => s.opWr o (t.addr + r.2 * t.pitch) (rawBytes t r.1))

/-- A COPY whose source cannot be read fails as R330 says; else its rows are used. -/
def State.copyWith (s : State) (o : Op) (f : List (List Nat × List Nat) → State → State) : State :=
  match s.copyRows o with
  | none => (s.freeOutputs o).opFail o.seq 0x15 32
  | some rows => f rows s

/-! ### The modes -/

/-- MODE 0: the bytes of the rows as they are, or the image of a compressed source (R336). -/
def State.copyPlain (s : State) (o : Op) : State :=
  let a := o.desc.tensor 32
  let b := o.desc.tensor 48
  if a.compressed then
    if !s.compHeaderOk o a then (s.freeOutputs o).opFail o.seq 0x15 32
    else
      let n := min (s.opRdN o (a.addr + 8) 8) a.span
      let bad := (List.range a.rows).any (fun r => match s.compRow o a r with | some x => rowNonfinite a x | none => false)
      (s.opWr o b.addr (s.opRd o a.addr n)).opEnd o.seq 0 bad
  else
    s.copyWith o (fun rows s =>
      (s.each (List.range a.rows) (fun s r => s.opWr o (b.addr + r * b.pitch) (s.opRd o (a.addr + r * a.pitch) a.rowBytes))).opEnd
        o.seq 0 (rows.any (rowNonfinite a)))

/-- MODE 1: the zero run-length form; AUX holds BYTES (R337, R338). -/
def State.copyCompress (s : State) (o : Op) : State :=
  s.copyWith o (fun rows s =>
    let b := o.desc.tensor 48
    let im := compressImage b rows
    (s.opWr o b.addr im.1).opEnd o.seq (min im.2 (2 ^ 32 - 1)) (rows.any (rowNonfinite b)))

/-- MODE 2: the dense form (R336). -/
def State.copyExpand (s : State) (o : Op) : State :=
  s.copyWith o (fun rows s => (s.writeRaw o (o.desc.tensor 48) rows).opEnd o.seq 0 (rows.any (rowNonfinite (o.desc.tensor 48))))

/-- Bucket of a non-zero count (R340). -/
def bucketOf (n : Nat) : Nat := if n = 0 then 0 else Nat.log2 n + 1

/-- Source rows in destination order with their buckets (R340). -/
def groupOrder (counts : List Nat) : List (Nat × Nat) :=
  (List.range 17).reverse.flatMap (fun k => (counts.map bucketOf).zipIdx.filterMap (fun x => if x.1 = k then some (x.2, k) else none))

/-- MODE 3: rows by descending bucket, a compressed row counting its LITERALS, the permutation, and the number of buckets (R339, R340). -/
def State.copyGroup (s : State) (o : Op) : State :=
  s.copyWith o (fun rows s =>
    let a := o.desc.tensor 32
    let b := o.desc.tensor 48
    let c := o.desc.tensor 64
    let counts := rows.zipIdx.map (fun r =>
      if a.compressed then s.opRdN o (a.addr + (s.compEntry o a r.2).1 + 2) 2
      else (literalMarks r.1.1 r.1.2).countP (fun m => m))
    let ord := groupOrder counts
    let out := ord.map (fun x => nthD rows x.1 ([], []))
    let s := if b.compressed then s.opWr o b.addr (compressImage b out).1 else s.writeRaw o b out
    let s := s.each ord.zipIdx (fun s x => s.opWr o (c.addr + x.2 * c.pitch) (toLe 4 x.1.1 ++ toLe 4 x.1.2))
    s.opEnd o.seq ((ord.map Prod.snd).eraseDups.length) (rows.any (rowNonfinite a)))

/-- Whether a descriptor is a COPY of a mode. -/
def isCopy (m : Nat) (d : Desc) : Bool := isOpc .copy d && d.fn == m

def copyPlainOp (ctx : Nat) (s : State) : State := s.runOp ctx (isCopy 0) (fun _ o => o.inputs .copy) (fun o s => s.copyPlain o)
def copyCompressOp (ctx : Nat) (s : State) : State := s.runOp ctx (isCopy 1) (fun _ o => o.inputs .copy) (fun o s => s.copyCompress o)
def copyExpandOp (ctx : Nat) (s : State) : State := s.runOp ctx (isCopy 2) (fun _ o => o.inputs .copy) (fun o s => s.copyExpand o)
def copyGroupOp (ctx : Nat) (s : State) : State := s.runOp ctx (isCopy 3) (fun _ o => o.inputs .copy) (fun o s => s.copyGroup o)

end Sys2Proof.Machine
end

