-- ==== Sys2Proof/Machine/Gather.lean ====
section
/-! DEFINITION. GATHER, rows served to other packages, route charts (ch. 5, R174–R193; ch. 6, R231–R238, R247, R248, R270, R757). -/

namespace Sys2Proof.Machine

/-! ### Checks of a table reference (R94, R95, R224, R247, R757) -/

/-- What of a table version must be readable before any row: sharers, shard map, default row (R757). -/
def Tbl.statics (t : Tbl) (slot : Nat × Nat × Nat) : List (Nat × Nat) :=
  [(t.sharers, 2 * max 1 (min t.sharerCount 4096)), (slot.2.2, 32 * slot.2.1), (t.deflt, t.pitch)]

/-- The first structure that the operation's context may not or cannot reach (R757). -/
def State.denied (s : State) (x : Ctx) (rs : List (Nat × Nat)) : Option Nat :=
  (rs.filterMap (fun r => s.rangeFail x r.1 r.2 true false)).head?

/-- Admission checks of a table reference in the slot at an offset; `pin` is what R247 allows: 0 any held version, 1 only the one in force, 2 no pin at all. -/
def State.tableFails (s : State) (x : Ctx) (d : Desc) (off pin : Nat) : List Fail :=
  let a := dField d off 8
  let v := dField d (off + 8) 4
  let first := dField d (off + 12) 2
  let count := dField d (off + 14) 2
  if !(s.isOwn (pkgOf a) && decide (spaceOf a ∈ [0, 1, 4])) then failIf (spaceOf a < 5) 0x15 off
  else
    match s.rangeFail x a 256 true false with
    | some st => [(st, off)]
    | none =>
      let t := s.tblAt a
      if a % 64 ≠ 0 ∨ !t.valid then [(0x15, off)]
      else
        failIf (decide (t.cols ≤ first)) 0x15 (off + 12)
        ++ failIf (t.rowT.scaled && first % 32 != 0) 0x15 (off + 12)
        ++ failIf (decide (first < t.cols) && count != 0 && decide (t.cols < first + count)) 0x15 (off + 14)
        ++ failIf (t.rowT.scaled && first % 32 == 0 && colsUsed t first count % 32 != 0) 0x15 (off + 14)
        ++ failIf (pin == 2 && v != 0) 0x15 (off + 8)
        ++ (match t.pinned v with
          | none => [(0x26, off + 8)]
          | some sl =>
            failIf (pin == 1 && sl.1 != t.slot.1) 0x15 (off + 8)
            ++ (match s.denied x (t.statics sl) with
              | some st => [(st, off)]
              | none => []))

/-! ### Chart capacity (R187, R189) -/

/-- 2 KiB units that a record of so many rows takes. -/
def chartUnits (rows : Nat) : Nat := cdiv rows 256

/-- Whether the partition's stores and the limits have room for another record (R187, R189). -/
def State.chartRoom (s : State) (p ctx rows : Nat) : Bool :=
  let used := sumN ((s.charts.filter (fun c => c.part == p)).map (fun c => chartUnits c.rows))
  decide (used + chartUnits rows ≤ 1024 * (s.regionsOf p).length + s.fld (.tblChartSpillSize p) F.tblChartSpillSize_LINES)
  && decide ((s.charts.filter (fun c => c.ctx == ctx)).length < 64) && decide (s.charts.length < 4096)

/-- Admission checks of a GATHER (R94, R95, R181, R187, R189, R224, R247). -/
def State.gatherFails (s : State) (x : Ctx) (d : Desc) : List Fail :=
  let a := d.tensor 32
  let c := d.tensor 64
  let t := s.tblAt (dField d 48 8)
  let chart := d.param 0 2
  s.tableFails x d 48 (if chart = 0 then 0 else 1)
  ++ failIf (!(a.fmt == 8 || a.fmt == 7 || a.fmt == 0x27)) 0x14 43
  ++ failIf (!(s.isOwn (pkgOf c.addr) && decide (spaceOf c.addr ≤ 1)) && decide (spaceOf c.addr < 5)) 0x15 64
  ++ failIf (decide (c.rows < a.rows)) 0x15 72
  ++ (if t.valid then failIf (c.fmt != t.fmt) 0x14 75
      ++ failIf (c.cols != colsUsed t (dField d 60 2) (dField d 62 2)) 0x15 76 else [])
  ++ (if chart = 0 then []
      else if (s.chart? x.id chart).isSome then [(0x15, 112)]
      else failIf (!s.chartRoom (s.partOf x.id) x.id a.rows) 0x24 112)

/-- The record of an admitted GATHER: it counts as failed until its GATHER has succeeded (R190, R193). -/
def State.chartAdmit (s : State) (o : Op) : State :=
  let id := o.desc.param 0 2
  if id = 0 then s
  else
    let c : Chart := {
      ctx := o.ctx, id := id, part := o.part, desc := dField o.desc 48 8, colFirst := dField o.desc 60 2
      cols := (o.desc.tensor 64).cols, rows := (o.desc.tensor 32).rows, failed := true }
    ({ s with charts := s.charts ++ [c] } : State).chartStatus

/-! ### Rows (R178–R184, R235–R237) -/

/-- Source tier of a home address, seen from this package (R175). -/
def State.tierOf (s : State) (h : Nat) : Nat :=
  if spaceOf h = 2 then 3 else if spaceOf h = 3 then 4
  else if !s.isOwn (pkgOf h) ∨ spaceOf h = 4 then 2 else if spaceOf h = 1 then 0 else 1

/-- The columns of a row that a reference uses, with their block scales, bit for bit (R180, R94). -/
def rowSlice (t : Tbl) (first count : Nat) (bs : List Byte) : List Byte :=
  let codes := ((rowCodes t.rowT.elem t.cols bs).drop first).take count
  let sc := if t.rowT.scaled then ((bs.drop t.rowT.dataBytes).drop (first / 32)).take (count / 32) else []
  packCodes t.rowT.elem codes ++ sc

/-- Bytes of a row at a place of this package or its host. -/
def State.rowBytes (s : State) (ctx a n : Nat) : List Byte := s.kRd (s.keyOf ctx a) n

/-- Bytes of a row's pitch that a read of some of its columns needs, as offset and length: their elements, their block scales, and the header (R178, R237). -/
def rowNeeds (t : Tbl) (first count : Nat) : List (Nat × Nat) :=
  let w := elemBits t.rowT.elem
  let lo := first * w / 8
  [(lo, cdiv ((first + count) * w) 8 - lo)] ++ (if t.rowT.scaled then [(t.rowT.dataBytes + first / 32, count / 32)] else []) ++ [(t.pitch - 8, 8)]

/-- The same as whole bursts, for a row at an address: runs of address and bytes, each burst once (R178). -/
def rowBursts (t : Tbl) (first count a : Nat) : List (Nat × Nat) :=
  let l := ((rowNeeds t first count).map (fun r => ((a + r.1) / 64, cdiv (a + r.1 + r.2) 64))).filter (fun r => decide (r.1 < r.2))
  l.foldl (fun acc r =>
    match acc.getLast? with
    | some b => if r.1 ≤ b.1 / 64 + b.2 / 64 then acc.dropLast ++ [(b.1, max b.2 (64 * r.2 - b.1))] else acc ++ [(64 * r.1, 64 * (r.2 - r.1))]
    | none => [(64 * r.1, 64 * (r.2 - r.1))]) []

/-- The columns used of a row at an address, with their block scales, through a read of bytes: only what the columns need is read (R178, R180). -/
def rowCols (t : Tbl) (first count a : Nat) (rd : Nat → Nat → List Byte) : List Byte :=
  let w := elemBits t.rowT.elem
  let lo := first * w / 8
  let skip := (first * w - 8 * lo) / w
  let codes := ((rowCodes t.rowT.elem (skip + count) (rd (a + lo) (cdiv ((first + count) * w) 8 - lo))).drop skip).take count
  packCodes t.rowT.elem codes ++ (if t.rowT.scaled then rd (a + t.rowT.dataBytes + first / 32) (count / 32) else [])

/-- Whether a read of some columns of a row in this package's memory meets an uncorrectable burst (R178, R401). -/
def State.rowPoisoned (s : State) (t : Tbl) (first count a : Nat) : Bool :=
  s.place a == 0 && (rowNeeds t first count).any (fun r => s.poisoned (localKey (a + r.1)) r.2)

/-- Indices of an index tensor: the value, and whether R182 leaves it valid so far. -/
def State.indices (s : State) (o : Op) (t : Tensor) : List (Nat × Bool) :=
  (s.colCodes o t).map (fun v =>
    if t.elem = 8 then (v % 2 ^ 40, v / 2 ^ 40 == 0) else (v, !(t.signed && decide (2 ^ 31 ≤ v))))

/-- Where a row of this package's tables stands before its home is read. -/
inductive RowWant where
  | invalid
  | missing
  | poisoned
  /-- held here: shard that holds the place, place, home address, map entry, shard of the row -/
  | here (shard place addr map own : Nat)
  /-- another package answers -/
  | ask (pkg own : Nat)
  /-- a structure that cannot be read (R757) -/
  | deny (st : Nat)
  deriving DecidableEq, Repr, Inhabited

/-- Where row r stands, for an operation of this package (R182, R231, R232, R270, R757). -/
def State.rowWant (s : State) (o : Op) (t : Tbl) (slot : Nat × Nat × Nat) (sharers : List Nat) (r : Nat × Bool) : RowWant :=
  if !r.2 ∨ t.rows ≤ r.1 then .invalid
  else
    match s.shardOf o slot r.1 with
    | none => .missing
    | some (sh, i) =>
      let e := s.shardE o slot.2.2 sh
      if !s.isOwn (pkgOf e.ctrl) then
        if s.reachable (pkgOf e.ctrl) then .ask (pkgOf e.ctrl) 4096 else .deny 0x22
      else if !sharers.any s.isOwn then .missing
      else
        match s.denied (s.ctx o.ctx) [(e.ctrl, 128), ((s.ctrlAt e.ctrl).mapAddr i, 8)] with
        | some st => .deny st
        | none =>
          match s.resolveIn o t slot sh i with
          | .invalid => .invalid
          | .missing => .missing
          | .poisoned _ => .poisoned
          | .here g p a m => if spaceOf a ≤ 1 ∧ !s.exists_ (spaceOf a) (offOf a) t.pitch then .deny 0x20 else .here g p a m sh
          | .guest p _ _ => if s.reachable p then .ask p sh else .deny 0x22

/-- Count a row served from a place of this package (R261, R265). -/
def State.countServed (s : State) (o : Op) (slot : Nat × Nat × Nat) (shard place : Nat) (remote : Bool) : State :=
  let e := s.shardE o slot.2.2 shard
  let s := s.load e.ctrl 0 1
  let s := s.load e.ctrl (if e.rows ≤ place then 1 else 2) 1
  s.iff remote (fun s => s.load e.ctrl 3 1)

/-- The owner of a row's shard counts its read in the shard's sketch (R261). -/
def State.countRead (s : State) (o : Op) (slot : Nat × Nat × Nat) (own r : Nat) (p : Option Nat) : State :=
  if own = 4096 then s else s.sketchRead p (s.ctrlAt (s.shardE o slot.2.2 own).ctrl).sketch r

/-! ### The run of a GATHER -/

/-- How one index came out: default row (0 invalid, 1 missing, 2 poisoned) or a row with its home address; bytes of the columns used. -/
structure RowOut where
  sub : Option Nat
  home : Nat
  data : List Byte
  deriving DecidableEq, Repr, Inhabited

/-- Key under which the answer to row `i` is kept with the operation: status byte, home address, bytes. -/
def rowKey (i : Nat) : Nat := 2 ^ 64 + i

/-- The answer to row `i`, if it has come. -/
def rowAnswer (o : Op) (i : Nat) : Option (Nat × Nat × List Byte) :=
  (o.fetched.find? (fun p => p.1 == rowKey i)).map (fun p =>
    ((p.2.headD 0).toNat, leBytes ((p.2.drop 1).take 8), p.2.drop 9))

/-- Keep the answer to row `i`. -/
def State.rowIn (s : State) (q i st home : Nat) (bs : List Byte) : State :=
  s.modOp q (fun o => { o with fetched := o.fetched ++ [(rowKey i, BitVec.ofNat 8 st :: toLe 8 home ++ bs)] })

/-- A request for row `r`, item `i` of an operation, to the package that answers it (R232). -/
def State.askRow (s : State) (o : Op) (i r pkg tiers first count key ver : Nat) : State :=
  let t := s.newTag
  let s := t.2.modOp o.seq (fun o => { o with reads := o.reads ++ [⟨t.1, pkg, true, i, 0, []⟩] })
  s.send pkg 1 0 (.rowReq o.ctx tiers s.ownId t.1 first count r key ver)

/-- The rows that a GATHER asks for before it serves any, by item: rows of other packages and rows on flash (R232, R183). -/
def gatherAsks (o : Op) (ws : List ((Nat × Bool) × RowWant)) : List (((Nat × Bool) × RowWant) × Nat) :=
  ws.zipIdx.filter (fun x => match x.1.2 with
    | .ask .. => true
    | .here _ _ a _ _ => spaceOf a == 3 && bitN (o.desc.param 2 1) 4
    | _ => false)

/-- The requests for rows of other packages and of flash (R232, R183). -/
def State.gatherAsk (s : State) (o : Op) (t : Tbl) (slot : Nat × Nat × Nat) (first : Nat) (ws : List (((Nat × Bool) × RowWant) × Nat)) : State :=
  let tiers := o.desc.param 2 1
  s.each ws (fun s x =>
    match x.1.2 with
    | .ask pkg _ => s.askRow o x.2 x.1.1.1 pkg tiers first (o.desc.tensor 64).cols (tableKey slot.2.2) slot.1
    | .here _ _ a _ _ =>
      if spaceOf a = 3 ∧ bitN tiers 4 then
        s.each (rowBursts t first (o.desc.tensor 64).cols a) (fun s b =>
          (s.modOp o.seq (fun o => { o with await := o.await + 1 })).flashRead b.1 b.2 (fun k => .row o.seq x.2 k))
      else s
    | _ => s)

/-- A row is served by this package: its shard's counters, and the sketch of its own shard where this package owns it (R261, R265). -/
def State.served (s : State) (o : Op) (slot : Nat × Nat × Nat) (shard place own r : Nat) (remote : Bool) (p : Option Nat) : State :=
  (s.countServed o slot shard place remote).countRead o slot own r p

/-- The result for one index once every answer has come; a row whose bursts are uncorrectable is marked poisoned, and only a row that is served counts as read (R176, R178, R184, R261, R401). -/
def State.gatherRow (s : State) (o : Op) (t : Tbl) (slot : Nat × Nat × Nat) (first count : Nat) (dflt : List Byte)
    (i : Nat) (r : Nat × Bool) (w : RowWant) : RowOut × State :=
  let sub := fun (k : Nat) => RowOut.mk (some k) 0 dflt
  match w with
  | .invalid => (sub 0, s)
  | .missing => (sub 1, s)
  | .poisoned => (sub 2, s)
  | .deny _ => (sub 1, s)
  | .here sh p a m own =>
    if !bitN (o.desc.param 2 1) (s.tierOf a) then (sub 1, s)
    else if spaceOf a = 3 then
      match rowAnswer o i with
      | some (2, _, _) => (sub 2, s.poisonRow o.ctx m)
      | some _ => (sub 1, s)
      | none => (⟨none, a, rowCols t first count a (s.opRd o)⟩, s.served o slot sh p own r.1 false (some o.part))
    else if s.rowPoisoned t first count a then (sub 2, s.poisonRow o.ctx m)
    else (⟨none, a, rowCols t first count a (s.rowBytes o.ctx)⟩, s.served o slot sh p own r.1 false (some o.part))
  | .ask _ own =>
    match rowAnswer o i with
    | some (0, h, bs) =>
      if bitN (o.desc.param 2 1) (s.tierOf h) then (⟨none, h, bs⟩, s.countRead o slot own r.1 (some o.part)) else (sub 1, s)
    | some (2, _, _) => (sub 2, s)
    | _ => (sub 1, s)

/-- A chart entry (R185). -/
def State.chartEntry (s : State) (r : Nat × Bool) (x : RowOut) : Nat :=
  match x.sub with
  | some k => r.1 % 2 ^ 40 + s.ownId * 2 ^ 40 + 5 * 2 ^ 52 + (if k = 2 then 2 ^ 55 else 0)
  | none => r.1 % 2 ^ 40 + pkgOf x.home * 2 ^ 40 + s.tierOf x.home * 2 ^ 52

/-- The cluster that runs a task of an operation. -/
def State.taskCluster (s : State) (o : Op) (k : Nat) : Nat :=
  match s.tasks.find? (fun t => t.op == o.seq && t.idx == k) with
  | some t => t.cluster
  | none => sgetD k (8 * (s.regionsOf o.part).headD 0) (s.part o.part).lastPlace

/-- Units of a region's chart store in use. -/
def State.storeUsed (s : State) (r : Nat) : Nat :=
  sumN (s.charts.map (fun c => (c.chunks.filter (fun k => k.store == some r)).length))

/-- The lowest line of a partition's spill area that no live record uses, nor one that a re-run would bring back (R45, R188). -/
def State.spillLine (s : State) (p : Nat) : Nat :=
  let lines := fun (l : List Chart) => (l.filter (fun c => c.part == p)).flatMap (fun c => (c.chunks.filter (fun k => k.store.isNone)).map Chunk.line)
  let n := s.fld (.tblChartSpillSize p) F.tblChartSpillSize_LINES
  let now := lines s.charts
  let all := now ++ lines (s.part p).charts0
  ((firstFree all n).orElse (fun _ => firstFree now n)).getD 0

/-- The place of one more chunk: its own region's store, the partition's others in order, the spill area (R188). -/
def State.placeChunk (s : State) (p cluster : Nat) : Chunk :=
  let rs := (cluster / 8) :: (s.regionsOf p).filter (· ≠ cluster / 8)
  match rs.find? (fun r => decide (s.storeUsed r < 1024)) with
  | some r => ⟨cluster, some r, 0⟩
  | none => ⟨cluster, none, s.spillLine p⟩

/-- Key of a line of a partition's spill area (R188). -/
def State.spillKey (s : State) (p line : Nat) : Nat :=
  localKey (s.fld (.tblChartSpillBase p) F.tblChartSpillBase_BASE * 65536) + 2048 * line

/-- The ranges of a record's spilled chunks, as addresses of this package. -/
def State.spillRanges (s : State) (c : Chart) : List (Nat × Nat) :=
  (c.chunks.filter (fun k => k.store.isNone)).map (fun k => (s.spillKey c.part k.line, 2048))

/-- The entries of a record in index order, spilled chunks read from their lines (R185, R188). -/
def State.chartEntries (s : State) (c : Chart) : List Nat :=
  if c.chunks.all (fun k => k.store.isSome) then c.entries
  else
    (blocks 256 c.entries).zipIdx.flatMap (fun b =>
      match c.chunks[b.2]? with
      | some k => if k.store.isSome then b.1 else (blocks 8 (s.kRd (s.spillKey c.part k.line) (8 * b.1.length))).map leBytes
      | none => b.1)

/-- Store one chunk of a record: in a region's store, or as bytes in a line of the spill area (R185, R186, R188; log entry 37). -/
def State.chartChunk (s : State) (put : (Chart → Chart) → State → State) (p cluster k : Nat) (es : List Nat) : State :=
  let pl := s.placeChunk p cluster
  let s := put (fun c => { c with chunks := c.chunks ++ [pl] }) s
  if pl.store.isSome then s
  else
    let s := put (fun c => { c with entries := c.entries.take (256 * k) ++ List.replicate es.length 0 ++ c.entries.drop (256 * k + es.length) }) s
    s.store (s.spillKey p pl.line) (es.flatMap (toLe 8))

/-- Fill the record of a GATHER (R185–R188, R193). -/
def State.chartFill (s : State) (o : Op) (entries : List Nat) (ok : Bool) : State :=
  let id := o.desc.param 0 2
  if id = 0 then s
  else
    let put := fun (f : Chart → Chart) (s : State) =>
      ({ s with charts := s.charts.map (fun c => if c.ctx = o.ctx ∧ c.id = id then f c else c) } : State)
    let s := put (fun c => { c with entries := entries, failed := !ok }) s
    (s.each (blocks 256 entries).zipIdx (fun s b => s.chartChunk put o.part (s.taskCluster o b.2) b.2 b.1)).chartStatus

/-- Note the substitutions of a GATHER for the tick (R268, R269). -/
def State.noteSubs (s : State) (desc part seq inv mis poi : Nat) (first : Option Nat) : State :=
  let old := (s.tbl.subs.find? (fun x => x.desc == desc && x.part == part)).getD { desc := desc, part := part }
  let f := match first, old.first with
    | some i, some (q, j) => if seq < q then some (seq, i) else some (q, j)
    | some i, none => some (seq, i)
    | none, f => f
  let x : Subs := { old with invalid := old.invalid + inv, missing := old.missing + mis, poisoned := old.poisoned + poi, first := f }
  { s with tbl := { s.tbl with subs := s.tbl.subs.filter (fun x => !(x.desc == desc && x.part == part)) ++ [x] } }

/-- The non-finite flag of rows copied by an operation (R296). -/
def rowsNonfinite (t : Tensor) (rows : List (List Byte)) : Bool :=
  rows.any (fun bs => rowNonfinite t (rowCodes t.elem t.cols bs, t.rowScales bs))

/-- What an answer to a row request says beyond the row itself: a structure or row that may not be reached, or memory that could not be read (R391, R757, R759). -/
def rowsFail (o : Op) (n : Nat) : Option Nat :=
  ((List.range n).filterMap (fun i => (rowAnswer o i).filter (fun a => a.1 == 3 || a.1 == 4))).head?.map (fun a => a.1)

/-- The data effect of a GATHER once everything it asked for has come (R180–R186, R247, R248, R268). -/
def State.gatherFinish (s : State) (o : Op) (t : Tbl) (slot : Nat × Nat × Nat) (first count : Nat) (ws : List ((Nat × Bool) × RowWant)) : State :=
  let c := o.desc.tensor 64
  let dflt := rowSlice t first count (s.opRd o t.deflt t.pitch)
  let res := ws.zipIdx.foldl (fun (x : List RowOut × State) w =>
    let y := x.2.gatherRow o t slot first count dflt w.2 w.1.1 w.1.2
    (y.1 :: x.1, y.2)) (([] : List RowOut), s)
  let outs := res.1.reverse
  let s := res.2.each outs.zipIdx (fun s x => s.opWr o (c.addr + x.2 * c.pitch) x.1.data)
  let n := fun k => (outs.filter (fun x => x.sub == some k)).length
  let bad := (ws.zip outs).find? (fun x => x.2.sub == some 0 || x.2.sub == some 1)
  let firstBad := bad.map (fun x => x.1.1.1 % 2 ^ 40)
  let s := s.noteSubs t.desc o.part o.seq (n 0) (n 1) (n 2) firstBad
  let verMiss := (List.range ws.length).any (fun i => (rowAnswer o i).any (fun a => a.1 == 5))
  let s := s.chartFill o ((ws.zip outs).map (fun x => s.chartEntry x.1.1 x.2)) (!verMiss)
  let s := s.iff (firstBad.isSome) (fun s => s.modOp o.seq (fun o => o.addFlag 4))
  let s := s.iff (n 2 != 0) (fun s => s.modOp o.seq (fun o => o.addFlag 7))
  let s := s.iff verMiss (fun s => s.modOp o.seq (fun o => { o with status := 0x26, detail := 56 }))
  s.opEnd o.seq (firstBad.getD (2 ^ 40 - 1) + min (n 0 + n 1 + n 2) (2 ^ 24 - 1) * 2 ^ 40) (rowsNonfinite c (outs.map RowOut.data))

/-- A GATHER fails at run time: no further row is served, and AUX names no index (R757, R562). -/
def State.gatherStop (s : State) (o : Op) (st detail : Nat) : State :=
  ((s.freeOutputs o).opFail o.seq st detail).modOp o.seq (fun o => { o with aux := 2 ^ 40 - 1 })

/-- The data effect of a GATHER; rows of other packages and of flash are asked for first, as many at a time as its engines may have in flight (R177–R186, R232, R397). -/
def State.gatherRun (s : State) (o : Op) : State :=
  let t := s.tblAt (dField o.desc 48 8)
  let first := dField o.desc 60 2
  let count := colsUsed t first (dField o.desc 62 2)
  match (if t.valid then t.pinned (dField o.desc 56 4) else none) with
  | none => s.gatherStop o 0x15 48
  | some slot =>
    let m := s.missing o (t.statics slot)
    if !m.isEmpty then s.issueReads o.seq m
    else
      let s := s.learnFetched o.ctx t.desc (t.statics slot) o.fetched
      let sharers := s.sharersOf o t
      let ws := (s.indices o (o.desc.tensor 32)).map (fun r => (r, s.rowWant o t slot sharers r))
      let own := (t.desc, 256) :: t.statics slot ++ ws.flatMap (fun w => s.rowStructs o slot w.1.1)
      match s.badBurst own with
      | some b => s.frameFault o.part b
      | none =>
      match (ws.filterMap (fun w => match w.2 with | .deny st => some st | _ => none)).head? with
      | some st => s.gatherStop o st 48
      | none =>
        let host := ws.filterMap (fun w => match w.2 with
          | .here _ _ a _ _ => if spaceOf a = 2 ∧ bitN (o.desc.param 2 1) (s.tierOf a) then some (a, t.pitch) else none
          | _ => none)
        if (s.denied (s.ctx o.ctx) host).isSome ∨ (!host.isEmpty ∧ !s.hostUp) then (s.taintOp o).gatherStop o 0x21 48
        else
          let asks := ((gatherAsks o ws).filter (fun x => decide (o.prog.headD 0 ≤ x.2))).take (s.readLimit o)
          if !asks.isEmpty then (s.modOp o.seq (fun o => { o with prog := [(asks.getLast?.elim 0 Prod.snd) + 1] })).gatherAsk o t slot first asks
          else
            match rowsFail o ws.length with
            | some 3 => s.gatherStop o 0x20 48
            | some _ => (s.accessLate o (dField o.desc 48 8)).modOp o.seq (fun o => { o with aux := 2 ^ 40 - 1 })
            | none => s.gatherFinish o t slot first count ws

/-- GATHER, run. -/
def gatherOp (ctx : Nat) (s : State) : State := s.runOp ctx (isOpc .gather) (fun _ o => o.inputs .gather) (fun o s => s.gatherRun o)

/-! ### Guest rows (R230, R232) -/

/-- The guest slot of this package that holds a row: shard and place, by the tags (R230, R232). -/
def State.guestOf (s : State) (o : Op) (slot : Nat × Nat × Nat) (own r : Nat) : Option (Nat × Nat) :=
  ((List.range slot.2.1).filterMap (fun g =>
    let e := s.shardE o slot.2.2 g
    if s.isOwn (pkgOf e.ctrl) then
      let c := s.ctrlAt e.ctrl
      ((List.range (c.nSram + c.nHbm)).find? (fun n =>
        let v := leBytes (s.kRd (localKey c.tags + 8 * n) 8)
        bitN v 63 && bitN v 62 && bitsN v 0 40 == r && bitsN v 40 12 == own)).map (fun n => (g, n))
    else none)).head?

end Sys2Proof.Machine
end

