-- ==== Sys2Proof/Machine/Scatter.lean ====
section
/-! DEFINITION. SCATTER, the merge unit, gradient records at their home, ledgers and carried records (ch. 5, R192–R211; R377, R378). -/

namespace Sys2Proof.Machine

/-! ### Checks (R192, R193, R208) -/

/-- Admission checks of a SCATTER. -/
def State.scatterFails (s : State) (x : Ctx) (d : Desc) : List Fail :=
  let a := d.tensor 32
  let t := s.tblAt (dField d 48 8)
  s.tableFails x d 48 2
  ++ failIf (!(a.fmt == 0 || a.fmt == 1)) 0x14 43
  ++ (if t.valid then failIf ((s.sharersOf (s.admitOp x) t).any (fun p => !s.reachable p)) 0x22 48 else [])
  ++ (match (if d.param 0 2 = 0 then none else s.chart? x.id (d.param 0 2)) with
    | none => [(0x23, 112)]
    | some c =>
      failIf (a.rows != c.rows) 0x15 40 ++ failIf (a.cols != c.cols) 0x15 44 ++ failIf (dField d 48 8 != c.desc) 0x15 48)

/-! ### The home of a row (R204–R206, R233, R234) -/

/-- A row whose current place is on this package: shard of the place, place, address, row map entry (0 where that of a guest is not known). -/
def State.placeHere (s : State) (o : Op) (t : Tbl) (r : Nat) : Option (Nat × Nat × Nat × Nat) :=
  if t.rows ≤ r then none
  else
    match s.shardOf o t.slot r with
    | none => none
    | some (sh, i) =>
      if s.isOwn (pkgOf (s.shardE o t.slot.2.2 sh).ctrl) then
        match s.placeIn o t t.slot sh i with
        | .here g p a m => some (g, p, a, m)
        | _ => none
      else
        match s.guestOf o t.slot sh r with
        | some (g, n) =>
          let e := s.shardE o t.slot.2.2 g
          some (g, e.rows + n, (s.ctrlAt e.ctrl).slotAddr t.pitch n, s.mapOf o t.slot r)
        | none => none

/-- The accumulator of a row at its home, or the late-error reason of R206. -/
def State.accOf (s : State) (ctx key row : Nat) (remote : Bool) : Nat ⊕ (Tbl × Nat × Nat) :=
  match s.ctx? ctx, s.replica ctx key with
  | some x, some t =>
    let o := s.repOp ctx t.desc
    match s.placeHere o t row with
    | none => .inl 4
    | some (g, p, _, _) =>
      let e := s.shardE o t.slot.2.2 g
      let k := (s.ctrlAt e.ctrl).gradKey t p
      let ok := segCovers x.segs (k / 2 ^ 60) (k % 2 ^ 60) t.gradPitch (fun g => if remote then g.remW else g.w)
      if ok then .inr (t, e.ctrl, k) else .inl 1
  | none, _ => .inl 1
  | _, none => .inl 4

/-! ### Ledgers (R205, R206, R208–R211) -/

/-- Change the ledger of a context's table in a frame. -/
def State.modLedger (s : State) (ctx key frame : Nat) (f : Ledger → Ledger) : State :=
  let same := fun (l : Ledger) => l.ctx == ctx && l.key == key && l.frame == frame
  let l := (s.tbl.ledgers.find? same).getD { ctx := ctx, key := key, frame := frame }
  { s with tbl := { s.tbl with ledgers := s.tbl.ledgers.filter (fun l => !same l) ++ [f l] } }

/-- The ledger of a context's table in a frame. -/
def State.ledger (s : State) (ctx key frame : Nat) : Ledger :=
  (s.tbl.ledgers.find? (fun l => l.ctx == ctx && l.key == key && l.frame == frame)).getD { ctx := ctx, key := key, frame := frame }

/-- A late error of a ledger toward one sender (R206, R211). -/
def State.ledgerErr (s : State) (ctx : Nat) (n : Nat × Nat × Nat) (reason addr : Nat) : State :=
  if s.isOwn n.1 then
    match s.ops.find? (fun o => o.ctx == ctx && opHandle o.seq == n.2.2) with
    | some o => s.lateErrorIn ctx reason o.tag addr
    | none => s.lateErrorIn ctx reason 0 addr
  else s.lateErrorOut n.1 ctx n.2.2 reason addr 0

/-- A record is discarded: every sender whose notice counted records hears of it (R205, R206). -/
def State.discardRec (s : State) (ctx key frame row reason : Nat) : State :=
  let l := s.ledger ctx key frame
  if l.bad.isSome then s
  else
    let s := s.modLedger ctx key frame (fun l => { l with bad := some (row, reason) })
    s.each (l.notices.filter (fun n => n.2.1 ≠ 0)) (fun s n => s.ledgerErr ctx n reason row)

/-- CLOSE_NOTICE: a sender's count arrives, in the guard band or not (R72, R73, R208, R209). -/
def State.closeIn (s : State) (src ctx key count handle frame : Nat) (band : Bool) : State :=
  let l := s.ledger ctx key frame
  let s := s.modLedger ctx key frame (fun l => { l with notices := l.notices ++ [(src, count, handle)], band := l.band || band })
  match l.bad with
  | some (row, reason) => if count = 0 then s else s.ledgerErr ctx (src, count, handle) reason row
  | none => s

/-- The sharing packages of a table that have given no close notice for a frame, this one included (R209, R210). -/
def State.openSenders (s : State) (o : Op) (t : Tbl) (frame : Nat) : List Nat :=
  let got := (s.tbl.ledgers.filter (fun l => l.key == t.key && l.frame == frame)).flatMap (fun l => l.notices.map Prod.fst)
  (s.sharersOf o t).filter (fun p => if s.isOwn p then !got.any s.isOwn else decide (p ∉ got))

/-- Whether a table's ledgers of the frame are closed (R209). -/
def State.ledgerClosed (s : State) (o : Op) (t : Tbl) (frame : Nat) : Bool :=
  (s.openSenders o t frame).isEmpty
  && (s.tbl.ledgers.filter (fun l => l.key == t.key && l.frame == frame)).all (fun l => sumN (l.notices.map (fun n => n.2.1)) == l.got)

/-- The ledgers of a partition's frame that every sharing package has closed and whose counts differ (R211). -/
def State.badLedgers (s : State) (p : Nat) : List Ledger :=
  s.tbl.ledgers.filter (fun l =>
    l.frame == s.frameOf p && s.partOf l.ctx == p && sumN (l.notices.map (fun n => n.2.1)) != l.got &&
    (match s.replica l.ctx l.key with
      | some t => (s.sharersOf (s.repOp l.ctx t.desc) t).all (fun p => l.notices.any (fun n => n.1 == p || (s.isOwn p && s.isOwn n.1)))
      | none => false))

/-- At the start of the commit drain, full ledgers whose counts differ interrupt the frame; when the re-run that this caused ends with a mismatch again, its senders hear of it and the frame is tainted (R206, R211). -/
def State.ledgerCheck (s : State) (p : Nat) : State :=
  let bad := s.badLedgers p
  let again := (s.part p).mismatch
  let s := s.each bad (fun s l =>
    let s := (s.satFld .tblLedgerMismatch F.tblLedgerMismatch_COUNT 1).eventW 0x0406 (689 + p) (some l.ctx) (some p) 0 l.key
    if again then s.each l.notices (fun s n => s.ledgerErr l.ctx n 5 0) else s)
  if bad.isEmpty then s
  else if again then s.modPart p (fun x => { x with taint := true })
  else (s.modPart p (fun x => { x with mismatch := true })).interrupt p 4

/-! ### Gradient records (R204, R377, R378) -/

/-- Whether an operation is an UPDATE of the table that a key names, in a partition. -/
def State.updates (s : State) (p key : Nat) (o : Op) : Bool :=
  o.part == p && isOpc .update o.desc && o.desc.flag 8 && (s.tblAt (dField o.desc 32 8)).key == key

/-- A contribution that came too late is carried into the next step or dropped, as the straggler policy says that the UPDATE of its table was admitted under, and the UPDATE says so (R210, R375, R377, R378). -/
def State.gradLate (s : State) (g : GradCarry) : State :=
  let p := s.partOf g.ctx
  let drop : Bool := match s.ops.find? (fun o => s.updates p g.key o && o.ctx == g.ctx) with
    | some o => o.drop
    | none => (s.ctx g.ctx).drop
  let s : State := { s with ops := s.ops.map (fun o => if s.updates p g.key o then o.addFlag 6 else o) }
  if drop ∨ 65536 ≤ s.gradCarry.length then s.satFld (.schStragglerCnt p) F.schStragglerCnt_DROPPED 1
  else
    let s := s.satFld (.schStragglerCnt p) F.schStragglerCnt_CARRIED 1
    { s with gradCarry := s.gradCarry ++ [g] }

/-- Add a record into its row's accumulator, and its count into the row's COUNT (R204, R234; log entry 21). -/
def State.gradAdd (s : State) (g : GradCarry) (remote : Bool) (t : Tbl) (ctrl k : Nat) : State :=
  let p := s.partOf g.ctx
  let r : AccRec := {
    part := p, remote := remote, key := k, pitch := t.gradPitch, cols := t.cols, first := g.first + 64 * g.segment
    count := g.count, stamp := (s.part p).stepFirst % 2 ^ 48, vals := g.vals, old := [] }
  let s := (s.accAdd r).load ctrl 4 1
  { s with tbl := { s.tbl with touched := insertNew (p, g.key, g.row) s.tbl.touched } }

/-- A gradient record reaches its home (R204–R206, R210): `late` marks one that R69 makes a straggler, `band` one that came in the guard band. Once an UPDATE has read the rows, a sender without a close notice is a straggler, and its record is carried or dropped. -/
def State.gradIn (s : State) (src : Nat) (remote late band : Bool) (g : GradCarry) (frame : Nat) : State :=
  let l := s.ledger g.ctx g.key frame
  let s := s.modLedger g.ctx g.key frame (fun l => { l with got := l.got + g.count, band := l.band || band })
  match s.accOf g.ctx g.key g.row remote with
  | .inl reason => s.discardRec g.ctx g.key frame g.row reason
  | .inr (t, ctrl, k) =>
    if late ∨ (l.closed ∧ !l.notices.any (fun n => n.1 == src)) then s.gradLate g else s.gradAdd g remote t ctrl k

/-- At the first tick of a partition's step, carried records are applied as the step's first (R377). -/
def State.carryTick (s : State) (p : Nat) : State :=
  let mine := s.gradCarry.filter (fun g => s.partOf g.ctx == p)
  let s := { s with gradCarry := s.gradCarry.filter (fun g => s.partOf g.ctx ≠ p) }
  s.each mine (fun s g =>
    match s.accOf g.ctx g.key g.row false with
    | .inl _ => s
    | .inr (t, ctrl, k) => s.gradAdd g true t ctrl k)

/-! ### Replay and merging (R194–R200) -/

/-- A record leaves the region for its home: BF16 only where it leaves the package (R200). -/
def State.sendGrad (s : State) (o : Op) (key colFirst row home seg count : Nat) (vals : List W32) : State :=
  if s.isOwn home then s.gradIn s.ownId false false false ⟨o.ctx, key, row, seg, colFirst, count, vals⟩ o.frame
  else
    let bf := o.desc.param 2 1 == 1
    let vals := if bf then vals.map (fun v => bits32 ((fmtOf 1).decode ((fmtOf 1).convert false false (fv32 v)))) else vals
    s.send home 0 (o.frame % 65536) (.gradRecord bf seg colFirst o.ctx count row key vals)

/-- One segment of one contribution enters the merge unit, or passes it by (R197, R199). -/
def State.mergeSeg (s : State) (o : Op) (key colFirst region cluster row home pos seg : Nat) (vals : List W32) : State :=
  let same := fun (m : Partial) => m.op == o.seq && m.region == region && m.row == row && m.home == home && m.seg == seg && m.cluster == cluster
  match s.tbl.merge.find? same with
  | some _ =>
    { s with tbl := { s.tbl with merge := s.tbl.merge.map (fun m => if same m then { m with count := m.count + 1, vals := addVals false m.vals vals } else m) } }
  | none =>
    if (s.tbl.merge.filter (fun m => m.region == region)).length < 16384 then
      let first := ((s.tbl.merge.find? (fun m => m.op == o.seq && m.region == region && m.row == row && m.home == home)).map Partial.first).getD pos
      { s with tbl := { s.tbl with merge := s.tbl.merge ++ [⟨o.seq, region, row, home, seg, cluster, first, 1, vals⟩] } }
    else (s.satFld .tblMergeBypass F.tblMergeBypass_COUNT 1).sendGrad o key colFirst row home seg 1 vals

/-- One chart entry is replayed (R195, R197). -/
def State.replayEntry (s : State) (o : Op) (key colFirst cluster pos e : Nat) (vals : List W32) : State :=
  if bitsN e 52 3 = 5 then s.satFld .tblScatterDiscard F.tblScatterDiscard_COUNT 1
  else
    s.each (blocks 64 vals).zipIdx (fun s b => s.mergeSeg o key colFirst (cluster / 8) cluster (bitsN e 0 40) (bitsN e 40 12) pos b.2 b.1)

/-- The entries of a chart in replay order, with their clusters: chunks from the last, entries from the last (R194). -/
def State.replayOrder (s : State) (c : Chart) : List (Nat × Nat) :=
  (c.chunks.zipIdx.reverse).flatMap (fun k =>
    let lo := 256 * k.2
    ((List.range (min 256 (c.rows - lo))).map (fun i => (lo + i, s.replayCluster k.1.cluster))).reverse)

/-- Rows that the regions send: distinct rows by region (R122). -/
def rowsSent (entries : List Nat) (l : List (Nat × Nat)) : Nat :=
  let es := entries.toArray
  ((l.filterMap (fun x =>
    let e := es.getD x.1 0
    if bitsN e 52 3 = 5 then none else some (x.2 / 8, e % 2 ^ 52))).eraseDups).length

/-- Contributions emitted for a home: one for each entry and segment (R208; log entry 21). -/
def sentTo (entries : List Nat) (cols home : Nat) : Nat :=
  (entries.filter (fun e => bitsN e 52 3 != 5 && bitsN e 40 12 == home)).length * cdiv cols 64

/-- The last record of a SCATTER has been emitted: close notices go to every sharer, and the record is released unless KEEP_CHART is set (R190, R206, R208). -/
def State.scatterClose (s : State) (o : Op) (c : Chart) : State :=
  let t := s.tblAt c.desc
  let es := s.chartEntries c
  let rows := rowsSent es (s.replayOrder c)
  let s := s.each ((s.sharersOf o t ++ es.filterMap (fun e => if bitsN e 52 3 = 5 then none else some (bitsN e 40 12))).eraseDups) (fun s p =>
    if s.isOwn p then s.closeIn s.ownId o.ctx t.key (sentTo es c.cols p) (opHandle o.seq) o.frame false
    else (s.bind o.seq p).send p 0 (o.frame % 65536) (.closeNotice o.ctx t.key (sentTo es c.cols p) (opHandle o.seq) o.frame))
  let s := s.iff (!o.flagBit 8) (fun s => s.freeCharts (fun x => x.ctx == o.ctx && x.id == c.id))
  s.opEnd o.seq rows false

/-- The data effect of a SCATTER: replay into the merge units (R193–R199). -/
def State.scatterRun (s : State) (o : Op) : State :=
  match s.chart? o.ctx (o.desc.param 0 2) with
  | none => s.opFail o.seq 0x23 112
  | some c =>
    let t := s.tblAt c.desc
    if c.failed then s.opFail o.seq 0x23 112
    else if !t.valid then s.opFail o.seq 0x15 48
    else if !o.prog.isEmpty then s
    else
      let es := (s.chartEntries c).toArray
      let g := ((s.matVals o (o.desc.tensor 32)).map (fun r => r.map bits32)).toArray
      let s := s.each (s.replayOrder c).zipIdx (fun s x =>
        s.replayEntry o t.key c.colFirst x.1.2 x.2 (es.getD x.1.1 (5 * 2 ^ 52)) (g.getD x.1.1 []))
      let s := (s.modOp o.seq (fun o => { o with prog := [1] })).learnFetched o.ctx t.desc (t.statics t.slot) o.fetched
      if s.tbl.merge.any (fun m => m.op == o.seq) then s else s.scatterClose o c

/-- What a SCATTER reads: its rows, the table descriptor and maps, and the chart's spilled entries (R188, R194). -/
def State.scatterReads (s : State) (o : Op) : List (Nat × Nat) :=
  let t := s.tblAt (dField o.desc 48 8)
  o.inputs .scatter ++ (t.desc, 256) :: t.statics t.slot ++ ((s.chart? o.ctx (o.desc.param 0 2)).map s.spillRanges).getD []

/-- SCATTER, run. -/
def scatterOp (ctx : Nat) (s : State) : State :=
  s.runOp ctx (isOpc .scatter) State.scatterReads (fun o s => s.scatterRun o)

/-- The merged records of a region for an operation: per row key and segment, in order of the row's first position (R198). -/
def mergedRecords (l : List Partial) : List (List Partial) :=
  let keys := (l.map (fun m => (m.first, m.row, m.home, m.seg))).eraseDups
  let keys := keys.mergeSort (fun a b => decide (a.1 < b.1) || (a.1 == b.1 && decide (a.2.2.2 ≤ b.2.2.2)))
  keys.map (fun k => (l.filter (fun m => m.row == k.2.1 && m.home == k.2.2.1 && m.seg == k.2.2.2)).mergeSort (fun a b => decide (a.cluster ≤ b.cluster)))

/-- The merged records of a region go out, and with the last region's the close notices (R198, R204). -/
def State.emitRegion (s : State) (o : Op) (c : Chart) (region : Nat) : State :=
  let mine := s.tbl.merge.filter (fun m => m.op == o.seq && m.region == region)
  let t := s.tblAt c.desc
  let s := { s with tbl := { s.tbl with merge := s.tbl.merge.filter (fun m => !(m.op == o.seq && m.region == region)) } }
  let s := s.each (mergedRecords mine) (fun s ps =>
    match ps with
    | [] => s
    | p :: rest =>
      s.sendGrad o t.key c.colFirst p.row p.home p.seg (sumN (ps.map Partial.count)) (rest.foldl (fun v q => addVals false v q.vals) p.vals))
  if s.tbl.merge.any (fun m => m.op == o.seq) then s else s.scatterClose o c

/-- Whether a region still merges records of a SCATTER (R198). -/
def State.merges (s : State) (o : Op) (region : Nat) : Bool := s.tbl.merge.any (fun m => m.op == o.seq && m.region == region)

/-- REGION_MERGE_EMIT: every chunk of the SCATTER in the region has been replayed, and its merged records go out (R198). -/
def regionMergeEmit (ctx region : Nat) (s : State) : State :=
  match s.ops.find? (fun o => o.ctx == ctx && o.stage == .started && isOpc .scatter o.desc && s.merges o region) with
  | none => s
  | some o =>
    match s.chart? ctx (o.desc.param 0 2) with
    | none => s
    | some c => s.emitRegion o c region

end Sys2Proof.Machine
end

