-- ==== Sys2Proof/Machine/Tables.lean ====
section
/-! DEFINITION. TABLE: version switch, row-by-row replacement, moves of rows, sketches, and the table work of ticks (ch. 6, R243–R271). -/

namespace Sys2Proof.Machine

/-! ### Checks (R243, R244, R247, R267, R271) -/

/-- The row index that an entry of slot C names, and whether R271 leaves it valid. -/
def State.tableIndex (s : State) (o : Op) (t : Tensor) (j : Nat) : Nat × Bool :=
  let a := t.addr + j * t.pitch
  let lo := s.opRdN o a 4
  if t.cols = 2 then
    let hi := s.opRdN o (a + 4) 4
    (lo + hi % 256 * 2 ^ 32, hi / 256 == 0)
  else (lo, true)

/-- Checks of a staged descriptor, wherever it lies, against its live replica (R92, R243, R574). -/
def State.stagedFails (s : State) (x : Ctx) (d : Desc) (t : Tbl) : List Fail :=
  let a := dField d 48 8
  if 5 ≤ spaceOf a then []
  else
  match s.rangeFail x a 256 true false with
  | some st => [(st, 48)]
  | none =>
    match s.admGet x a 256 with
    | .unread => []
    | .fails st => [(st, 48)]
    | .bytes bs =>
    let n := tblOf 0 bs
    failIf (a % 64 != 0 || !n.valid || n.fmt != t.fmt || n.cols != t.cols || n.stride != t.stride
      || t.slots.any (fun sl => decide (n.slot.1 ≤ sl.1))) 0x15 48

/-- Admission checks of a TABLE. -/
def State.tableOpFails (s : State) (x : Ctx) (d : Desc) : List Fail :=
  let a := dField d 32 8
  let fn := d.fn
  let b := d.tensor 48
  let c := d.tensor 64
  let mine := s.isOwn (pkgOf a) && decide (spaceOf a ∈ [0, 1, 4])
  let t := s.tblAt a
  let ok := mine && s.rangeFail x a 256 true false == none && a % 64 == 0 && t.valid
  failIf (dField d 40 8 != 0) 0x15 40
  ++ failIf (fn != 2 && d.param 2 2 != 0) 0x15 114
  ++ (if !mine then failIf (spaceOf a < 5) 0x15 32
      else match s.rangeFail x a 256 true false with
        | some st => [(st, 32)]
        | none =>
          if !ok then [(0x15, 32)]
          else match s.denied x (t.statics t.slot) with
            | some st => [(st, 32)]
            | none => [])
  ++ (if fn = 0 ∨ fn = 4 then failIf (d.slotRaw 2 != 0) 0x15 64
      else if d.slotRaw 2 = 0 then [(0x15, 64)]
      else failIf (c.fmt != 7) 0x14 64 ++ failIf (c.cols != 1 && c.cols != 2) 0x15 64)
  ++ (if ok then
        (if fn = 0 then s.stagedFails x d t ++ failIf (s.charts.any (fun c => s.repAddr c.desc == t.desc)) 0x18 32
         else if fn = 1 then failIf (b.fmt != t.fmt) 0x14 48 ++ failIf (b.cols != t.cols || decide (b.rows < c.rows)) 0x15 48
         else if fn = 2 then failIf (decide (t.slot.2.1 ≤ d.param 2 2)) 0x15 114
         else [])
      else [])
  ++ (if fn = 2 then failIf (d.slotRaw 1 != 0) 0x15 48
      else if fn = 3 then failIf (b.fmt != 7) 0x14 48 ++ failIf (b.cols != 1 || b.rows != c.rows) 0x15 48
      else if fn = 4 then failIf (b.fmt != 9) 0x14 48
      else [])

/-- Whether a descriptor is a TABLE of a FUNCTION. -/
def isTable (f : Nat) (d : Desc) : Bool := isOpc .table d && d.fn == f

/-- The replica of a TABLE operation. -/
def State.opTable (s : State) (o : Op) : Tbl := s.tblAt (dField o.desc 32 8)

/-- End a TABLE; with an entry skipped it completes with status 0x15 and DETAIL 64 (R257). -/
def State.tableEnd (s : State) (o : Op) (skipped : Bool) : State :=
  let s := s.iff skipped (fun s => s.modOp o.seq (fun o => { o with status := if o.status = 0 then 0x15 else o.status, detail := if o.status = 0 then 64 else o.detail }))
  s.opEnd o.seq 0 false

/-! ### FUNCTION 0 (R243–R246) -/

/-- The admission of a FUNCTION 0 holds the table and keeps the staged image for the tick (R245, R246). -/
def State.switchAdmit (s : State) (o : Op) : State :=
  if isTable 0 o.desc then
    let a := s.repAddr (dField o.desc 32 8)
    { s with tbl := { s.tbl with switches := s.tbl.switches.filter (fun x => x.desc ≠ a) ++ [⟨a, o.part, o.seq, o.held⟩] } }
  else s

/-- A FUNCTION 0 that ends with a failure switches nothing; its table stays held until the tick (R104, R245, R246). -/
def State.switchFail (s : State) (q : Nat) : State :=
  { s with tbl := { s.tbl with switches := s.tbl.switches.map (fun x => if x.op = q then { x with image := [] } else x) } }

/-- Whether a descriptor names a table whose switch waits for the tick, by whatever address of the replica (R245). -/
def State.tableHeld (s : State) (d : Desc) : Bool :=
  match opcOf d.opcode with
  | none => false
  | some c => (d.slotsAt c).any (fun x => x.2 == .table && s.isOwn (pkgOf (dField d x.1 8))
      && s.tbl.switches.any (fun y => y.desc == s.repAddr (dField d x.1 8)))

/-- VERSION_SWITCH, run: the switch itself comes at the tick (R246). -/
def versionSwitchOp (ctx : Nat) (s : State) : State := s.runOp ctx (isTable 0) (fun _ _ => []) (fun o s => s.tableEnd o false)

/-! ### Queued moves (R255–R259, R266) -/

/-- Bring TBL_MOVE_STATUS.PENDING up to date. -/
def State.moveStatus (s : State) : State := s.setFld .tblMoveStatus F.tblMoveStatus_PENDING (min s.tbl.moves.length (2 ^ 24 - 1))

/-- Take queued moves out of the queue. -/
def State.removeMoves (s : State) (f : Move → Bool) : State :=
  ({ s with tbl := { s.tbl with moves := s.tbl.moves.filter (fun m => !f m) } } : State).moveStatus

/-- Discard the queued moves that a test names, and count them (R259). -/
def State.dropMoves (s : State) (f : Move → Bool) : State :=
  (s.removeMoves f).satFld .tblMoveStatus F.tblMoveStatus_DROPPED (s.tbl.moves.filter f).length

/-- At the tick after admission the new version goes into the next slot, CURRENT advances, and queued moves of the table are discarded (R246, R259). -/
def State.switchTick (s : State) : State :=
  let l := s.tbl.switches
  let s : State := { s with tbl := { s.tbl with switches := [] } }
  s.each (l.filter (fun x => !x.image.isEmpty)) (fun s x =>
    let k := localKey x.desc
    let t := s.tblAt x.desc
    let n := tblOf 0 x.image
    let i := (t.current + 1) % 4
    let s := s.tickWrite (k + 128 + 16 * i) (toLe 4 n.slot.1 ++ toLe 2 n.slot.2.1 ++ [0, 0] ++ toLe 8 n.slot.2.2)
    let s := s.tickWrite (k + 8) (toLe 5 n.rows)
    let s := s.tickWrite (k + 16) (toLe 8 n.deflt ++ toLe 8 n.sharers ++ toLe 2 n.sharerCount)
    let s := s.tickWrite (k + 6) (toLe 1 i)
    let s : State := { s with tbl := { s.tbl with known := s.tbl.known.map (fun y => if y.desc = x.desc then { y with fetched := [] } else y) } }
    let ctxs := ((s.tbl.known.filter (fun y => y.desc == x.desc)).map Known.ctx).eraseDups
    let s := s.each ctxs (fun s c => s.learnTable c x.desc)
    s.dropMoves (fun m => m.desc == x.desc))

/-- The row that a slot's tag names: source shard, local index, guest; none for a free slot (R230). -/
def State.tagRow (s : State) (o : Op) (slot : Nat × Nat × Nat) (tag : Nat) : Option (Nat × Nat × Bool) :=
  let v := s.opRdN o tag 8
  if bitN v 63 then
    let src := bitsN v 40 12
    some (src, bitsN v 0 40 - (s.shardE o slot.2.2 src).first, bitN v 62)
  else none

/-- Who will be in a slot once the queued moves are done: source shard, local index, guest. -/
def State.slotRow (s : State) (o : Op) (slot : Nat × Nat × Nat) (desc sh n tag : Nat) : Option (Nat × Nat × Bool) :=
  let q := s.tbl.moves.reverse.filter (fun m => m.desc == desc)
  match q.find? (fun m => m.target == some (sh, n) && (q.find? (fun k => k.shard == m.shard && k.index == m.index)) == some m) with
  | some m => some (m.shard, m.index, m.shard != sh)
  | none =>
    match s.tagRow o slot tag with
    | some x => if q.any (fun m => m.shard == x.1 && m.index == x.2.1) then none else some x
    | none => none

/-- Where a row of this package will be once the moves queued for it are done: `some none` its tail, a shard and slot, or nothing for a row that is nowhere. -/
def State.willBe (s : State) (t : Tbl) (c : Ctrl) (sh i : Nat) : Option (Option (Nat × Nat)) :=
  match s.tbl.moves.reverse.find? (fun m => m.desc == t.desc && m.shard == sh && m.index == i) with
  | some m => some m.target
  | none =>
    let m := s.rdN (localKey (c.mapAddr i)) 8
    if m % 4 = 0 then some none
    else if m % 4 = 1 then some (some (sh, bitsN m 16 32))
    else if m % 4 = 2 ∧ bitsN m 2 12 < t.slot.2.1 then some (some (bitsN m 2 12, bitsN m 16 32))
    else none

/-- Queue a move of a row, after those queued for it. -/
def State.queueMove (s : State) (m : Move) : State :=
  ({ s with tbl := { s.tbl with moves := s.tbl.moves ++ [m] } } : State).moveStatus

/-- Queue a return of a row to its tail place, unless that is where it is or will be. -/
def State.queueTail (s : State) (o : Op) (t : Tbl) (sh i : Nat) : State :=
  let e := s.shardE o t.slot.2.2 sh
  let c := s.ctrlAt e.ctrl
  if s.willBe t c sh i = some none then s
  else s.queueMove { ctx := o.ctx, desc := t.desc, shard := sh, index := i, target := none,
                     place := e.tail + i * t.pitch, state := c.stateAddr i, tag := 0 }

/-- One entry of a FUNCTION 3: true when R257 skips it (R256, R257). -/
def State.hotEntry (s : State) (o : Op) (t : Tbl) (r : Nat × Bool) (slotNo : Nat) : Bool × State :=
  match (if !r.2 ∨ t.rows ≤ r.1 then none else s.shardOf o t.slot r.1) with
  | none => (true, s)
  | some (sh, i) =>
    let e := s.shardE o t.slot.2.2 sh
    if !s.isOwn (pkgOf e.ctrl) then (true, s)
    else
      let c := s.ctrlAt e.ctrl
      let kind := s.rdN (localKey (c.mapAddr i)) 8 % 4
      if 2 ≤ kind then (true, s)
      else if slotNo = 2 ^ 32 - 1 then (false, s.queueTail o t sh i)
      else if c.nSram + c.nHbm ≤ slotNo then (true, s)
      else
        let m : Move := { ctx := o.ctx, desc := t.desc, shard := sh, index := i, target := some (sh, slotNo),
                          place := c.slotAddr t.pitch slotNo, state := c.stateAddr (e.rows + slotNo), tag := c.tags + 8 * slotNo }
        match s.slotRow o t.slot t.desc sh slotNo m.tag with
        | some (_, _, true) => (true, s)
        | some (ssh, si, false) => if ssh = sh ∧ si = i then (false, s) else (false, (s.queueTail o t ssh si).queueMove m)
        | none => (false, s.queueMove m)

/-- What the run of a TABLE must be able to read before its entries take effect: pieces of its statics to fetch, then the control blocks and row map entries of the rows that it names (R757, R401). `far` lists more structures that may lie on other packages. -/
def State.tableReady (s : State) (o : Op) (t : Tbl) (rows : List Nat) (far : List (Nat × Nat)) (f : State → State) : State :=
  let st := t.statics t.slot
  let m := s.missing o st
  if !m.isEmpty then s.issueReads o.seq m
  else
    let s := s.learnFetched o.ctx t.desc st o.fetched
    let own := rows.flatMap (s.rowStructs o t.slot)
    match s.denied (s.ctx o.ctx) (own ++ far) with
    | some e => s.opFail o.seq e 32
    | none =>
      let m := s.missing o far
      if !m.isEmpty then s.issueReads o.seq m
      else
        match s.badBurst ((t.desc, 256) :: st ++ own ++ far) with
        | some b => s.frameFault o.part b
        | none => f s

/-- The row indices that the entries of slot C name. -/
def State.tableRows (s : State) (o : Op) (t : Tbl) : List (Nat × Bool) :=
  let c := o.desc.tensor 64
  ((List.range c.rows).map (s.tableIndex o c)).map (fun r => (r.1, r.2 && decide (r.1 < t.rows)))

/-- HOT_SET_REFRESH, run: moves are queued in ascending j (R255–R257). -/
def State.hotRun (s : State) (o : Op) : State :=
  let t := s.opTable o
  let b := o.desc.tensor 48
  let rs := s.tableRows o t
  s.tableReady o t ((rs.filter Prod.snd).map Prod.fst) [] (fun s =>
    let r := rs.zipIdx.foldl (fun (x : Bool × State) j =>
      let y := x.2.hotEntry o t j.1 (x.2.opRdN o (b.addr + j.2 * b.pitch) 4)
      (x.1 || y.1, y.2)) (false, s)
    r.2.tableEnd o r.1)

def hotSetRefreshOp (ctx : Nat) (s : State) : State := s.runOp ctx (isTable 3) (fun _ o => o.inputs .table) (fun o s => s.hotRun o)

/-- The lowest free HBM slot of a shard, and its tag address (R266). -/
def State.freeSlot (s : State) (o : Op) (t : Tbl) (sh : Nat) (c : Ctrl) : Option (Nat × Nat) :=
  ((List.range c.nHbm).find? (fun i => (s.slotRow o t.slot t.desc sh (c.nSram + i) (c.tags + 8 * (c.nSram + i))).isNone)).map
    (fun i => (c.nSram + i, c.tags + 8 * (c.nSram + i)))

/-- One entry of a FUNCTION 2: true when R257 skips it (R257, R266). -/
def State.migrateEntry (s : State) (o : Op) (t : Tbl) (target : Nat) (r : Nat × Bool) : Bool × State :=
  match (if !r.2 ∨ t.rows ≤ r.1 then none else s.shardOf o t.slot r.1) with
  | none => (true, s)
  | some (sh, i) =>
    let e := s.shardE o t.slot.2.2 sh
    let m := s.rdN (localKey ((s.ctrlAt e.ctrl).mapAddr i)) 8
    if !s.isOwn (pkgOf e.ctrl) ∨ m % 4 = 3 ∨ (m % 4 = 2 ∧ t.slot.2.1 ≤ bitsN m 2 12) then (true, s)
    else if target = sh then (false, s.queueTail o t sh i)
    else
      let te := s.shardE o t.slot.2.2 target
      let tc := s.ctrlOp o te.ctrl
      match s.freeSlot o t target tc with
      | none => (true, s)
      | some (n, tag) =>
        (false, s.queueMove { ctx := o.ctx, desc := t.desc, shard := sh, index := i, target := some (target, n),
                              place := tc.slotAddr t.pitch n, state := tc.stateAddr (te.rows + n), tag := tag })

/-- MIGRATE_ROWS, run: the target's control block and tags are read first where they lie on another package (R266). -/
def State.migrateRun (s : State) (o : Op) : State :=
  let t := s.opTable o
  let target := o.desc.param 2 2
  let rs := s.tableRows o t
  let rows := (rs.filter Prod.snd).map Prod.fst
  s.tableReady o t rows [] (fun s =>
    let a := (s.shardE o t.slot.2.2 target).ctrl
    s.tableReady o t rows [(a, 128)] (fun s =>
      let tc := s.ctrlOp o a
      s.tableReady o t rows [(a, 128), (tc.tags, 8 * (tc.nSram + tc.nHbm))] (fun s =>
        let r := rs.foldl (fun (x : Bool × State) j =>
          let y := x.2.migrateEntry o t target j
          (x.1 || y.1, y.2)) (false, s)
        r.2.tableEnd o r.1)))

def migrateRowsOp (ctx : Nat) (s : State) : State := s.runOp ctx (isTable 2) (fun _ o => o.inputs .table) (fun o s => s.migrateRun o)

/-! ### Copying and applying moves (R196, R239, R258) -/

/-- Where a moving row is now: its place number, the shard of the place, its address and its map entry; `none` where it is gone. -/
def State.moveSource (s : State) (t : Tbl) (m : Move) : Option (Nat × Nat × Nat × Nat) :=
  let o := s.repOp m.ctx m.desc
  match s.placeIn o t t.slot m.shard m.index with
  | .here g p a map => some (g, p, a, map)
  | .guest _ g n =>
    let e := s.shardE o t.slot.2.2 g
    some (g, e.rows + n, 0, (s.ctrlAt (s.shardE o t.slot.2.2 m.shard).ctrl).mapAddr m.index)
  | _ => none

/-- Change the first queued move that equals another. -/
def State.setMove (s : State) (m m' : Move) : State :=
  { s with tbl := { s.tbl with moves := s.tbl.moves.map (fun k => if k = m then m' else k) } }

/-- Write a copied row at its new place, header last (R239), and its state. -/
def State.moveWrite (s : State) (t : Tbl) (m : Move) (row st : List Byte) (ver map : Nat) : State :=
  let gap := List.replicate (t.pitch - 8 - row.length) (0 : Byte)
  let s :=
    if s.place m.place = 3 then
      let h := m.place + t.pitch - 8
      let s := s.postBytes none m.ctx false h (toLe 8 (rowHeader ver true s.ownId))
      let s := s.postBytes none m.ctx false m.place (row ++ gap)
      s.postBytes none m.ctx false h (toLe 8 (rowHeader (ver + 1) false s.ownId))
    else (s.iff (s.place m.place == 0) (fun s => s.tickLog (localKey m.place) t.pitch)).rowPut m.ctx m.place t.pitch s.ownId ver [] row (.write none (some (m.ctx, map)))
  if st.isEmpty then s
  else if s.place m.state = 3 then s.postBytes none m.ctx false m.state st else s.tickWrite (localKey m.state) st

/-- Ask for a piece of a source that lies on another package or on flash (R258). -/
def State.moveRead (s : State) (m : Move) (a n : Nat) : State :=
  if s.place a = 2 then (s.setMove m { m with source := a }).flashRead a n (fun b => .move m.ctx m.desc m.shard m.index b)
  else
    let t := s.newTag
    let s := t.2.setMove m { m with
      reads := m.reads ++ [⟨t.1, pkgOf a, false, a, n, []⟩], checked := if s.frm.phase = .slack then some s.frame else none }
    s.send (pkgOf a) 1 0 (.readReq m.ctx t.1 n a)

/-- Whether a burst of a moving row cannot be read: the row is marked poisoned, and stays where it is (R401). -/
def State.moveBad (s : State) (t : Tbl) (c : Ctrl) (p a : Nat) : Bool :=
  (s.place a == 0 && s.poisoned (localKey a) t.pitch) || s.poisoned (localKey (c.stateAddr p)) c.statePitch

/-- A row that lies here is copied with its state to its new place, once a row of flash has been read (R258). -/
def State.moveHere (s : State) (t : Tbl) (m : Move) (c : Ctrl) (p a map : Nat) : State :=
  if s.moveBad t c p a then (s.poisonRow m.ctx map).removeMoves (fun k => k == m)
  else if spaceOf a = 3 ∧ (fetchedAt m.data a t.pitch).isNone then s.moveRead m a t.pitch
  else
    let bs := if spaceOf a = 3 then (fetchedAt m.data a t.pitch).getD [] else s.rowBytes m.ctx a t.pitch
    let ver := leBytes ((bs.drop (t.pitch - 8)).take 4)
    let s := s.setMove m { m with copied := some ver, source := a, data := [] }
    s.moveWrite t m (bs.take t.rowT.rowBytes) (s.kRd (localKey (c.stateAddr p)) c.statePitch) ver map

/-- A row in a guest slot of another package is copied once its control block, the row and its state have been read (R258, R266). -/
def State.moveThere (s : State) (t : Tbl) (m : Move) (ctrl rows p map : Nat) : State :=
  if !m.reads.isEmpty then s
  else
    match fetchedAt m.data ctrl 128 with
    | none => s.moveRead m ctrl 128
    | some cb =>
      let rc := ctrlOf ctrl cb
      let ra := rc.slotAddr t.pitch (p - rows)
      match fetchedAt m.data ra t.pitch, fetchedAt m.data (rc.stateAddr p) rc.statePitch with
      | none, _ => s.moveRead m ra t.pitch
      | _, none => s.moveRead m (rc.stateAddr p) rc.statePitch
      | some bs, some st =>
        let ver := leBytes ((bs.drop (t.pitch - 8)).take 4)
        (s.setMove m { m with copied := some ver, source := ra, data := [(ctrl, cb)] }).moveWrite t m (bs.take t.rowT.rowBytes) st ver map

/-- Whether a move's target is free of any other row: a tail place always, a slot once its tag is free (R256); a slot of another package was free when the move was queued. -/
def State.targetFree (s : State) (m : Move) : Bool :=
  m.tag == 0 || s.place m.tag != 0 || !bitN (leBytes (s.kRd (localKey m.tag) 8)) 63

/-- Whether a row's copy is to be made now: it is the first move queued for the row, its target is free, and it has no copy, or a copy from another package that the slack phase has not confirmed yet (R256, R258; log entry 78). -/
def State.moveDue (s : State) (m : Move) : Bool :=
  (s.tbl.moves.find? (fun k => k.desc == m.desc && k.shard == m.shard && k.index == m.index)) == some m
  && s.targetFree m
  && (m.copied.isNone || (m.source != 0 && s.place m.source == 3 && s.frm.phase == .slack && m.checked != some s.frame))

/-- ROW_MOVE_COPY: the owner copies the first queued row whose copy is due, with its state; a source elsewhere is read first (R256, R258, R266). -/
def rowMoveCopy (s : State) : State :=
  match s.tbl.moves.find? s.moveDue with
  | none => s
  | some m =>
    let t := s.tblAt m.desc
    match s.moveSource t m with
    | none => s.removeMoves (fun k => k == m)
    | some (g, p, a, map) =>
      let e := s.shardE (s.repOp m.ctx m.desc) t.slot.2.2 g
      if s.isOwn (pkgOf e.ctrl) then s.moveHere t m (s.ctrlAt e.ctrl) p a map
      else if m.copied.isSome then
        let n := { m with copied := none, data := m.data.filter (fun d => d.1 == e.ctrl) }
        (s.setMove m n).moveThere t n e.ctrl e.rows p map
      else s.moveThere t m e.ctrl e.rows p map

/-- Whether a live record of this package names a row of a table, served or not (R196; log entry 79). -/
def State.chartNames (s : State) (desc row : Nat) : Bool :=
  s.charts.any (fun c => s.repAddr c.desc == desc && (s.chartEntries c).any (fun e => bitsN e 0 40 == row))

/-- Write a tag, here or on the target's package. -/
def State.putTag (s : State) (ctx a v : Nat) : State :=
  if s.place a = 3 then s.postBytes none ctx false a (toLe 8 v) else s.tickWrite (localKey a) (toLe 8 v)

/-- Whether a copied move's source may have been written since the copy: its row has another ROW_VER, or it lies on another package and the slack phase that ends has not confirmed it (R258; log entry 78). -/
def State.moveStale (s : State) (t : Tbl) (m : Move) (here : Bool) (a : Nat) (ended : Option Nat) : Bool :=
  if here then decide (spaceOf a ≤ 2) && some (s.rowVer m.ctx a t.pitch) != m.copied else m.checked.isNone || m.checked != ended

/-- Apply one copied move: the map entry, and the tags of the old and new slots (R256, R258, R266). -/
def State.moveApply (s : State) (ended : Option Nat) (m : Move) : State :=
  let t := s.tblAt m.desc
  let o := s.repOp m.ctx m.desc
  let row := (s.shardE o t.slot.2.2 m.shard).first + m.index
  match s.moveSource t m with
  | none => s.removeMoves (fun k => k == m)
  | some (g, p, a, map) =>
    let e := s.shardE o t.slot.2.2 g
    let here := s.isOwn (pkgOf e.ctrl)
    if s.chartNames m.desc row then s
    else if s.moveStale t m here a ended then
      if here then s.setMove m { m with copied := none, data := [] } else s
    else
      let poison := if bitN (leBytes (s.kRd (localKey map) 8)) 63 then 2 ^ 63 else 0
      let s := s.tickWrite (localKey map) (toLe 8 (match m.target with
        | none => poison
        | some (ts, n) => (if ts = m.shard then 1 else 2 + ts * 4) + n * 2 ^ 16 + poison))
      let s := if e.rows ≤ p then
          let tagA := if here then (s.ctrlAt e.ctrl).tags + 8 * (p - e.rows) else (fetchedAt m.data e.ctrl 128).elim 0 (fun cb => (ctrlOf e.ctrl cb).tags + 8 * (p - e.rows))
          if tagA = 0 then s else s.putTag m.ctx tagA 0
        else s
      let s := match m.target with
        | none => s
        | some (ts, _) => s.putTag m.ctx m.tag (row + m.shard * 2 ^ 40 + (if ts = m.shard then 0 else 2 ^ 62) + 2 ^ 63)
      s.removeMoves (fun k => k == m)

/-- At a tick, copied moves whose row no live record names are applied, in the order in which they were queued (R258). -/
def State.moveTick (s : State) (ended : Option Nat) : State :=
  s.each (s.tbl.moves.filter (fun m => m.copied.isSome)) (fun s m => s.moveApply ended m)

/-! ### FUNCTION 1 (R250–R253, R366) -/

/-- Where an entry of FUNCTION 1 writes: nothing, a place here, or another package that holds the row or its map. -/
inductive RepTo where
  | skip
  | here (addr map : Nat)
  | send (pkg : Nat)
  | deny (st : Nat)
  /-- an offset that its space does not have: the posted write fails (R391) -/
  | nowhere (addr map : Nat)
  /-- host memory that does not answer (R562) -/
  | silent
  deriving DecidableEq, Repr, Inhabited

/-- A row's place at an offset that its space does not have (R391). -/
def State.rowNowhere (s : State) (a pitch : Nat) : Bool := decide (spaceOf a ≤ 1) && !s.exists_ (spaceOf a) (offOf a) pitch

/-- A row's place in host memory that does not answer a write now (R562). -/
def State.rowSilent (s : State) (o : Op) (a pitch : Nat) : Bool :=
  spaceOf a == 2 && !(s.hostUp && (s.translateAll (s.fnOf o.ctx) (s.pasidOf o.ctx) true (pagesOf a pitch)).1)

/-- The home of a named row for a replacement (R250, R257, R757). -/
def State.repTo (s : State) (o : Op) (t : Tbl) (r : Nat × Bool) : RepTo :=
  match (if !r.2 then none else s.shardOf o t.slot r.1) with
  | none => .skip
  | some (sh, i) =>
    let e := s.shardE o t.slot.2.2 sh
    if !s.isOwn (pkgOf e.ctrl) then (if s.reachable (pkgOf e.ctrl) then .send (pkgOf e.ctrl) else .deny 0x22)
    else
      match s.denied (s.ctx o.ctx) [(e.ctrl, 128), ((s.ctrlAt e.ctrl).mapAddr i, 8)] with
      | some st => .deny st
      | none =>
        match s.placeIn o t t.slot sh i with
        | .here _ _ a m => if s.rowNowhere a t.pitch then .nowhere a m else if s.rowSilent o a t.pitch then .silent else .here a m
        | .guest p _ _ => if s.reachable p then .send p else .deny 0x22
        | _ => .skip

/-- A row is written at its place here and its poison mark cleared; the old contents go to the undo log (R239, R251, R252). A row in flash has been read for the operation, and an earlier entry's write of it shows in what was read (R236, R238). -/
def State.replaceHere (s : State) (o : Op) (t : Tbl) (a map : Nat) (bs : List Byte) : State :=
  let old := s.opRd ((s.op? o.seq).getD o) a t.pitch
  let ver := leBytes ((old.drop (t.pitch - 8)).take 4)
  let s := s.modPart o.part (fun p => { p with undo := ⟨a, old, o.ctx, s.frame, .row t.pitch⟩ :: p.undo })
  let s := s.rowPut o.ctx a t.pitch s.ownId ver old bs (.write (some o.seq) (some (o.ctx, map)))
  s.unpoisonRow o.ctx map

/-- One entry of FUNCTION 1 that is not denied: true when it is skipped. -/
def State.replaceEntry (s : State) (o : Op) (t : Tbl) (j : Nat) (r : Nat × Bool) (dest : RepTo) : Bool × State :=
  let b := o.desc.tensor 48
  let bs := s.opRd o (b.addr + j * b.pitch) b.rowBytes
  match dest with
  | .here a m => (false, s.replaceHere o t a m bs)
  | .nowhere a m => (false, (s.lateErrorOp o.seq 1 a).poisonRow o.ctx m)
  | .send pkg =>
    let g := s.newTag
    let s := g.2.modOp o.seq (fun o => { o with reads := o.reads ++ [⟨g.1, pkg, true, r.1, 0, []⟩] })
    (false, s.post (some o.seq) o.ctx pkg (.rowWrite o.ctx (opHandle o.seq) 0 s.ownId g.1 t.key r.1 false bs))
  | _ => (true, s)

/-- Whether a row that FUNCTION 1 writes, of the table's format, holds a non-finite element (R296). -/
def State.replaceNonfinite (s : State) (o : Op) (go : List (Nat × (Nat × Bool) × RepTo)) : Bool :=
  let b := o.desc.tensor 48
  rowsNonfinite b ((go.filter (fun y => y.2.2 != .skip)).map (fun y => s.opRd o (b.addr + y.1 * b.pitch) b.rowBytes))

/-- ROW_BY_ROW_REPLACE, run: entries in ascending j; rows of other packages answer with their old contents before the operation ends; a place that does not exist is a failed posted write, and silent host memory ends the operation (R250–R252, R257, R296, R366, R391, R562). -/
def State.replaceRun (s : State) (o : Op) : State :=
  let t := s.opTable o
  let rs := s.tableRows o t
  if !o.prog.isEmpty then s.tableEnd o (o.prog.headD 0 == 2)
  else
    s.tableReady o t [] [] (fun s =>
      let l := rs.zipIdx.map (fun x => (x.2, x.1, s.repTo o t x.1))
      let go := l.takeWhile (fun x => match x.2.2 with | .deny _ => false | .silent => false | _ => true)
      let flash := s.missing o (l.filterMap (fun x => match x.2.2 with | .here a _ => if spaceOf a = 3 then some (a, t.pitch) else none | _ => none))
      match s.badBurst (go.flatMap (fun x => s.rowStructs o t.slot x.2.1.1)) with
      | some b => s.frameFault o.part b
      | none =>
        if !flash.isEmpty then s.issueReads o.seq flash
        else
          let r := go.foldl (fun (x : Bool × State) y =>
            let z := x.2.replaceEntry o t y.1 y.2.1 y.2.2
            (x.1 || z.1, z.2)) (false, s)
          let s' := r.2.modOp o.seq (fun q => if s.replaceNonfinite o go then q.addFlag 3 else q)
          match (l.drop go.length).head? with
          | some (_, _, .deny st) => s'.opFail o.seq st 32
          | some (_, _, .silent) => s'.hostFails o 32
          | _ =>
            let s := s'.modOp o.seq (fun o => { o with prog := [if r.1 then 2 else 1] })
            match s.op? o.seq with
            | some o => if o.reads.isEmpty then s.tableEnd o r.1 else s
            | none => s)

def rowReplaceOp (ctx : Nat) (s : State) : State := s.runOp ctx (isTable 1) (fun _ o => o.inputs .table) (fun o s => s.replaceRun o)

/-! ### FUNCTION 4 and the sketches (R260, R262, R264) -/

/-- Bases and sizes of the sketches of the shards of a replica that this package owns, in shard order (R264). -/
def State.ownSketches (s : State) (ctx : Nat) (t : Tbl) : List (Nat × Nat) :=
  (List.range t.slot.2.1).filterMap (fun i =>
    let e := s.shardE (s.repOp ctx t.desc) t.slot.2.2 i
    if s.isOwn (pkgOf e.ctrl) then
      let b := (s.ctrlAt e.ctrl).sketch
      let lg := ((s.kRd (localKey b) 1).headD 0).toNat
      if b = 0 ∨ lg < 10 ∨ 20 < lg then none else some (b, 64 + 8 * 2 ^ lg)
    else none)

/-- The control blocks of the shards of a replica that this package owns. -/
def State.ownCtrls (s : State) (o : Op) (t : Tbl) : List (Nat × Nat) :=
  (List.range t.slot.2.1).filterMap (fun i =>
    let a := (s.shardE o t.slot.2.2 i).ctrl
    if s.isOwn (pkgOf a) then some (a, 128) else none)

/-- Bytes of every sketch that a FUNCTION 4 copies, in shard order (R264). -/
def State.sketchImage (s : State) (o : Op) : List Byte :=
  (s.ownSketches o.ctx (s.opTable o)).flatMap (fun x => s.kRd (localKey x.1) x.2)

/-- The slack phase starts: what every FUNCTION 4 of the frame will copy is kept as it is now (R264). -/
def State.sketchSnap (s : State) : State :=
  let l := s.ops.filter (fun o => isTable 4 o.desc && (o.stage == .admitted || o.stage == .started))
  { s with tbl := { s.tbl with snaps := l.map (fun o => (o.seq, s.sketchImage o)) } }

/-- SKETCH_READ, run: in the slack phase, the sketches as that phase found them go to slot B whole, and their marks and READS are cleared (R264). -/
def State.sketchRun (s : State) (o : Op) : State :=
  let t := s.opTable o
  let b := o.desc.tensor 48
  s.tableReady o t [] (s.ownCtrls o t) (fun s =>
    if s.frm.phase ≠ .slack then s
    else
      let l := s.ownSketches o.ctx t
      let bs := sgetD o.seq (s.sketchImage o) s.tbl.snaps
      if b.rows * b.cols < bs.length then s.opFail o.seq 0x15 48
      else
        let s := s.each (blocks b.cols bs).zipIdx (fun s r => s.opWr o (b.addr + r.2 * b.pitch) r.1)
        let s := s.each l (fun s x => (s.write (localKey x.1 + 1) [0]).write (localKey x.1 + 16) (toLe 6 0))
        s.tableEnd o false)

def sketchReadOp (ctx : Nat) (s : State) : State := s.runOp ctx (isTable 4) (fun _ _ => []) (fun o s => s.sketchRun o)

/-- Halve every counter of a sketch a number of times, rounding down (R262, R450). -/
def State.halve (s : State) (b n times : Nat) : State :=
  let k := localKey b + 64
  let c := blocks 2 (s.kRd k (n - 64))
  (s.write k (c.flatMap (fun x => toLe 2 (leBytes x / 2 ^ times)))).write (localKey b + 8) (toLe 8 s.frame)

/-- SKETCH_DECAY: every DECAY_FRAMES frames, every sketch on the package; owed halvings combine into one shift, by 16 at most (R262, R450). -/
def sketchDecay (s : State) : State :=
  let n := s.fld .tblSketchCtrl F.tblSketchCtrl_DECAY_FRAMES
  let times := min (s.tbl.decayAt / n) 16
  if n = 0 ∨ s.tbl.decayAt < n then s
  else
    let s := { s with tbl := { s.tbl with decayAt := s.tbl.decayAt % n } }
    let l := (s.tbl.known.flatMap (fun k => s.ownSketches k.ctx (s.tblAt k.desc))).eraseDups
    s.each l (fun s x => s.halve x.1 x.2 times)

/-! ### Ticks (R265, R268, R269) -/

/-- Substitution counts and the first bad index reach the replicas; `frame` is the frame that ends, or none at a set-up tick (R268, R269). -/
def State.subsTick (s : State) (frame : Option Nat) : State :=
  let l := s.tbl.subs
  let s := { s with tbl := { s.tbl with subs := [] } }
  let firstOf := fun (d : Nat) => (l.filter (fun x => x.desc == d)).foldl (fun (b : Option (Nat × Nat)) x =>
    match b, x.first with
    | some (q, i), some (r, j) => if r < q then some (r, j) else some (q, i)
    | none, f => f
    | b, none => b) none
  let s := s.each l (fun s x =>
    let k := localKey x.desc
    let add := fun (s : State) (off n : Nat) => if n = 0 then s else s.write (k + off) (toLe 4 (satAdd 32 (leBytes (s.kRd (k + off) 4)) n))
    add (add (add s 48 x.invalid) 52 x.missing) 56 x.poisoned)
  s.each ((l.map Subs.desc).eraseDups) (fun s d =>
    match frame, firstOf d with
    | some n, some (_, i) =>
      if leBytes (s.kRd (localKey d + 72) 8) = 0 then
        (s.write (localKey d + 64) (toLe 8 i)).write (localKey d + 72) (toLe 8 n)
      else s
    | _, _ => s)

/-- The table work of a tick: substitutions, loads, moves, then version switches; `ended` is the frame that ends (R246, R258, R262, R265, R268). -/
def State.tableTick (s : State) (ended : Option Nat) : State :=
  let s := (((s.subsTick ended).loadTick).moveTick ended).switchTick
  let counts := ended.isSome && s.fld .tblSketchCtrl F.tblSketchCtrl_DECAY_FRAMES != 0
  { s with tbl := { s.tbl with
    accs := s.tbl.accs.filter (fun r => decide (0 < (s.part r.part).stretch)), decayAt := s.tbl.decayAt + (if counts then 1 else 0), snaps := [],
    ledgers := s.tbl.ledgers.filter (fun l => decide (ended.elim 0 id < l.frame) || decide (0 < (s.part (s.partOf l.ctx)).stretch)),
    merge := s.tbl.merge.filter (fun m => (s.op? m.op).isSome) } }

end Sys2Proof.Machine
end

