-- ==== Sys2Proof/Machine/Served.lean ====
section
/-! DEFINITION. Rows served to other packages and written for them: requests, forwarding, answers, flash rows, and requests that wait for structures of their table that lie elsewhere (ch. 5, R178, R184, R216–R218; ch. 6, R232, R236–R240, R248–R252, R261, R265, R270, R757; R389, R391, R575, R577). -/

namespace Sys2Proof.Machine

/-! ### Answers -/

/-- A replaced row of another package answers: old contents into the undo log, a skip, or a failure, which the LATE_ERROR of the package asked tells; where that package passed the row on, the answer is all that tells it (R206, R217, R252, R257, R366; log entry 80). -/
def State.replaceAnswer (s : State) (o : Op) (x : Outst) (st home : Nat) (bs : List Byte) : State :=
  let s := s.modOp o.seq (fun o => { o with reads := o.reads.filter (fun r => r.tag ≠ x.tag) })
  if st = 0 then
    s.modPart o.part (fun p => { p with undo := ⟨home, bs, o.ctx, s.frame, .remote x.pkg (s.opTable o).key x.item⟩ :: p.undo })
  else if st = 1 then s.modOp o.seq (fun o => { o with prog := [2] })
  else if pkgOf home = x.pkg then s
  else s.lateErrorOp o.seq (if st = 3 then 1 else 2) home

/-- An answer for an operation is whole (R391, R759). -/
def State.opAnswer (s : State) (o : Op) (r : Outst) (st home : Nat) (bs : List Byte) : State :=
  if r.row ∧ isTable 1 o.desc then s.replaceAnswer o r st home bs
  else
    let s := s.modOp o.seq (fun o => { o with reads := o.reads.filter (fun x => x.tag ≠ r.tag) })
    if r.row then s.rowIn o.seq r.item st home bs
    else if st = 3 then s.accessDenied o r.item
    else if st = 4 then s.accessLate o r.item
    else s.pieceIn o.seq r.item bs

/-- An answer that this package gives to itself: a guest slot here holds the row that another package owns (R232, R250). -/
def State.answerHere (s : State) (tag st home : Nat) (bs : List Byte) : State :=
  match s.ops.find? (fun o => o.reads.any (fun r => r.tag == tag)) with
  | none => s
  | some o =>
    match o.reads.find? (fun r => r.tag == tag) with
    | some r => s.opAnswer o r st home bs
    | none => s

/-- The parts of an answer: at most 256 bytes each, the last one marked (R499). -/
def State.respond (s : State) (dst tag st home : Nat) (bs : List Byte) : State :=
  if s.isOwn dst then s.answerHere tag st home bs
  else
    let l := if bs.isEmpty then [(0, ([] : List Byte))] else chunks 256 bs
    s.each l (fun s c => s.send dst 2 0 (.readResp st (c.1 / 256 % 16) tag home (decide (bs.length ≤ c.1 + 256)) c.2))

/-! ### What a message about a table needs from elsewhere (R270, R757) -/

/-- The replica and version slot that a context's table key and version NUMBER name on this package (R248, R502). -/
def State.heldVersion (s : State) (ctx key ver : Nat) : Option (Tbl × (Nat × Nat × Nat)) :=
  (s.tbl.known.filterMap (fun k =>
    if k.ctx = ctx then
      let t := s.tblAt k.desc
      if t.valid then (t.slots.find? (fun sl => sl.1 != 0 && sl.1 == ver && tableKey sl.2.2 == key)).map (fun sl => (t, sl)) else none
    else none)).head?

/-- The structures of a replica that a message about a row reads: SHARERS, the shard map, the default row, and for a guest row here the control block of its owner, which says where its map entry is. -/
def State.msgStructs (s : State) (o : Op) (t : Tbl) (slot : Nat × Nat × Nat) (r : Nat) : List (Nat × Nat) :=
  let l := t.statics slot
  if !(s.missing o l).isEmpty then l
  else
    match s.shardOf o slot r with
    | some (sh, _) =>
      let a := (s.shardE o slot.2.2 sh).ctrl
      if !s.isOwn (pkgOf a) ∧ (s.guestOf o slot sh r).isSome then l ++ [(a, 128)] else l
    | none => l

/-- How a message about a row stands: a status it fails with at once, pieces that it must wait for, or ready. -/
inductive MsgReady where
  | fails (st : Nat)
  | waits (l : List (Nat × Nat))
  | ready
  deriving DecidableEq, Repr

/-- Whether what a message about a row reads is at hand: 3 where a structure may not or cannot be reached, 4 where one cannot be read (R391, R401, R757). -/
def State.msgReady (s : State) (w : WaitFor) (x : Ctx) (o : Op) (t : Tbl) (slot : Nat × Nat × Nat) (r : Nat) : MsgReady :=
  let l := s.msgStructs o t slot r
  let own := s.rowStructs o slot r
  let bad := ((s.wait? w).map Wait.bad).getD 0
  if bad ≠ 0 then .fails bad
  else if (s.denied x (l ++ own)).isSome then .fails 3
  else if !(s.missing o l).isEmpty then .waits (s.missing o l)
  else if (s.badBurst ((t.desc, 256) :: l ++ own)).isSome then .fails 4
  else .ready

/-- A message waits, unless it already does. -/
def State.waitMsg (s : State) (w : WaitFor) (ctx : Nat) (l : List (Nat × Nat)) : State :=
  match s.wait? w with
  | some x => if x.ended then s.waitFor w ctx l else s
  | none => s.waitFor w ctx l

/-- A message that has been handled waits no more. -/
def State.waitEnd (s : State) (w : WaitFor) : State :=
  { s with net := { s.net with waits := s.net.waits.filter (fun x => x.what ≠ w) } }

/-! ### Requests (R178, R232, R248, R261, R270) -/

/-- Serve a row that lies here, at a place of a shard, to a package; `own` is the row's shard where this package counts its reads (R176, R178, R184, R232, R237, R261, R401). -/
def State.serveRow (s : State) (x : RowServe) (t : Tbl) (tiers : Nat) (dflt : List Byte) : State :=
  let o := s.repOp x.ctx t.desc
  let a := x.addr
  let tier := if s.isOwn x.pkg then s.tierOf a else if spaceOf a = 2 then 3 else if spaceOf a = 3 then 4 else 2
  if spaceOf a ≤ 1 ∧ !s.remoteOk x.ctx a t.pitch false then s.respond x.pkg x.tag 3 a []
  else if !bitN tiers tier then s.respond x.pkg x.tag 1 a dflt
  else if spaceOf a = 3 then
    match rowBursts t x.first x.count a with
    | [] => s.respond x.pkg x.tag 0 a []
    | b :: rest => s.flashRead b.1 b.2 (fun k => .serveRow { x with rest := rest } k)
  else if spaceOf a = 2 ∧ s.rowSilent o a t.pitch then s.respond x.pkg x.tag 4 a []
  else if s.rowPoisoned t x.first x.count a then (s.poisonRow x.ctx x.map).respond x.pkg x.tag 2 a dflt
  else
    (s.served o x.slot x.shard x.place x.own x.row true (some (s.partOf x.ctx))).respond x.pkg x.tag 0 a (rowCols t x.first x.count a (s.rowBytes x.ctx))

/-- A row request whose structures are at hand: the owner resolves the row and serves it or passes the request on, and a package asked by the owner serves its guest slot (R231, R232, R261, R270). -/
def State.rowReqNow (s : State) (o : Op) (t : Tbl) (slot : Nat × Nat × Nat) (ctx tiers requester tag first count row key ver : Nat) : State :=
  let dflt := rowSlice t first count (s.opRd o t.deflt t.pitch)
  let x : RowServe := {
    pkg := requester, tag := tag, ctx := ctx, desc := t.desc, first := first, count := count, addr := 0, map := 0, shard := 0, place := 0,
    own := 4096, row := row, slot := slot, rest := [] }
  if requester ∉ s.sharersOf o t ∨ t.rows ≤ row then s.respond requester tag 1 0 dflt
  else
    match s.shardOf o slot row with
    | none => s.respond requester tag 1 0 dflt
    | some (sh, i) =>
      if !s.isOwn (pkgOf (s.shardE o slot.2.2 sh).ctrl) then
        match s.guestOf o slot sh row with
        | some (g, n) =>
          let e := s.shardE o slot.2.2 g
          s.serveRow { x with addr := (s.ctrlAt e.ctrl).slotAddr t.pitch n, map := s.mapOf o slot row, shard := g, place := e.rows + n } t tiers dflt
        | none => s.respond requester tag 1 0 dflt
      else
        match s.resolveIn o t slot sh i with
        | .poisoned _ => s.respond requester tag 2 0 dflt
        | .here g p a m => s.serveRow { x with addr := a, map := m, shard := g, place := p, own := sh } t tiers dflt
        | .guest pkg _ _ =>
          (s.countRead o slot sh row (some (s.partOf ctx))).send pkg 1 0 (.rowReq ctx tiers requester tag first count row key ver)
        | _ => s.respond requester tag 1 0 dflt

/-- ROW_REQ: a version that is not held is answered so, structures that lie elsewhere are fetched first, and then the row is served, passed on or answered with the default row (R232, R248, R270, R757). -/
def State.rowReqIn (s : State) (src ctx tiers requester tag first count row key ver : Nat) : State :=
  match s.heldVersion ctx key ver, s.ctx? ctx with
  | some (t, slot), some x =>
    let w : WaitFor := .msg src ctx t.desc (.rowReq ctx tiers requester tag first count row key ver)
    let o := s.repOp ctx t.desc
    match s.msgReady w x o t slot row with
    | .fails st => (s.waitEnd w).respond requester tag st 0 []
    | .waits l => s.waitMsg w ctx l
    | .ready => (s.waitEnd w).rowReqNow o t slot ctx tiers requester tag first count row key ver
  | _, _ => s.respond requester tag 5 0 []

/-! ### Row writes (R216, R218, R232, R236, R238–R240, R250–R252, R366, R367) -/

/-- The row write is answered, unless it is a restore. -/
def State.putAnswer (s : State) (r : RowPut) (st : Nat) (old : List Byte) : State :=
  if r.undo then s else s.respond r.requester r.tag st r.addr old

/-- A row write fails here: its row is marked, and its sender hears of it: the requester itself by a LATE_ERROR that names the target, and in any case by the answer (R216, R218). -/
def State.putFails (s : State) (r : RowPut) (reason st : Nat) : State :=
  let s := s.poisonRow r.ctx r.map
  let s := s.iff (!r.undo && r.src == r.requester && !s.isOwn r.src) (fun s => s.lateErrorOut r.src r.ctx r.handle reason (remoteOff r.addr) r.e2e)
  s.putAnswer r st []

/-- The new contents of a row in flash go out once its old contents have come (R239, R240). -/
def State.putFlash (s : State) (r : RowPut) (old : List Byte) : State :=
  s.rowFlash r.addr r.pitch r.requester (leBytes ((old.drop (r.pitch - 8)).take 4)) old r.bytes (.newRow r old)

/-- A row write at the row's home here (R216, R236, R238, R239, R251, R391). -/
def State.putHere (s : State) (x : Ctx) (r : RowPut) : State :=
  let a := r.addr
  if spaceOf a ≤ 1 ∧ !(s.exists_ (spaceOf a) (offOf a) r.pitch && segCovers x.segs (spaceOf a) (offOf a) r.pitch (fun g => g.remW)) then s.putFails r 1 3
  else if spaceOf a = 3 then s.flashRead a r.pitch (fun _ => .oldRow r)
  else if spaceOf a = 2 ∧ s.rowSilent (ctxOp r.ctx) a r.pitch then s.putFails r 2 4
  else
    let old := s.rowBytes r.ctx a r.pitch
    let s := s.rowPut r.ctx a r.pitch r.requester (s.rowVer r.ctx a r.pitch) [] r.bytes (.write none none)
    (s.unpoisonRow r.ctx r.map).putAnswer r 0 old

/-- A row of another package's FUNCTION 1, or of its undo log, whose structures are at hand: it is written at its home here, or passed on to the package that holds the row (R232, R250, R257). -/
def State.rowWriteNow (s : State) (x : Ctx) (o : Op) (t : Tbl) (src ctx handle e2e requester tag key row : Nat) (undo : Bool) (bs : List Byte) : State :=
  let r : RowPut := ⟨src, ctx, handle, e2e, requester, tag, row, 0, t.pitch, 0, undo, bs.take t.rowT.rowBytes⟩
  let pass := match s.shardOf o t.slot row with
    | some (sh, i) =>
      if s.isOwn (pkgOf (s.shardE o t.slot.2.2 sh).ctrl) then
        (match s.placeIn o t t.slot sh i with | .guest p _ _ => some p | _ => none)
      else none
    | none => none
  match pass with
  | some p => s.post none ctx p (.rowWrite ctx handle 0 requester tag key row undo bs)
  | none =>
    match s.placeHere o t row with
    | none => s.putAnswer r 1 []
    | some (_, _, a, map) => s.putHere x { r with addr := a, map := map }

/-- ROW_WRITE at a package: structures that lie elsewhere are fetched first; one that cannot be read, or a context or table that is not here, fails the write (R216, R250, R757). -/
def State.rowWriteIn (s : State) (src ctx handle e2e requester tag key row : Nat) (undo : Bool) (bs : List Byte) : State :=
  let none_ : RowPut := ⟨src, ctx, handle, e2e, requester, tag, row, mkAddr 0 s.ownId 0, 0, 0, undo, []⟩
  match s.ctx? ctx, s.replica ctx key with
  | some x, some t =>
    let w : WaitFor := .msg src ctx t.desc (.rowWrite ctx handle e2e requester tag key row undo bs)
    let o := s.repOp ctx t.desc
    match s.msgReady w x o t t.slot row with
    | .fails st => (s.waitEnd w).putFails none_ (if st = 3 then 1 else 2) st
    | .waits l => s.waitMsg w ctx l
    | .ready => (s.waitEnd w).rowWriteNow x o t src ctx handle e2e requester tag key row undo bs
  | _, _ => s.putFails none_ 1 3

/-- A row write that a context's reset turns away: its row is marked all the same (R218, R592). -/
def State.rowWriteRefused (s : State) (src ctx handle e2e requester tag key row : Nat) : State :=
  let p : Nat × Nat := match s.replica ctx key with
    | some t => ((s.placeHere (s.repOp ctx t.desc) t row).map (fun x => (x.2.2.1, x.2.2.2))).getD (mkAddr 0 s.ownId 0, 0)
    | none => (mkAddr 0 s.ownId 0, 0)
  s.putFails ⟨src, ctx, handle, e2e, requester, tag, row, p.1, 0, p.2, false, []⟩ 3 3

/-! ### Messages that have what they waited for -/

/-- A message that waited is handled again. -/
def State.msgAgain (s : State) (src : Nat) (m : Msg) : State :=
  match m with
  | .rowReq ctx tiers requester tag first count row key ver => s.rowReqIn src ctx tiers requester tag first count row key ver
  | .rowWrite ctx handle e2e requester tag key row undo bs => s.rowWriteIn src ctx handle e2e requester tag key row undo bs
  | _ => s

/-- A wait has everything: a descriptor can be fetched again, and of a replica what has come is kept and its messages are handled in the order in which they came (R213, R270). -/
def State.waitDone (s : State) (w : WaitFor) : State :=
  match s.wait? w with
  | none => s
  | some x =>
    match w with
    | .fetching .. => s
    | .msg _ ctx desc _ =>
      if !x.ended then s
      else
        let s := s.learnFetched ctx desc (x.fetched.map (fun p => (p.1, p.2.length))) x.fetched
        let l := s.net.waits.filter (fun y => match y.what with | .msg _ c d _ => c == ctx && d == desc | _ => false)
        s.each l (fun s y => match y.what with | .msg src _ _ m => s.msgAgain src m | _ => s)

/-! ### Reads of other packages (R389, R391, R575, R577) -/

/-- READ_REQ: a read of this package's memory, host or flash, answered. -/
def State.readReqIn (s : State) (src ctx tag len addr : Nat) : State :=
  if spaceOf addr = 2 then
    match s.ctx? ctx with
    | none => s.respond src tag 3 addr []
    | some x => if (s.rangeFail x addr len true false).isSome then s.respond src tag 3 addr [] else s.respond src tag 0 addr (s.rowBytes ctx addr len)
  else if spaceOf addr = 3 then
    match s.ctx? ctx with
    | none => s.respond src tag 3 addr []
    | some x =>
      if (s.rangeFail x addr len true false).isSome then s.respond src tag 3 addr []
      else s.flashRead addr len (fun _ => .serve src tag addr len)
  else
    let k := remoteKey (remoteOff addr)
    let a := mkAddr (k / 2 ^ 60) s.ownId (k % 2 ^ 60)
    if !s.remoteOk ctx a len false then s.respond src tag 3 addr []
    else if s.poisoned k len then s.respond src tag 4 addr []
    else (s.draw 64 [(a, len)]).respond src tag 0 addr (s.kRd k len)

end Sys2Proof.Machine
end

