-- ==== Sys2Proof/Machine/Update.lean ====
section
/-! DEFINITION. UPDATE: the optimiser block, the equations, norms, and undo reservations (ch. 10, R350–R365; R207–R210, R241). -/

namespace Sys2Proof.Machine

/-! ### The optimiser block (R351, R352) -/

/-- An optimiser block read as fields. -/
structure OptB where
  version : Nat
  gdiv : Nat
  lr : FV
  beta1 : FV
  beta2 : FV
  eps : FV
  wd : FV
  gscale : Nat
  maxRows : Nat
  norm : Nat
  clean : Bool
  deriving DecidableEq, Repr, Inhabited

def optOf (bs : List Byte) : OptB :=
  let v := leBytes bs
  let f := fun off n => bitsN v (8 * off) (8 * n)
  let r := fun off => fv32 (BitVec.ofNat 32 (f off 4))
  ⟨f 0 1, f 1 1, r 4, r 8, r 12, r 16, r 20, f 24 4, f 28 4, f 32 8, f 2 2 == 0 && f 40 24 == 0⟩

/-- Whether a value is finite and not below zero. -/
def nonNeg (v : FV) : Bool := !v.nonfinite && !FV.lt v .zero

/-- The value 1. -/
def one64 : FV := .fin false 1 0

/-- Whether an optimiser block is valid, apart from the place of its norm record (R352). -/
def OptB.ok (b : OptB) (table : Bool) : Bool :=
  b.version == 0x30 && b.clean && nonNeg b.lr && nonNeg b.wd
  && nonNeg b.beta1 && FV.lt b.beta1 one64 && nonNeg b.beta2 && FV.lt b.beta2 one64
  && !b.eps.nonfinite && FV.lt .zero b.eps
  && (b.gscale == 0 || posNormal b.gscale)
  && decide (b.gdiv ≤ 2) && (b.gdiv != 1 || table)

/-- A field of the descriptor a distance back in the ring (R103, R356). -/
def State.ringByte (s : State) (x : Ctx) (num dist off : Nat) : Nat :=
  let n := 2 ^ x.sqLog2
  leBytes (s.ctxRd x.id (x.sqAddr + 128 * ((num + n - dist % n) % n) + off) 1)

/-- Checks of OPT_BLOCK (R352, R356). -/
def State.optFails (s : State) (x : Ctx) (d : Desc) (num : Nat) : List Fail :=
  let a := dField d 112 8
  if !(s.isOwn (pkgOf a) && decide (spaceOf a ∈ [0, 1])) then failIf (spaceOf a < 5) 0x15 112
  else if a % 64 ≠ 0 ∨ !s.exists_ (spaceOf a) (offOf a) 64 then [(0x15, 112)]
  else
    let b := optOf (s.rd a 64)
    let n := b.norm
    let nOk := n == 0 || (n % 64 == 0 && s.isOwn (pkgOf n) && decide (spaceOf n ≤ 1) && bitsN n 56 4 == 0)
    failIf (!b.ok (d.flag 8) || !nOk) 0x15 112
    ++ failIf (n != 0 && nOk && !(s.exists_ (spaceOf n) (offOf n) 64 && segCovers x.segs (spaceOf n) (offOf n) 64 (fun g => g.w))) 0x20 112
    ++ failIf (b.gdiv == 2 && (d.depA == 0 || s.ringByte x num d.depA 0 != 11)) 0x15 10

/-- The smallest STATE_PITCH of an optimiser (R354). -/
def minPitch (opt cols : Nat) : Nat := if opt = 0 then 4 * cols else if opt ≤ 2 then 8 * cols else 4

/-- Shards of a replica that this package owns: entry and control block. -/
def State.ownShards (s : State) (c : Nat) (t : Tbl) : List (ShardE × Ctrl) :=
  (List.range t.slot.2.1).filterMap (fun i =>
    let e := s.shardE (s.repOp c t.desc) t.slot.2.2 i
    if s.isOwn (pkgOf e.ctrl) then some (e, s.ctrlAt e.ctrl) else none)

/-- Admission checks of an UPDATE (R350–R356). -/
def State.updateFails (s : State) (x : Ctx) (d : Desc) (num : Nat) : List Fail :=
  let opt := d.param 8 1
  s.optFails x d num ++
  (if d.flag 8 then
    let t := s.tblAt (dField d 32 8)
    failIf (dField d 44 2 != 0) 0x15 44 ++ failIf (dField d 46 2 != 0) 0x15 46
    ++ s.tableFails x d 32 2
    ++ failIf (opt = 4) 0x15 120
    ++ (if t.valid ∧ opt ≤ 3 then failIf ((s.ownShards x.id t).any (fun e => decide (e.2.statePitch < minPitch opt t.cols))) 0x15 120 else [])
  else
    let a := d.tensor 32
    let place := fun (off : Nat) (sram : Bool) =>
      let p := dField d off 8
      failIf (decide (spaceOf p < 5) && !(s.isOwn (pkgOf p) && (spaceOf p == 0 || (sram && spaceOf p == 1)))) 0x15 off
    let same := fun (off : Nat) =>
      let t := d.tensor off
      failIf (t.fmt > 1) 0x14 (off + 11) ++ failIf (t.rows != a.rows) 0x15 (off + 8) ++ failIf (t.cols != a.cols) 0x15 (off + 12)
    let c := d.slotRaw 2 != 0
    let dd := d.slotRaw 3 != 0
    failIf (a.elem > 4) 0x14 43 ++ place 32 false ++ place 48 true ++ same 48
    ++ (if c then place 64 false ++ same 64 else [(0x15, 64)])
    ++ (if opt = 0 then failIf dd 0x15 80 else if opt = 3 then [] else if dd then place 80 false ++ same 80 else [(0x15, 80)]))

/-! ### Undo reservations (R363, R364) -/

/-- rec(x) of R363. -/
def undoRecBytes (x : Nat) : Nat := cdiv x 2048 * 2112

/-- The rows that an UPDATE of a table is taken to reach: MAX_ROWS, or every place of the shards that this package owns; and the bursts that each of them moves: row and state read and written, and its accumulator read (R351, R363, R420). -/
def State.updateReach (s : State) (c : Nat) (d : Desc) : Nat × Nat :=
  let t := s.tblAt (dField d 32 8)
  let l := s.ownShards c t
  let max_ := (optOf (s.rd (dField d 112 8) 64)).maxRows
  let sp := (l.map (fun e => e.2.statePitch)).foldl max 0
  (if max_ = 0 then sumN (l.map (fun e => e.1.rows + e.2.nSram + e.2.nHbm)) else max_,
    2 * cdiv t.pitch 64 + 2 * cdiv sp 64 + cdiv (4 * t.cols + 8) 64)

/-- Bytes that an operation reserves in the undo area, and the field that asks for them (R107, R363, R364). -/
def State.undoNeed (s : State) (x : Ctx) (d : Desc) (o : Opc) : Nat × Nat :=
  match o with
  | .update =>
    if d.flag 8 then
      let t := s.tblAt (dField d 32 8)
      let l := s.ownShards x.id t
      let n := (s.updateReach x.id d).1
      let sp := (l.map (fun e => e.2.statePitch)).foldl max 0
      (n * (roundUp (t.pitch + sp) 64 + 64), 112)
    else
      ((undoRecBytes (d.tensor 32).span + (if d.slotRaw 2 = 0 then 0 else undoRecBytes (d.tensor 64).span)
        + (if d.slotRaw 3 = 0 then 0 else undoRecBytes (d.tensor 80).span)), 112)
  | .table =>
    if d.fn = 1 then ((d.tensor 64).rows * ((s.tblAt (dField d 32 8)).pitch + 64), 112)
    else if d.flag 0 then (sumN ((d.outRanges .table).map (fun r => undoRecBytes r.2)), 2) else (0, 2)
  | o => if d.flag 0 then (sumN ((d.outRanges o).map (fun r => undoRecBytes r.2)), 2) else (0, 2)

/-! ### The equations (R355, R357, R358) -/

def f32Mul (a b : FV) : FV := FV.f32 (FV.mul a b)
def f32Add (a b : FV) : FV := FV.f32 (FV.add a b)
def f32Sub (a b : FV) : FV := FV.f32 (FV.sub a b)
def f32Div (a b : FV) : FV := FV.f32 (FV.div 24 a b)
def f32Sqrt (a : FV) : FV := FV.f32 (FV.sqrt 24 a)
def f32Fma (a b c : FV) : FV := FV.f32 (FV.add (FV.mul a b) c)

/-- x to the power t, rounded once to binary64 (R357; log entry 22). -/
def pow64 (x : FV) (t : Nat) : FV :=
  match x with
  | .fin _ m e => FV.f64 (.fin false (m ^ t) (e * (t : Int)))
  | v => v

/-- What the control processor computes once per UPDATE (R357): c1, c2, ob1, ob2. -/
structure OptC where
  c1 : FV
  c2 : FV
  ob1 : FV
  ob2 : FV
  deriving DecidableEq, Repr, Inhabited

def optConsts (b : OptB) (t : Nat) : OptC :=
  let c := fun (x : FV) => FV.f32 (FV.f64 (FV.div 53 one64 (FV.f64 (FV.sub one64 (pow64 x t)))))
  let ob := fun (x : FV) => FV.f32 (FV.f64 (FV.sub one64 x))
  ⟨c b.beta1, c b.beta2, ob b.beta1, ob b.beta2⟩

/-- The prepared gradient of R355. -/
def prepGrad (b : OptB) (n : Nat) (raw : FV) : FV :=
  let g := f32Mul (if b.gscale = 0 then one64 else fv32 (BitVec.ofNat 32 b.gscale)) raw
  if b.gdiv ≠ 0 ∧ 0 < n then f32Div g (FV.f32 (.fin false n 0)) else g

/-- One element after the moments of R357: m, v and r (Adam, AdamW, LAMB) or u (SGD). -/
structure ElemUp where
  m : FV
  v : FV
  r : FV
  deriving DecidableEq, Repr, Inhabited

/-- r of R357 from stored moments and the parameter. -/
def adamR (b : OptB) (k : OptC) (opt : Nat) (w m v : FV) : FV :=
  let d := f32Add (f32Sqrt (f32Mul v k.c2)) b.eps
  let r := f32Div (f32Mul m k.c1) d
  if opt = 2 ∨ opt = 4 then f32Fma b.wd w r else r

/-- Moments and step direction of one element (R357). -/
def elemUp (b : OptB) (k : OptC) (opt : Nat) (w g m v : FV) : ElemUp :=
  if opt = 0 then
    let g := f32Fma b.wd w g
    let m := f32Fma b.beta1 m g
    ⟨m, v, m⟩
  else
    let g := if opt = 1 then f32Fma b.wd w g else g
    let m := f32Fma b.beta1 m (f32Mul k.ob1 g)
    let v := f32Fma b.beta2 v (f32Mul k.ob2 (f32Mul g g))
    ⟨m, v, adamR b k opt w m v⟩

/-- Row-wise Adagrad: the new s and the u of each column (R357). -/
def adagrad (b : OptB) (s0 : FV) (g : List FV) : FV × List FV :=
  let q := g.foldl (fun q x => f32Fma x x q) .zero
  let s1 := f32Add s0 (f32Div q (FV.f32 (.fin false g.length 0)))
  let d := f32Add (f32Sqrt s1) b.eps
  (s1, g.map (fun x => f32Div (f32Mul b.lr x) d))

/-! ### Norms (R360, R361) -/

/-- Sums of squares of w, g (or r) and u, by controller. -/
abbrev NormAcc := List (Nat × (FV × FV × FV))

/-- Add one element to its unit's sums, in binary64 (R360). -/
def normAdd (acc : NormAcc) (unit : Nat) (w g u : FV) : NormAcc :=
  let sq := fun (a x : FV) => FV.f64 (FV.add a (FV.mul x x))
  smod unit (.zero, .zero, .zero) (fun a => (sq a.1 w, sq a.2.1 g, sq a.2.2 u)) acc

/-- The units' sums added in ascending controller index (R360). -/
def normTotal (acc : NormAcc) : FV × FV × FV :=
  acc.foldl (fun t a => (FV.f64 (FV.add t.1 a.2.1), FV.f64 (FV.add t.2.1 a.2.2.1), FV.f64 (FV.add t.2.2 a.2.2.2))) (.zero, .zero, .zero)

/-- The norm record of an UPDATE (R361). -/
def State.writeNorm (s : State) (o : Op) (b : OptB) (tot : FV × FV × FV) (ratio : FV) (elements : Nat) : State :=
  if b.norm = 0 then s
  else
    let root := fun (v : FV) => toLe 4 (bits32 (f32Sqrt v)).toNat
    let bad := tot.1.nonfinite || tot.2.1.nonfinite || tot.2.2.nonfinite
    let bs := root tot.1 ++ root tot.2.1 ++ root tot.2.2 ++ toLe 4 (bits32 ratio).toNat ++ toLe 8 s.frame ++ toLe 8 elements
      ++ [BitVec.ofNat 8 (1 + if bad then 2 else 0)] ++ List.replicate 31 0
    let s := s.store (localKey b.norm) bs
    s.modPart o.part (fun p => { p with norms := insertNew b.norm p.norms })

/-- The controller of an address: its HBM stack (R350). -/
def State.unitOf (s : State) (a : Nat) : Nat := s.channelOf (localKey a) / 32

/-- n of R355: the row's COUNT, or the contributions of the REDUCE that DEP_A names. -/
def State.gradN (s : State) (o : Op) (b : OptB) (count : Nat) : Nat :=
  if b.gdiv = 1 then count
  else if b.gdiv = 2 then
    let num := o.num - o.desc.depA
    let aux := match s.ops.find? (fun q => q.ctx == o.ctx && q.num == num) with
      | some q => q.aux
      | none => sgetD num 0 (s.ctx o.ctx).reduceAux
    aux % 2 ^ 32 + aux / 2 ^ 32
  else 0

/-! ### UPDATE of a tensor -/

/-- A row of FP32 or BF16 written behind the log: its bytes and whether an element is non-finite. -/
def momentRow (t : Tensor) (vs : List FV) : List Byte × Bool :=
  let e := encodeRow t.elem false false false vs
  (e.1, e.2.any id)

/-- What a moment reads back as once it is stored (R358). -/
def stored (t : Tensor) (v : FV) : FV := decodeElem t.elem false (encodeElem t.elem false false false v)

/-- The data effect of an UPDATE of a tensor (R350–R361). -/
def State.updateTensor (s : State) (o : Op) : State :=
  let d := o.desc
  let b := optOf o.held
  let opt := d.param 8 1
  let a := d.tensor 32
  let gt := d.tensor 48
  let ct := d.tensor 64
  let dt := d.tensor 80
  let k := optConsts b (s.fld (.schStepCount o.part) F.schStepCount_STEP + 1)
  let n := s.gradN o b 0
  let hasV := opt ≠ 0
  let rows := (List.range a.rows).map (fun r =>
    let w := (s.rowVals o a r).map FV.f32
    let g := ((s.rowVals o gt r).map FV.f32).map (prepGrad b n)
    let m := s.rowVals o ct r
    let v := if hasV then s.rowVals o dt r else List.replicate a.cols .zero
    let up := (w.zip (g.zip (m.zip v))).map (fun x => elemUp b k opt x.1 x.2.1 x.2.2.1 x.2.2.2)
    (w, g, up))
  let unit := fun (r c : Nat) => s.unitOf (a.addr + r * a.pitch + c * elemBits a.elem / 8)
  let fold := fun (acc : NormAcc) (f : Nat → List FV × List FV × List ElemUp → List (FV × FV × FV)) =>
    rows.zipIdx.foldl (fun acc x => (f x.2 x.1).zipIdx.foldl (fun acc e => normAdd acc (unit x.2 e.2) e.1.1 e.1.2.1 e.1.2.2) acc) acc
  let first := normTotal (fold [] (fun _ x => (x.1.zip x.2.2).map (fun e => (e.1, e.2.r, .zero))))
  let nw := FV.f64 (FV.sqrt 53 first.1)
  let nr := FV.f64 (FV.sqrt 53 first.2.1)
  let ratio := if opt = 4 ∧ !nw.nonfinite ∧ !nr.nonfinite ∧ FV.lt .zero nw ∧ FV.lt .zero nr then FV.f32 (FV.div 53 nw nr) else one64
  let uOf := fun (x : List FV × List FV × List ElemUp) =>
    (x.1.zip x.2.2).map (fun e =>
      if opt = 4 then f32Mul (f32Mul b.lr ratio) (adamR b k 4 e.1 (stored ct e.2.m) (stored dt e.2.v))
      else f32Mul b.lr e.2.r)
  let tot := normTotal (fold [] (fun _ x => ((x.1.zip (x.2.1.zip x.2.2)).zip (uOf x)).map (fun e => (e.1.1, if opt = 4 then e.1.2.2.r else e.1.2.1, e.2))))
  let r := rows.zipIdx.foldl (fun (x : Bool × State) y =>
    let up := y.1.2.2
    let w := encodeRow a.elem a.scaled a.signed false ((y.1.1.zip (uOf y.1)).map (fun e => f32Sub e.1 e.2))
    let m := momentRow ct (up.map ElemUp.m)
    let s := x.2.opWrLogged o (ct.addr + y.2 * ct.pitch) m.1
    let v := momentRow dt (up.map ElemUp.v)
    let s := s.iff hasV (fun s => s.opWrLogged o (dt.addr + y.2 * dt.pitch) v.1)
    let s := s.opWrLogged o (a.addr + y.2 * a.pitch) w.1
    (x.1 || w.2.any id || m.2 || (hasV && v.2), s)) (false, s)
  let s := r.2.writeNorm o b tot ratio (a.rows * a.cols)
  s.opEnd o.seq (min (a.rows * a.cols) (2 ^ 32 - 1)) r.1

/-! ### UPDATE of a table (R207, R209, R210, R241, R354, R365) -/

/-- A row that an UPDATE visits: place, row, shard of the place, address, row map entry, accumulator key, COUNT. -/
structure UpRow where
  place : Nat
  row : Nat
  shard : Nat
  addr : Nat
  map : Nat
  acc : Nat
  count : Nat
  deriving DecidableEq, Repr, Inhabited

/-- The rows of the step that received contributions and whose place is here, by place number (R207, R241, R365). -/
def State.upRows (s : State) (o : Op) (t : Tbl) : List UpRow :=
  let stamp := (s.part o.part).stepFirst % 2 ^ 48
  let l := (s.tbl.touched.filter (fun x => x.1 == o.part && x.2.1 == t.key)).filterMap (fun x =>
    match s.placeHere o t x.2.2 with
    | none => none
    | some (g, p, a, m) =>
      let k := (s.ctrlAt (s.shardE o t.slot.2.2 g).ctrl).gradKey t p
      let tail := s.gradTail t k
      if tail.2 ≠ stamp ∨ (m ≠ 0 ∧ bitN (s.opRdN o m 8) 63) then none else some ⟨p, x.2.2, g, a, m, k, tail.1⟩)
  l.mergeSort (fun a b => decide (a.place < b.place) || (a.place == b.place && decide (a.row ≤ b.row)))

/-- The rows that the step's contributions name for a table (R207). -/
def State.touchedRows (s : State) (o : Op) (t : Tbl) : List Nat :=
  (s.tbl.touched.filter (fun x => x.1 == o.part && x.2.1 == t.key)).map (fun x => x.2.2)

/-- What must be read on other packages before an UPDATE knows which of its guest rows are poisoned: the control blocks of their owners, and then their row map entries (R241). -/
def State.guestStructs (s : State) (o : Op) (t : Tbl) : List (Nat × Nat) :=
  (s.touchedRows o t).flatMap (fun r =>
    match s.shardOf o t.slot r with
    | none => []
    | some (sh, i) =>
      let a := (s.shardE o t.slot.2.2 sh).ctrl
      if s.isOwn (pkgOf a) ∨ (s.placeHere o t r).isNone then []
      else if (fetchedAt o.fetched a 128).isSome then [((s.ctrlOp o a).mapAddr i, 8)] else [(a, 128)])

/-- One row is updated in place: undo records, state, row under its header (R239, R354–R359). -/
def State.updateRow (s : State) (o : Op) (t : Tbl) (b : OptB) (k : OptC) (opt : Nat) (x : UpRow) (acc : NormAcc) : (Bool × NormAcc) × State :=
  let c := s.ctrlAt (s.shardE o t.slot.2.2 x.shard).ctrl
  let rt := t.rowT
  let old := s.opRd o x.addr t.pitch
  let w := (scaleVals rt.elem rt.signed (rowCodes rt.elem t.cols old) (rt.rowScales old)).map FV.f32
  let raw := (blocks 4 (s.kRd x.acc (4 * t.cols))).map (fun e => fv32 (BitVec.ofNat 32 (leBytes e)))
  let g := raw.map (prepGrad b (s.gradN o b x.count))
  let stA := c.stateAddr x.place
  let st := (blocks 4 (s.kRd (localKey stA) (minPitch opt t.cols))).map (fun e => fv32 (BitVec.ofNat 32 (leBytes e)))
  let new : List FV × List FV :=
    if opt = 3 then
      let r := adagrad b (st.headD .zero) g
      ([r.1], r.2)
    else
      let m := st.take t.cols
      let v := if opt = 0 then List.replicate t.cols .zero else st.drop t.cols
      let up := (w.zip (g.zip (m.zip v))).map (fun e => elemUp b k opt e.1 e.2.1 e.2.2.1 e.2.2.2)
      (up.map ElemUp.m ++ (if opt = 0 then [] else up.map ElemUp.v), up.map (fun e => f32Mul b.lr e.r))
  let e := encodeRow rt.elem rt.scaled rt.signed false ((w.zip new.2).map (fun e => f32Sub e.1 e.2))
  let unit := s.channelOf x.acc / 32
  let acc := (w.zip (g.zip new.2)).foldl (fun a e => normAdd a unit e.1 e.2.1 e.2.2) acc
  let s := s.modPart o.part (fun p => { p with undo :=
    ⟨x.addr, old, o.ctx, s.frame, .row t.pitch⟩ :: ⟨stA, s.kRd (localKey stA) c.statePitch, o.ctx, s.frame, .range⟩ :: p.undo })
  let s := s.write (localKey stA) (new.1.flatMap (fun v => toLe 4 (bits32 v).toNat))
  let s := s.rowPut o.ctx x.addr t.pitch s.ownId (leBytes ((old.drop (t.pitch - 8)).take 4)) old e.1 (.write (some o.seq) (some (o.ctx, x.map)))
  let s := s.load c.addr 5 1
  ((e.2.any id || new.1.any FV.nonfinite, acc), s)

/-- From the reading of the rows on, records of the table come too late (R210). -/
def State.closeLedgers (s : State) (t : Tbl) (frame : Nat) : State :=
  let ctxs := (s.tbl.known.filter (fun k => k.desc == t.desc || (s.tblAt k.desc).key == t.key)).map Known.ctx
  s.each ctxs.eraseDups (fun s c => s.modLedger c t.key frame (fun l => { l with closed := true }))

/-- Whether a table's ledgers of a frame hold traffic that came in the guard band (R72, R73). -/
def State.ledgerBand (s : State) (t : Tbl) (frame : Nat) : Bool :=
  s.tbl.ledgers.any (fun l => l.key == t.key && l.frame == frame && l.band)

/-- Whether an UPDATE still waits for its table's ledger: it is open, and the work boundary has not passed (R209). -/
def State.ledgerWaits (s : State) (o : Op) (t : Tbl) : Bool :=
  !s.ledgerClosed o t o.frame && (s.frm.phase == .intake || s.frm.phase == .work) && (s.part o.part).stretch == 0

/-- The rows of an UPDATE whose ledger has closed, or whose work boundary has passed; a row at a place that does not exist is a failed write, and silent host memory ends the operation (R210, R241, R365, R391, R562). -/
def State.updateRows (s : State) (o : Op) (t : Tbl) (all l : List UpRow) : State :=
  let b := optOf o.held
  let opt := o.desc.param 8 1
  let late := !(s.openSenders o t o.frame).isEmpty
  let band := s.ledgerBand t o.frame
  let s := s.closeLedgers t o.frame
  let k := optConsts b (s.fld (.schStepCount o.part) F.schStepCount_STEP + 1)
  let r := l.foldl (fun (x : (Bool × NormAcc × Nat) × State) u =>
    if x.2.place u.addr = 0 ∧ x.2.poisoned (localKey u.addr) t.pitch then (x.1, x.2.poisonRow o.ctx u.map)
    else if s.rowSilent o u.addr t.pitch then x
    else if s.rowNowhere u.addr t.pitch then (x.1, (x.2.lateErrorOp o.seq 1 u.addr).poisonRow o.ctx u.map)
    else
      let y := x.2.updateRow o t b k opt u x.1.2.1
      ((x.1.1 || y.1.1, y.1.2, x.1.2.2 + 1), y.2)) ((false, ([] : NormAcc), 0), s)
  let s := r.2.writeNorm o b (normTotal r.1.2.1) one64 (r.1.2.2 * t.cols)
  let s := s.modOp o.seq (fun o => (if late then o.addFlag 6 else o))
  let s := s.modOp o.seq (fun o => (if band then o.addFlag 2 else o))
  let s := s.iff (decide (l.length < all.length)) (fun s => s.modOp o.seq (fun o => { o with status := 0x24, detail := 112 }))
  if l.any (fun u => s.rowSilent o u.addr t.pitch) then s.hostFails o 32
  else s.opEnd o.seq (min r.1.2.2 (2 ^ 32 - 1)) r.1.1

/-- The data effect of an UPDATE with OPF TABLE: what its structures need from elsewhere is fetched, the ledger is awaited, and rows in flash are read; the rows are taken in ascending address order (R209, R241, R360, R757). -/
def State.updateTable (s : State) (o : Op) : State :=
  let t := s.opTable o
  let b := optOf o.held
  if !t.valid then s.opFail o.seq 0x15 32
  else
    s.tableReady o t [] [] (fun s =>
      if s.ledgerWaits o t then s
      else
        s.tableReady o t (s.touchedRows o t) (s.guestStructs o t) (fun s =>
          s.tableReady o t [] (s.guestStructs o t) (fun s =>
            let all := s.upRows o t
            let l := (if b.maxRows = 0 then all else all.take b.maxRows).mergeSort (fun x y => decide (x.addr ≤ y.addr))
            let m := s.missing o ((l.filter (fun x => spaceOf x.addr == 3)).map (fun x => (x.addr, t.pitch)))
            if !m.isEmpty then s.issueReads o.seq m else s.updateRows o t all l)))

/-- UPDATE of a tensor, run. -/
def updateOp (ctx : Nat) (s : State) : State :=
  s.runOp ctx (fun d => isOpc .update d && !d.flag 8) (fun _ o => o.inputs .update) (fun o s => s.updateTensor o)

/-- UPDATE with OPF TABLE, run. -/
def updateTableOp (ctx : Nat) (s : State) : State :=
  s.runOp ctx (fun d => isOpc .update d && d.flag 8) (fun _ _ => []) (fun o s => s.updateTable o)

end Sys2Proof.Machine
end

