-- ==== Sys2Proof/Machine/Collect.lean ====
section
/-! DEFINITION. Package groups, EXCHANGE and REDUCE (ch. 15, R524–R549; R376, R378). -/

namespace Sys2Proof.Machine

/-! ### Groups (R524–R527) -/

/-- Bring SCH_GROUP_STATUS up to date. -/
def State.groupStatus (s : State) : State :=
  let s := s.setFld .schGroupStatus F.schGroupStatus_GROUPS s.groups.length
  s.setFld .schGroupStatus F.schGroupStatus_MEMBERS (sumN (s.groups.map (fun g => g.2.members.length)))

/-- Whether an operation admitted in the frame names a group (R526). -/
def State.groupUsed (s : State) (gid : Nat) : Bool :=
  s.ops.any (fun o => o.frame == s.frame && o.stage != .refused && (isOpc .exchange o.desc || isOpc .reduce o.desc) && o.desc.param 0 2 == gid)

/-- Whether the group table has room for a group of `n` members (R525). -/
def State.groupRoom (s : State) (gid n : Nat) : Bool :=
  let others := s.groups.filter (fun g => g.1 ≠ gid)
  decide (others.length < 1024) && decide (sumN (others.map (fun g => g.2.members.length)) + n ≤ 65536)

/-- Admission checks of a CONTROL 0x05 (R524–R526). -/
def State.groupDefineFails (s : State) (x : Ctx) (d : Desc) : List Fail :=
  let gid := d.param 4 4
  let t := d.tensor 32
  failIf (gid = 0 || gid > 4095) 0x15 116
  ++ failIf (s.groupUsed gid) 0x18 116
  ++ (if d.slotRaw 0 = 0 then [] else
    failIf (t.rows < 2 || t.rows > 4096) 0x15 40
    ++ failIf (t.fmt != 7 || t.cols != 1) 0x15 32
    ++ failIf (!s.bit (.hstPartCtrl (s.partOf x.id)) F.hstPartCtrl_VIEW && decide (256 < t.rows)) 0x16 40
    ++ failIf (!s.groupRoom gid t.rows) 0x24 116)

/-- The data effect of a CONTROL 0x05: the group is defined, or deleted with slot A absent (R524–R526). -/
def State.groupDefine (s : State) (o : Op) : State :=
  let gid := o.desc.param 4 4
  if o.desc.slotRaw 0 = 0 then (({ s with groups := sdel gid s.groups } : State).groupStatus).opEnd o.seq 0 false
  else
    let l := s.colCodes o (o.desc.tensor 32)
    let ms := l.map (fun v => (bitsN v 0 12, bitsN v 16 13))
    let up := (ms.zip (ms.drop 1)).all (fun p => decide (p.1.1 < p.2.1))
    if l.any (fun v => bitsN v 12 4 != 0 || bitsN v 29 3 != 0) ∨ !up ∨ !ms.any (fun m => s.isOwn m.1) then s.opFail o.seq 0x15 32
    else if !s.groupRoom gid ms.length then s.opFail o.seq 0x24 116
    else (({ s with groups := sput gid ⟨o.ctx, ms⟩ s.groups } : State).groupStatus).opEnd o.seq 0 false

/-- GROUP_DEFINE, run. -/
def groupDefineOp (ctx : Nat) (s : State) : State :=
  s.runOp ctx (fun d => isOpc .control d && d.fn == 5) (fun _ o => o.inputs .control) (fun o s => s.groupDefine o)

/-! ### Admission checks of EXCHANGE and REDUCE (R526, R535, R539, R546–R548) -/

/-- The ordinal that a collective of a group takes at admission (R535). -/
def State.nextOrdinal (s : State) (gid : Nat) : Nat :=
  (s.ops.filter (fun o => o.frame == s.frame && o.stage != .refused && (isOpc .exchange o.desc || isOpc .reduce o.desc) && o.desc.param 0 2 == gid)).length

/-- Checks shared by the collectives: the group and the ordinal (R526, R535, R84). -/
def State.collFails (s : State) (x : Ctx) (d : Desc) : List Fail :=
  let gid := d.param 0 2
  match sget gid s.groups with
  | none => [(0x15, 112)]
  | some g => failIf (g.ctx != x.id) 0x20 112 ++ failIf (256 ≤ s.nextOrdinal gid) 0x15 112
      ++ failIf (g.members.any (fun m => !s.reachable m.1)) 0x22 112

/-- Checks of a REDUCE (R539). -/
def State.reduceFails (s : State) (x : Ctx) (d : Desc) : List Fail :=
  let a := d.tensor 32
  let b := d.tensor 48
  s.collFails x d ++ failIf (a.fmt > 1) 0x14 43 ++ failIf (b.fmt > 1) 0x14 59
  ++ failIf (a.rows != b.rows) 0x15 56 ++ failIf (a.cols != b.cols) 0x15 60

/-- Checks of an EXCHANGE (R546–R548). -/
def State.exchangeFails (s : State) (x : Ctx) (d : Desc) : List Fail :=
  let a := d.tensor 32
  let b := d.tensor 48
  let n := ((sget (d.param 0 2) s.groups).map (fun g => g.members.length)).getD 1
  let r := if d.param 2 1 = 1 then a.rows / n else a.rows
  s.collFails x d ++ failIf (a.fmt != b.fmt) 0x14 59 ++ failIf (a.rows != b.rows) 0x15 56 ++ failIf (a.cols != b.cols) 0x15 60
  ++ failIf (min (d.param 4 4) r * a.rowBytes > 65536) 0x15 116
  ++ (if d.param 2 1 = 1 then failIf (a.rows % n != 0) 0x15 40
      else failIf (overlap a.addr a.span b.addr b.span) 0x15 48)

/-! ### Pieces (R536–R538, R540, R548) -/

/-- CHUNK of a piece (R536). -/
def chunkOf (ordinal : Nat) (counts : Bool) (piece : Nat) : Nat := ordinal * 2 ^ 24 + (if counts then 2 ^ 23 else 0) + piece % 2 ^ 23

/-- Send a piece to the member of a rank in parts of 256 bytes (R536, R540). -/
def State.sendPiece (s : State) (g : Group) (run : CollRun) (rank : Nat) (counts : Bool) (piece : Nat) (bs : List Byte) : State :=
  let m := nthD g.members rank (0, 0)
  s.each (chunks 256 bs) (fun s c =>
    s.send m.1 0 (run.frame % 65536) (.collective m.2 run.group (chunkOf run.ordinal counts piece) (c.1 / 256) (decide (bs.length ≤ c.1 + 256)) c.2))

/-- Bytes of a piece, once it is whole. -/
def CPiece.data (p : CPiece) : Option (List Byte) :=
  match p.total with
  | none => none
  | some n => if (List.range n).all (fun i => (sget i p.parts).isSome) then some ((List.range n).flatMap (fun i => sgetD i [] p.parts)) else none

/-- Change the run of an operation. -/
def State.modRun (s : State) (q : Nat) (f : CollRun → CollRun) : State :=
  { s with coll := { s.coll with runs := s.coll.runs.map (fun r => if r.op = q then f r else r) } }

/-- The run of an operation. -/
def State.run? (s : State) (q : Nat) : Option CollRun := s.coll.runs.find? (fun r => r.op == q)

/-- The run that a piece belongs to. -/
def State.runOf (s : State) (p : CPiece) : Option CollRun :=
  s.coll.runs.find? (fun r => r.group == p.group && r.frame == p.frame && r.ordinal == p.ordinal)

/-- Mark a piece used; one that came in the guard band flags the operation that uses it (R72, R73). -/
def State.usePiece (s : State) (p : CPiece) : State :=
  let s : State := { s with coll := { s.coll with pieces := s.coll.pieces.map (fun x =>
      if x.src = p.src ∧ x.group = p.group ∧ x.frame = p.frame ∧ x.ordinal = p.ordinal ∧ x.counts = p.counts ∧ x.piece = p.piece
      then { x with used := true, parts := [] } else x) } }
  match s.runOf p with
  | some r => s.iff p.band (fun s => s.modOp r.op (fun o => o.addFlag 2))
  | none => s

/-- A piece of a run from a package, if it is whole and unused. -/
def State.pieceFrom (s : State) (r : CollRun) (src : Nat) (counts : Bool) (piece : Nat) : Option (CPiece × List Byte) :=
  match s.coll.pieces.find? (fun x => x.src == src && x.group == r.group && x.frame == r.frame && x.ordinal == r.ordinal
      && x.counts == counts && x.piece == piece && !x.used) with
  | none => none
  | some p => p.data.map (fun d => (p, d))

/-- A piece whose length is wrong is discarded and counted (R538). -/
def State.dropPiece (s : State) (p : CPiece) : State := (s.usePiece p).satFld .schCollDrop F.schCollDrop_COUNT 1

/-- Bytes of an element in transit. -/
def transitWidth (fmt : Nat) : Nat := if fmt = 1 then 2 else 4

/-- Elements of piece c of a REDUCE (R540). -/
def pieceLen (elems c : Nat) : Nat := min 16384 (elems - 16384 * c)

/-- Number of pieces of a REDUCE (R540). -/
def pieceCount (elems : Nat) : Nat := cdiv elems 16384

/-- Values rounded to TRANSIT_FORMAT, as bytes (R541). -/
def toTransit (fmt : Nat) (vs : List FV) : List Byte := packCodes fmt (vs.map (encodeElem fmt false false false))

/-- Values of a piece in transit, widened to FP32 (R541). -/
def fromTransit (fmt n : Nat) (bs : List Byte) : List FV := (rowCodes fmt n bs).map (decodeElem fmt false)

/-- Whether the network still holds a piece that this package sent for a run: waiting, unacknowledged or without a route (R549; log entry 40). -/
def State.piecesOut (s : State) (r : CollRun) : Bool :=
  let mine := fun (f : Flit) => match f.msg with
    | .collective _ g c _ _ _ => g == r.group && c / 2 ^ 24 == r.ordinal && f.tag == r.frame % 65536 && f.src == s.ownId
    | _ => false
  s.net.stuck.any mine || s.net.straits.any (fun x => x.2.tx.any (fun t => t.ahead.any mine || t.queue.any mine || t.unacked.any (fun u => mine u.flit)))

/-! ### EXCHANGE (R546–R549) -/

/-- Rows that each transfer carries, and the ranks to send to and receive from with the first row of the block (R546, R547). -/
def exchangePlan (d : Desc) (n me : Nat) : Nat × List (Nat × Nat) × List (Nat × Nat) :=
  let rows := (d.tensor 32).rows
  if d.param 2 1 = 1 then
    let r := rows / n
    let l := ((List.range n).filter (· ≠ me)).map (fun j => (j, j * r))
    (r, l, l)
  else (rows, [((me + 1) % n, 0)], [((me + n - 1) % n, 0)])

/-- First row and rows of the pieces of a transfer (R548). -/
def transferPieces (rows chunk : Nat) : List (Nat × Nat) :=
  (List.range (cdiv rows (max 1 chunk))).map (fun i => (i * chunk, min chunk (rows - i * chunk)))

/-- The bytes of rows of a tensor. -/
def State.rowsBytes (s : State) (o : Op) (t : Tensor) (first n : Nat) : List Byte :=
  (List.range n).flatMap (fun i => s.opRd o (t.addr + (first + i) * t.pitch) t.rowBytes)

/-- Write rows bit for bit (R548). -/
def State.putRows (s : State) (o : Op) (t : Tensor) (first : Nat) (bs : List Byte) : State :=
  s.each (blocks t.rowBytes bs).zipIdx (fun s r => s.opWr o (t.addr + (first + r.2) * t.pitch) r.1)

/-- Whether arriving pieces may be written into a tensor of a context: REMOTE_W over local memory (R574). -/
def State.pieceWritable (s : State) (o : Op) (t : Tensor) : Bool :=
  s.place t.addr != 0 || (let k := localKey t.addr; s.remoteOk o.ctx (mkAddr (k / 2 ^ 60) s.ownId (k % 2 ^ 60)) t.span true)

/-- A piece that may not be written is answered with a late error of reason 1 (R216, R574). -/
def State.denyPiece (s : State) (o : Op) (t : Tensor) (p : CPiece) : State :=
  (s.usePiece p).lateErrorOut p.src o.ctx 0 1 t.addr 0

/-- Use what has arrived for an EXCHANGE; it finishes when every piece expected has been written and every piece sent acknowledged (R549). -/
def State.exchangeTry (s : State) (o : Op) (r : CollRun) (g : Group) (me : Nat) : State :=
  let b := o.desc.tensor 48
  let plan := exchangePlan o.desc g.members.length me
  let pcs := transferPieces plan.1 (o.desc.param 4 4)
  let want := plan.2.2.flatMap (fun x => pcs.zipIdx.map (fun p => (x.1, p.2, x.2 + p.1.1, p.1.2)))
  let s := s.each want (fun s w =>
    match s.pieceFrom r (nthD g.members w.1 (0, 0)).1 false w.2.1 with
    | none => s
    | some (p, d) =>
      if d.length ≠ w.2.2.2 * b.rowBytes then s.dropPiece p
      else if !s.pieceWritable o b then s.denyPiece o b p
      else (((s.putRows o b w.2.2.1 d).iff (rowsNonfinite b (blocks b.rowBytes d)) (fun s => s.modOp o.seq (fun o => o.addFlag 3))).usePiece p).modRun o.seq (fun r => { r with done := r.done ++ [(w.1 * 2 ^ 23 + w.2.1, 0, 0)] }))
  let n := ((s.run? o.seq).map (fun r => r.done.length)).getD 0
  if n = want.length ∧ !s.piecesOut r then
    (((s.modRun o.seq (fun r => { r with acked := true })).modOp o.seq (fun o => { o with await := 0 })).opEnd o.seq 0 (((s.op? o.seq).getD o).flags.testBit 3))
  else s

/-! ### REDUCE (R540–R544, R376, R378) -/

/-- Owner rank of a piece. -/
def pieceOwner (n c : Nat) : Nat := c % n

/-- Write the elements of a result piece into slot B (R542). -/
def State.putElems (s : State) (o : Op) (t : Tensor) (first : Nat) (vs : List FV) : State × Bool :=
  let w := elemBits t.elem / 8
  let enc := vs.map (fun v => (encodeElem t.elem false false false v, v))
  let r0 := first / t.cols
  let rows := (List.range ((first + vs.length - 1) / t.cols + 1 - r0)).map (fun i =>
    let lo := max first ((r0 + i) * t.cols)
    let hi := min (first + vs.length) ((r0 + i + 1) * t.cols)
    (lo, (enc.drop (lo - first)).take (hi - lo)))
  (s.each rows (fun s x => s.opWr o (t.addr + x.1 / t.cols * t.pitch + x.1 % t.cols * w) (packCodes t.elem (x.2.map Prod.fst))),
    enc.any (fun c => outNonfinite t.elem c.2 c.1))

/-- A member writes a result piece; the last one ends the operation with AUX of R544. -/
def State.reduceResult (s : State) (q c delivered carried : Nat) (vs : List FV) : State :=
  match s.op? q, s.run? q with
  | some o, some r =>
    let x := s.putElems o (o.desc.tensor 48) (16384 * c) vs
    let s := x.1.iff x.2 (fun s => s.modOp q (fun o => o.addFlag 3))
    let done := r.done ++ [(c, delivered, carried)]
    let s := s.modRun q (fun r => { r with done := done })
    if done.length = pieceCount r.elems then
      let least := (done.map (fun d => d.2.1)).foldl min delivered
      let first := (done.filter (fun d => d.2.1 == least)).foldl (fun (b : Nat × Nat × Nat) d => if d.1 < b.1 then d else b) (2 ^ 23, 0, 0)
      let s := s.modOp q (fun o => { o with await := 0 })
      s.opEnd q (least + first.2.2 * 2 ^ 32) (bitN ((s.op? q).elim 0 Op.flags) 3)
    else s
  | _, _ => s

/-- Combine the contributions of a piece in order (R541). -/
def combineVals (op : Nat) : List (List FV) → List FV
  | [] => []
  | c :: cs =>
    let sum := cs.foldl (fun acc x => List.zipWith (fun a b => if op = 2 then FV.maxv a b else FV.f32 (FV.add a b)) acc x) c
    if op = 1 then sum.map (fun v => FV.f32 (FV.div 24 v (FV.ofInt ((cs.length + 1 : Nat) : Int)))) else sum

/-- A REDUCE contribution that missed its cut-off, or comes from a package out of step, is carried into the next frame or dropped by the policy of the REDUCE (R69, R375, R376, R378). -/
def State.contribLate (s : State) (r : CollRun) (rank : Nat) (p : CPiece) (d : List Byte) : State :=
  let pt := s.partOf r.ctx
  let n := pieceLen r.elems p.piece
  let s := (s.usePiece p).modOp r.op (fun o => o.addFlag 6)
  if d.length ≠ n * transitWidth r.fmt then s.satFld .schCollDrop F.schCollDrop_COUNT 1
  else
    let inTime := p.frame = s.frame ∨ (p.frame + 1 = s.frame ∧ !s.coll.closed)
    if inTime ∧ !r.drop then
      ({ s with redCarry := s.redCarry ++ [⟨r.ctx, r.group, p.frame, p.piece, rank, (fromTransit r.fmt n d).map bits32⟩] } : State).satFld
        (.schStragglerCnt pt) F.schStragglerCnt_CARRIED 1
    else s.satFld (.schStragglerCnt pt) F.schStragglerCnt_DROPPED 1

/-- The values of slot A in row-major order, from an element on. -/
def State.reduceVals (s : State) (o : Op) : List FV := (s.matVals o (o.desc.tensor 32)).flatten

/-- Whether a REDUCE is the first of its context and group in the frame (R376). -/
def State.firstReduce (s : State) (r : CollRun) : Bool :=
  !s.coll.runs.any (fun x => x.reduce && x.frame == r.frame && x.group == r.group && x.ctx == r.ctx && decide (x.ordinal < r.ordinal))

/-- A result of a REDUCE that has not run here yet waits for it, as one that came from another owner does (R542). -/
def State.keepResult (s : State) (r : CollRun) (c : Nat) (counts : Bool) (bs : List Byte) : State :=
  let p : CPiece := {
    src := s.ownId, group := r.group, frame := r.frame, ordinal := r.ordinal, counts := counts, piece := c, parts := [(0, bs)], total := some 1 }
  { s with coll := { s.coll with pieces := s.coll.pieces ++ [p] } }

/-- The owner combines a piece and sends the result and its counts to every member; at the cut-off, without its own contribution where its REDUCE has not run (R34, R541, R542). -/
def State.combinePiece (s : State) (o : Op) (r : CollRun) (g : Group) (me c : Nat) : State :=
  let n := pieceLen r.elems c
  let own := if r.sent then [fromTransit r.fmt n (toTransit r.fmt ((s.reduceVals o).drop (16384 * c) |>.take n))] else []
  let late := if s.firstReduce r then
      (s.redCarry.filter (fun x => x.ctx == r.ctx && x.group == r.group && x.frame + 1 == r.frame && x.piece == c && x.vals.length == n)).mergeSort
        (fun a b => decide (a.rank ≤ b.rank))
    else []
  let got : List (Nat × Option (CPiece × List Byte)) := (List.range g.members.length).map (fun j =>
    (j, if j = me then none else s.pieceFrom r (nthD g.members j (0, 0)).1 false c))
  let bad := got.filterMap (fun x => x.2.bind (fun p => if p.2.length = n * transitWidth r.fmt then none else some p.1))
  let good := got.flatMap (fun x =>
    if x.1 = me then own
    else (x.2.bind (fun p => if p.2.length = n * transitWidth r.fmt then some (fromTransit r.fmt n p.2) else none)).toList)
  let s := s.each bad State.dropPiece
  let s := s.each (got.filterMap (fun x => x.2.map Prod.fst)) State.usePiece
  let s : State := { s with redCarry := s.redCarry.filter (fun x => x ∉ late) }
  let res := toTransit r.fmt (combineVals (o.desc.param 2 1) (late.map (fun x => x.vals.map fv32) ++ good))
  let cnt := toLe 4 good.length ++ toLe 4 late.length ++ List.replicate 8 0
  let s := s.each ((List.range g.members.length).filter (· ≠ me)) (fun s j => (s.sendPiece g r j false c res).sendPiece g r j true c cnt)
  let s := s.modRun o.seq (fun r => { r with combined := r.combined ++ [c] })
  if r.sent then s.reduceResult o.seq c good.length late.length (fromTransit r.fmt n res)
  else (s.keepResult r c false res).keepResult r c true cnt

/-- Whether every other member's contribution to a piece has arrived. -/
def State.contribsIn (s : State) (r : CollRun) (g : Group) (me c : Nat) : Bool :=
  (List.range g.members.length).all (fun j => j == me || (s.pieceFrom r (nthD g.members j (0, 0)).1 false c).isSome)

/-- The pieces that this member owns and has not combined. -/
def CollRun.owed (r : CollRun) (n me : Nat) : List Nat :=
  (List.range (pieceCount r.elems)).filter (fun c => pieceOwner n c == me && c ∉ r.combined)

/-- Use the results that have arrived for a REDUCE (R542). -/
def State.reduceTry (s : State) (o : Op) (r : CollRun) (g : Group) (me : Nat) : State :=
  let b := o.desc.tensor 48
  let n := g.members.length
  s.each ((List.range (pieceCount r.elems)).filter (fun c => !r.done.any (fun d => d.1 == c))) (fun s c =>
    let src := if pieceOwner n c = me then s.ownId else (nthD g.members (pieceOwner n c) (0, 0)).1
    match s.pieceFrom r src false c, s.pieceFrom r src true c with
    | some (p, d), some (k, e) =>
      if d.length ≠ pieceLen r.elems c * transitWidth r.fmt then s.dropPiece p
      else if e.length ≠ 16 then s.dropPiece k
      else if !s.pieceWritable o b then (s.denyPiece o b p).usePiece k
      else ((s.usePiece p).usePiece k).reduceResult o.seq c (leBytes (e.take 4)) (leBytes ((e.drop 4).take 4))
        (fromTransit r.fmt (pieceLen r.elems c) d)
    | _, _ => s)

/-- Progress of a collective whose operation has sent its pieces. -/
def State.collTry (s : State) (q : Nat) : State :=
  match s.op? q, s.run? q with
  | some o, some r =>
    if !r.sent ∨ o.stage ≠ .started then s
    else
      match sget r.group s.groups with
      | none => s
      | some g =>
        match s.rankIn g with
        | none => s
        | some me => if r.reduce then s.reduceTry o r g me else s.exchangeTry o r g me
  | _, _ => s

/-- The data effect of an EXCHANGE: its pieces go out, its own block is copied, and what has arrived is written (R546–R549). -/
def State.exchangeRun (s : State) (o : Op) : State :=
  match s.run? o.seq, sget (o.desc.param 0 2) s.groups with
  | some r, some g =>
    match s.rankIn g with
    | none => s
    | some me =>
      if r.sent then s.collTry o.seq
      else
        let a := o.desc.tensor 32
        let b := o.desc.tensor 48
        let plan := exchangePlan o.desc g.members.length me
        let s := (s.modRun o.seq (fun r => { r with sent := true }))
        let s := s.iff (o.desc.param 2 1 == 1) (fun s => s.putRows o b (me * plan.1) (s.rowsBytes o a (me * plan.1) plan.1))
        let s := s.each plan.2.1 (fun s x => s.each (transferPieces plan.1 (o.desc.param 4 4)).zipIdx (fun s p =>
          s.sendPiece g r x.1 false p.2 (s.rowsBytes o a (x.2 + p.1.1) p.1.2)))
        s.collTry o.seq
  | _, _ => s.opFail o.seq 0x15 112

/-- The data effect of a REDUCE: contributions go to the piece owners; after the cut-off those to the pieces owned here are stragglers as the others are (R34, R540–R542). -/
def State.reduceRun (s : State) (o : Op) : State :=
  match s.run? o.seq, sget (o.desc.param 0 2) s.groups with
  | some r, some g =>
    match s.rankIn g with
    | none => s
    | some me =>
      if r.sent then s.collTry o.seq
      else
        let vs := s.reduceVals o
        let n := g.members.length
        let s := s.modRun o.seq (fun r => { r with sent := true })
        let s := s.each ((List.range (pieceCount r.elems)).filter (fun c => pieceOwner n c != me)) (fun s c =>
          s.sendPiece g r (pieceOwner n c) false c (toTransit r.fmt ((vs.drop (16384 * c)).take (pieceLen r.elems c))))
        let mine := (List.range (pieceCount r.elems)).filter (fun c => pieceOwner n c == me)
        let s := s.iff s.coll.closed (fun s => s.each mine (fun s c =>
          s.contribLate r me { src := s.ownId, group := r.group, frame := r.frame, ordinal := r.ordinal, counts := false, piece := c }
            (toTransit r.fmt ((vs.drop (16384 * c)).take (pieceLen r.elems c)))))
        s.collTry o.seq
  | _, _ => s.opFail o.seq 0x15 112

/-- EXCHANGE, run. -/
def exchangeOp (ctx : Nat) (s : State) : State := s.runOp ctx (isOpc .exchange) (fun _ o => o.inputs .exchange) (fun o s => s.exchangeRun o)

/-- REDUCE, run. -/
def reduceOp (ctx : Nat) (s : State) : State := s.runOp ctx (isOpc .reduce) (fun _ o => o.inputs .reduce) (fun o s => s.reduceRun o)

/-- Whether this member owns a piece of a REDUCE and can combine it: every contribution is in, or the cut-off has passed (R542). -/
def State.combines (s : State) (o : Op) (piece : Nat) : Bool :=
  match s.run? o.seq, sget (o.desc.param 0 2) s.groups with
  | some r, some g =>
    (s.rankIn g).any (fun me => r.sent && decide (piece ∈ r.owed g.members.length me) && (s.coll.closed || s.contribsIn r g me piece))
  | _, _ => false

/-- REDUCE_PIECE_COMBINE: a piece that this member owns is combined once every contribution is in, or the cut-off has passed (R542). -/
def reducePieceCombine (ctx piece : Nat) (s : State) : State :=
  match s.ops.find? (fun o => o.ctx == ctx && o.stage == .started && isOpc .reduce o.desc && s.combines o piece) with
  | none => s
  | some o =>
    match s.run? o.seq, sget (o.desc.param 0 2) s.groups with
    | some r, some g =>
      match s.rankIn g with
      | none => s
      | some me => s.combinePiece o r g me piece
    | _, _ => s

/-- The cut-off at the reduce boundary: pieces owned here are combined, whether or not the REDUCE has run, and contributions carried from the frame before that no REDUCE took are dropped (R34, R376, R378, R542). -/
def State.reduceClose (s : State) : State :=
  let s : State := { s with coll := { s.coll with closed := true } }
  let s := s.each (s.coll.runs.filter (fun r => r.reduce && r.frame == s.frame)) (fun s r =>
    match s.op? r.op, sget r.group s.groups with
    | some o, some g =>
      match s.rankIn g with
      | none => s
      | some me => if o.stage = .started ∨ o.stage = .admitted then s.each (r.owed g.members.length me) (fun s c => s.combinePiece o r g me c) else s
    | _, _ => s)
  let old := s.redCarry.filter (fun x => decide (x.frame < s.frame))
  let s : State := { s with redCarry := s.redCarry.filter (fun x => decide (s.frame ≤ x.frame)) }
  s.each old (fun s x => s.satFld (.schStragglerCnt (s.partOf x.ctx)) F.schStragglerCnt_DROPPED 1)

/-! ### Arrival (R527, R537, R538, R376, R378) -/

/-- Bytes that wait in the staging area for operations that have not been admitted (R537). -/
def State.staged (s : State) : Nat :=
  sumN ((s.coll.pieces.filter (fun p => !p.used && !s.coll.runs.any (fun r => r.group == p.group && r.frame == p.frame && r.ordinal == p.ordinal))).map
    (fun p => sumN (p.parts.map (fun x => x.2.length))))

/-- Whether a piece is a contribution to this package, by its CHUNK alone: no counts, and the piece is owned here (R540, R542). -/
def State.contributes (s : State) (g : Group) (counts : Bool) (piece : Nat) : Bool :=
  !counts && some (pieceOwner g.members.length piece) == s.rankIn g

/-- Pieces that waited for a REDUCE's admission, from a package out of step: its contributions are stragglers (R69). -/
def State.lateHeld (s : State) (r : CollRun) : State :=
  match sget r.group s.groups with
  | none => s
  | some g =>
    s.each (s.coll.pieces.filter (fun p => p.late && !p.used && r.reduce && s.contributes g p.counts p.piece
        && p.group == r.group && p.frame == r.frame && p.ordinal == r.ordinal)) (fun s p =>
      match findIdxN (fun m => m.1 == p.src) 0 g.members, p.data with
      | some rank, some d => s.contribLate r rank p d
      | _, _ => s)

/-- At admission a collective takes its ordinal and begins to be known to arriving pieces (R535, R537). -/
def State.collAdmit (s : State) (o : Op) : State :=
  if isOpc .exchange o.desc || isOpc .reduce o.desc then
    let gid := o.desc.param 0 2
    let n := s.nextOrdinal gid - 1
    let a := o.desc.tensor 32
    let run : CollRun := {
      op := o.seq, ctx := o.ctx, group := gid, frame := s.frame, ordinal := n, reduce := isOpc .reduce o.desc
      fmt := o.desc.param 3 1, elems := a.rows * a.cols, drop := o.drop }
    let s : State := { s with coll := { s.coll with runs := s.coll.runs ++ [run] } }
    (s.modOp o.seq (fun o => { o with ordinal := n })).lateHeld run
  else s

/-- COLLECTIVE: one part of a piece arrives for a frame; `straggler` where R69 makes its sender's contributions late, `band` where it came in the guard band (R69, R72–R74, R527, R537, R538). -/
def State.collectiveIn (s : State) (src ctx gid chunk part : Nat) (last : Bool) (data : List Byte) (frame : Nat) (straggler band : Bool) : State :=
  let drop := fun (s : State) =>
    (s.satFld .schCollDrop F.schCollDrop_COUNT 1).eventW 0x0405 (689 + s.partOf ctx) (some ctx) (some (s.partOf ctx)) gid src
  match sget gid s.groups with
  | none => drop s
  | some g =>
    match findIdxN (fun m => m.1 == src) 0 g.members, s.rankIn g with
    | some rank, some _ =>
      let same := fun (p : CPiece) => p.src == src && p.group == gid && p.frame == frame && p.ordinal == chunk / 2 ^ 24
        && p.counts == bitN chunk 23 && p.piece == chunk % 2 ^ 23
      let old := (s.coll.pieces.find? same).getD
        { src := src, group := gid, frame := frame, ordinal := chunk / 2 ^ 24, counts := bitN chunk 23, piece := chunk % 2 ^ 23 }
      if old.used ∨ (sget part old.parts).isSome then s
      else
        let p : CPiece := { old with
          parts := sput part data old.parts, total := if last then some (part + 1) else old.total,
          band := old.band || band, late := old.late || straggler }
        let s : State := { s with coll := { s.coll with pieces := s.coll.pieces.filter (fun x => !same x) ++ [p] } }
        match s.runOf p, p.data with
        | some r, some d =>
          if r.reduce ∧ s.contributes g p.counts p.piece ∧ (p.late ∨ p.piece ∈ r.combined ∨ frame ≠ s.frame ∨ s.coll.closed) then
            s.contribLate r rank p d
          else s.collTry r.op
        | none, some _ =>
          if frame < s.frame ∧ s.contributes g p.counts p.piece then
            (s.usePiece p).satFld (.schStragglerCnt (s.partOf ctx)) F.schStragglerCnt_DROPPED 1
          else s
        | _, none => s
    | _, _ => drop s

/-- What a collective that is still unfinished at its boundary gets: status 0x30, and a tainted frame (R543, R549). -/
def State.collMissed (s : State) (c : Opc) : State :=
  s.each (s.ops.filter (fun o => isOpc c o.desc && (o.stage == .admitted || o.stage == .started || o.stage == .ran))) (fun s o =>
    let s := (s.modOp o.seq (fun o => { o with late := satAdd 16 o.late 1 })).taintOp o
    s.opFail o.seq 0x30 (satAdd 16 o.late 1))

/-- At a tick, the pieces and runs of frames before the one that ended go; what kind they were is kept while a frame tag can still name them (R74, R75, R376). -/
def State.collTick (s : State) : State :=
  let gone := s.coll.runs.filter (fun r => decide (r.frame + 1 < s.frame))
  { s with coll := { s.coll with
      past := s.coll.past.filter (fun x => decide (s.frame < x.2.1 + 2 ^ 15)) ++ gone.map (fun r => (r.group, r.frame, r.ordinal, r.reduce)),
      pieces := s.coll.pieces.filter (fun p => decide (s.frame ≤ p.frame + 1)),
      runs := s.coll.runs.filter (fun r => decide (s.frame ≤ r.frame + 1)), closed := false } }

end Sys2Proof.Machine
end

