-- ==== Sys2Proof/Machine/Flags.lean ====
section
/-! DEFINITION. The status, FLAGS, DETAIL and AUX of a completion, and the 32 bytes that carry them (ch. 3, R115–R122). -/

namespace Sys2Proof.Machine

/-- STATUS of a completion: 0x01 exactly when the operation succeeded and one of FLAGS bits 2 to 7 is set (R119). -/
def Op.statusByte (o : Op) : Nat := if o.status = 0 ∧ o.flags / 4 % 64 ≠ 0 then 1 else o.status

/-- FLAGS of a completion: PHASE, RERUN and the operation's own bits 2 to 7 (R115, R116). -/
def Op.flagsByte (o : Op) (phase : Bool) : Nat :=
  (if phase then 1 else 0) + (if o.rerun then 2 else 0) + o.flags / 4 % 64 * 4

/-- Whether a completion reports a failure: a status other than 0x00 or 0x01 (R104). -/
def Op.failedSt (o : Op) : Bool := !(o.status == 0 || o.status == 1)

/-- DETAIL of a completion: the number of late errors for status 0x30, but for a COMMIT (R121, R369, R370). -/
def Op.detailField (o : Op) : Nat := if o.status = 0x30 ∧ o.opcode ≠ 0x10 then o.late % 65536 else o.detail % 65536

/-- The 32 bytes of a completion (R115). -/
def Op.completion (o : Op) (phase : Bool) (frame : Nat) : List Byte :=
  toLe 1 o.statusByte ++ toLe 1 o.opcode ++ toLe 2 o.slot ++ toLe 1 (o.flagsByte phase) ++ toLe 1 (o.stretch % 4)
    ++ toLe 2 o.detailField ++ toLe 8 o.tag ++ toLe 8 frame ++ toLe 8 o.aux

end Sys2Proof.Machine
end

