-- ==== Sys2Proof/Machine/Frontend.lean ====
section
/-! DEFINITION. The front-end: fetch, admission, and the start of operations (ch. 3, R31, R32, R84–R112; R430–R432, R440, R441). -/

namespace Sys2Proof.Machine

/-! ### Which command a descriptor belongs to -/

/-- The operation commands of the opcode table: one for each opcode, mode or function that it lists apart. -/
inductive OpCmd where
  | nop | ingest | sample | gather | aggregate | dense | epilogue | loss | scatter | update | updateTable | exchange | reduce | predict
  | copyPlain | copyCompress | copyExpand | copyGroup | versionSwitch | rowReplace | migrateRows | hotSetRefresh | sketchRead
  | fence | commit | signalWrite | signalAdd | signalVector | poolAllocate | poolFree | streamRewind | stragglerPolicy | groupDefine | chartRelease
  deriving DecidableEq, Repr

/-- The command under which a descriptor is fetched; an unassigned code goes with the first command of its opcode, and a reserved opcode with NOP (log entry 11). -/
def Desc.cmd (d : Desc) : OpCmd :=
  match opcOf d.opcode with
  | none => .nop
  | some .nop => .nop
  | some .ingest => .ingest
  | some .sample => .sample
  | some .gather => .gather
  | some .aggregate => .aggregate
  | some .dense => .dense
  | some .epilogue => .epilogue
  | some .loss => .loss
  | some .scatter => .scatter
  | some .update => if d.flag 8 then .updateTable else .update
  | some .exchange => .exchange
  | some .reduce => .reduce
  | some .predict => .predict
  | some .copy => match d.fn with | 1 => .copyCompress | 2 => .copyExpand | 3 => .copyGroup | _ => .copyPlain
  | some .table => match d.fn with | 1 => .rowReplace | 2 => .migrateRows | 3 => .hotSetRefresh | 4 => .sketchRead | _ => .versionSwitch
  | some .fence => .fence
  | some .commit => .commit
  | some .signal => match d.param 12 1 with | 1 => .signalAdd | 2 => .signalVector | _ => .signalWrite
  | some .control => match d.fn with
    | 2 => .poolFree | 3 => .streamRewind | 4 => .stragglerPolicy | 5 => .groupDefine | 6 => .chartRelease | _ => .poolAllocate

/-! ### Phases of operations (R100) -/

/-- The first phase in which an operation may start. -/
def startPhase (d : Desc) : Opc → Nat
  | .ingest => 1
  | .fence | .signal | .control => 2
  | o => opPhase d o

/-- The start of that phase, in ns after the tick: S_ph of R430. -/
def State.phaseStart (s : State) (d : Desc) (o : Opc) : Nat := s.boundary (startPhase d o - 1)

/-! ### The budget of a frame (R430–R432) -/

/-- Where the work of the fused update units starts and what each task takes of it: 64 KiB of slot A, or 256 accumulators of the first shard that this package owns (R350, R420, R429). -/
def State.updateUnit (s : State) (x : Ctx) (d : Desc) (o : Opc) : Nat × Nat :=
  if o ≠ .update then (0, 0)
  else if d.flag 8 then
    let t := s.tblAt (dField d 32 8)
    ((s.ownShards x.id t).head?.elim 0 (fun e => e.2.gradKey t 0), 256 * t.gradPitch)
  else (localKey (dField d 32 8), 65536)

/-- What the front-end takes into its estimates beside the descriptor: the rows of an UPDATE of a table and what each of them moves, or the cost of a program (R324, R363, R420; log entry 28). -/
def State.workCost (s : State) (x : Ctx) (d : Desc) (o : Opc) : Nat × Nat :=
  if o = .update ∧ d.flag 8 then s.updateReach x.id d else s.progCost x d o

/-- Charges of an operation's tasks, by region, at each region's state (R430). -/
def State.charges (s : State) (p : Nat) (d : Desc) (o : Opc) (k : Nat × Nat) : Nat :=
  sumN ((List.range (taskCount d o k)).map (fun t => chargeAt (boundOf (taskEnergy (taskWork d o k t))) (s.pstate (s.placeTask p d o t / 8))))

/-- Usable cores of a partition. -/
def State.usableCores (s : State) (p : Nat) : Nat := sumN ((s.regionsOf p).map s.coresOf)

/-- Clock state of the slowest region of a partition. -/
def State.slowest (s : State) (p : Nat) : Nat := ((s.regionsOf p).map s.pstate).foldl max 0

/-- Whether `cycles` fit between the start of an operation's phase and its deadline on the partition's cores (R430). -/
def State.timeFits (s : State) (p : Nat) (d : Desc) (o : Opc) (cycles : Nat) : Bool :=
  let c := 3000 * s.usableCores p
  decide (cycles * cycle3 (s.slowest p) + s.phaseStart d o * c ≤ s.deadlineOf d o * c)

/-- The sum of a descriptor's task estimates (R430). -/
def sumCycles (d : Desc) (o : Opc) (k : Nat × Nat) : Nat := sumN ((List.range (taskCount d o k)).map (fun t => taskCycles (taskWork d o k t)))

/-- The partition's free credit less the charges of operations admitted and not yet split (R430). -/
def State.partCredit (s : State) (p : Nat) : Nat :=
  sumN ((s.regionsOf p).map s.freeCredit) - sumN ((s.ops.filter (fun o => o.part == p)).map Op.charge)

/-- The partition's refill: the sum over its regions (R431, R432). -/
def State.partRefill (s : State) (p : Nat) : Nat := sumN ((s.regionsOf p).map s.refill)

/-- A descriptor that could not be admitted even into an empty frame (R431). -/
def State.neverFits (s : State) (p : Nat) (d : Desc) (o : Opc) (k : Nat × Nat) : Bool :=
  decide (s.partRefill p < s.charges p d o k) || !s.timeFits p d o (sumCycles d o k)

/-- Both conditions of R430, and the credit quota of R432. -/
def State.fitsNow (s : State) (x : Ctx) (p : Nat) (d : Desc) (o : Opc) : Bool :=
  let k := s.workCost x d o
  let e := s.charges p d o k
  let q := F.ctxQuota_QUOTA_CREDIT.get x.quota
  decide (e ≤ s.partCredit p) && s.timeFits p d o (sgetD (startPhase d o) 0 (s.part p).admT + sumCycles d o k)
    && (q == 0 || decide ((x.charge + e) * 256 ≤ q * s.partRefill p))

/-! ### Overlap of outputs with inputs (R107, R108) -/

/-- Whether the front-end counts a descriptor's outputs as carrying IN_PLACE (R107). -/
def countsInPlace (d : Desc) (o : Opc) : Bool := d.flag 0 || o == .update || isTable 1 d

/-- The input ranges that the front-end records for a descriptor of a context: tensors, programs, the fan-out table and the optimiser block (R107). -/
def State.readRanges (s : State) (c : Nat) (d : Desc) (o : Opc) : List (Nat × Nat) :=
  let named : List (Nat × Nat) := (d.slotsAt o).filterMap (fun y => match y.2 with
    | .program opt => if opt && dField d y.1 16 == 0 then none else some (dField d y.1 8, 4 * dField d (y.1 + 8) 2)
    | .addr => if o = .sample then some (dField d y.1 8, 64) else none
    | _ => none)
  let block : List (Nat × Nat) := if o = .update then [(dField d 112 8, 64)] else []
  (d.inRanges o ++ named ++ block).map (fun r => (s.canon c r.1, r.2))

/-- Whether an output range meets an input range recorded for the frame, or the record is full (R107, R108). -/
def State.overlaps (s : State) (p c : Nat) (d : Desc) (o : Opc) : Bool :=
  let out := d.outRanges o
  let ins := (s.part p).inputs
  !countsInPlace d o && !out.isEmpty && (decide (256 ≤ ins.length) ||
    out.any (fun r => ins.any (fun i => overlap (s.canon c r.1) r.2 i.1 i.2)))

/-! ### Checks of the front-end's own operations -/

/-- Checks of a sync word: aligned, in space 1 of a package that can be reached (R456, R84). -/
def State.syncWordFails (s : State) (a : Nat) : List Fail :=
  failIf (a % 4 != 0 || !(spaceOf a == 1 || (spaceOf a == 4 && bitN (offOf a) 43))) 0x15 112 ++ failIf (!s.reachable (pkgOf a)) 0x22 112

/-- Checks of SIGNAL (R456, R589). -/
def State.signalFails (s : State) (x : Ctx) (d : Desc) : List Fail :=
  if d.param 12 1 = 2 then failIf (d.param 13 2 ≥ (if s.fnOf x.id = 0 then 2048 else 8)) 0x15 125 else s.syncWordFails (d.param 0 8)

/-- Checks of FENCE (R456). -/
def State.fenceFails (s : State) (d : Desc) : List Fail := if d.param 0 8 = 0 then [] else s.syncWordFails (d.param 0 8)

/-- Checks of CONTROL (R375, R383, R386, R525, R758, R84). -/
def State.controlFails (s : State) (x : Ctx) (d : Desc) : List Fail :=
  let arg := d.param 4 4
  match d.fn with
  | 1 => failIf (arg = 0) 0x15 116
  | 3 => failIf (arg ≥ 2 ^ 31) 0x15 116 ++ failIf (d.param 8 8 % 2 ^ 24 != 0 || decide (2 ^ 59 ≤ d.param 8 8)) 0x15 120
      ++ failIf (!s.streamRoom (s.partOf x.id) arg) 0x24 116
  | 4 => failIf (arg > 1) 0x15 116
  | 5 => s.groupDefineFails x d
  | 6 => failIf (s.chart? x.id arg).isNone 0x23 116
  | _ => []

/-- Checks of COMMIT (R109, R110). -/
def State.commitFails (s : State) (x : Ctx) : List Fail :=
  let p := s.partOf x.id
  failIf (s.fld (.hstPartCtrl p) F.hstPartCtrl_PRIMARY != x.id) 0x25 0 ++ failIf (s.part p).commit.isSome 0x18 0

/-- Blocks of words that a DENSE under STOCH_ROUND takes: one for each tile (R307, R383). -/
def stochBlocks (d : Desc) (o : Opc) : Nat :=
  if o = .dense ∧ d.flag 12 then
    let y := d.tensor 64
    cdiv y.rows (shapeOf (d.tensor 32) (d.tensor 48)).tileRows * cdiv y.cols 16
  else 0

/-- Checks of STREAM_ID (R383, R384). -/
def State.streamFails (s : State) (p : Nat) (d : Desc) (o : Opc) : List Fail :=
  failIf (decide (2 ^ 31 ≤ d.streamId) || decide (2 ^ 32 < stochBlocks d o)) 0x15 24
  ++ failIf (d.streamId != 0 && !s.streamRoom p d.streamId) 0x24 24

/-- The check of the undo reservation (R364). -/
def State.undoFails (s : State) (x : Ctx) (d : Desc) (o : Opc) : List Fail :=
  let p := s.partOf x.id
  let n := s.undoNeed x d o
  failIf (decide (n.1 ≠ 0) && decide (s.fld (.schUndoSize p) F.schUndoSize_UNITS * 65536 < s.fld (.schUndoStatus p) F.schUndoStatus_RESERVED * 64 + n.1)) 0x24 n.2

/-- The checks of the chapter of each operation. -/
def State.familyFails (s : State) (x : Ctx) (d : Desc) (num : Nat) : Opc → List Fail
  | .nop => []
  | .ingest => s.ingestFails x d
  | .sample => s.sampleFails x d
  | .gather => s.gatherFails x d
  | .aggregate => s.aggregateFails x d
  | .dense => denseFails d
  | .epilogue => s.epilogueFails x d
  | .loss => []
  | .scatter => s.scatterFails x d
  | .update => s.updateFails x d num
  | .exchange => s.exchangeFails x d
  | .reduce => s.reduceFails x d
  | .predict => predictFails d
  | .copy => copyFails d
  | .table => s.tableOpFails x d
  | .fence => s.fenceFails d
  | .commit => s.commitFails x
  | .signal => s.signalFails x d
  | .control => s.controlFails x d

/-- In harbour mode only FP32, BF16 and the index formats may be named, in references and in table descriptors (R669). -/
def State.harbourFails (s : State) (d : Desc) (o : Opc) : List Fail :=
  let no := fun e => decide (2 ≤ e) && decide (e ≤ 6)
  if s.fld .devStatus F.devStatus_STAGE ≠ 5 then []
  else
    (d.tensors o).flatMap (fun x => failIf (no x.1.elem) 0x14 (x.1.off + 11))
    ++ (d.slotsAt o).flatMap (fun y =>
        failIf (y.2 == .table && no (s.tblAt (dField d y.1 8)).rowT.elem) 0x14 48)

/-- Checks 1 and 2: the versions of the descriptor and of its ring (R3, R4, R84). -/
def versionFails (x : Ctx) (d : Desc) : List Fail :=
  failIf (decide (d.version / 16 < 3) || decide (x.version / 16 < 3)) 0x10 0
  ++ failIf (decide (0x30 < d.version) || decide (0x30 < x.version)) 0x11 0

/-- Every check of R84, for a descriptor that context `x` fetched as its `num`th. -/
def State.admissionFails (s : State) (x : Ctx) (d : Desc) (num : Nat) : List Fail :=
  let p := s.partOf x.id
  let o := opcOf d.opcode
  versionFails x d ++ reservedFails d o ++ codeFails d o ++ s.placeFails p d ++ depFails x d
  ++ (match o with
    | none => []
    | some o => formatFails d o ++ s.harbourFails d o ++ limitFails d o ++ flagRuleFails d o ++ spaceFails d o ++ s.accessFails x d o
        ++ s.familyFails x d num o ++ s.streamFails p d o ++ s.undoFails x d o)

/-- The status and DETAIL of a descriptor that admission refuses (R84, R121, R431). -/
def State.refusal (s : State) (x : Ctx) (d : Desc) (num : Nat) : Option Fail :=
  match firstFail (s.admissionFails x d num) with
  | some f => some f
  | none =>
    match opcOf d.opcode with
    | none => none
    | some o => if s.neverFits (s.partOf x.id) d o (s.workCost x d o) then some (0x15, 0) else none

/-! ### Fetching (R31, R32, R432, R440, R441, R453, R561, R584) -/

/-- The descriptor at a ring's next submission index. -/
def State.nextDesc (s : State) (x : Ctx) : Desc :=
  BitVec.ofNat 1024 (leBytes (s.ctxRd x.id (x.sqAddr + 128 * (x.fetched % 2 ^ x.sqLog2)) 128))

/-- Operations of a context that are fetched and not completed. -/
def State.opsOf (s : State) (c : Nat) : List Op := s.ops.filter (fun o => o.ctx == c)

/-- Operations of a partition that are admitted and not fully split (R440). -/
def State.unsplit (s : State) (p : Nat) : Nat := (s.ops.filter (fun o => o.part == p && o.tasksLeft != 0)).length

/-- Whether a partition takes descriptors in this frame's intake. -/
def State.partTakes (s : State) (p : Nat) : Bool :=
  let x := s.part p
  s.frm.phase == .intake && s.bit .frmCtrl F.frmCtrl_ENABLE && s.bit (.hstPartCtrl p) F.hstPartCtrl_ACTIVE
    && !s.pwr.noAdmit && s.fld .pwrStatus F.pwrStatus_STATE == 0
    && x.stretch == 0 && !x.stopped && !x.recovering && !x.restoring && decide (s.unsplit p < 16)

/-- Whether the front-end may fetch the next descriptor of a context's ring. -/
def State.fetchable (s : State) (c : Nat) : Bool :=
  match s.ctx? c with
  | none => false
  | some x =>
    let p := s.partOf c
    let q := F.ctxQuota_QUOTA_OPS.get x.quota
    s.partTakes p && (s.part p).rerun.isEmpty
    && s.bit (.ctxCtrl c) F.ctxCtrl_ENABLE && !s.bit (.ctxStatus c) F.ctxStatus_RESET_BUSY && s.fld (.ctxStatus c) F.ctxStatus_ERR != 7
    && x.tail != x.fetched % 2 ^ x.sqLog2
    && decide (x.notBefore ≤ s.frame)
    && (spaceOf x.sqAddr != 2 || s.hostUp)
    && decide (x.unread + (s.opsOf c).length < 2 ^ x.cqLog2)
    && (q == 0 || decide (x.ops < q))

/-- Contexts of a partition in service, rising. -/
def State.ctxsOf (s : State) (p : Nat) : List Nat := (s.ctxs.map Prod.fst).filter (fun c => s.partOf c == p)

/-- The context whose turn it is: the first fetchable one of the partition, cyclically from the turn kept (R432). -/
def State.turnOf (s : State) (p : Nat) : Option Nat :=
  let l := (s.ctxsOf p).filter s.fetchable
  ((l.filter (fun c => decide ((s.part p).turn ≤ c))) ++ l).head?

/-! ### Admission (R44, R85, R363, R384–R386, R440) -/

/-- A descriptor is held: neither it nor a later one of its ring is admitted in this frame (R83, R107, R245, R430). -/
def State.holdRing (s : State) (x : Ctx) : State :=
  (s.setCtx { x with notBefore := s.frame + 1 }).dropWait (fun w => match w with | .fetching c _ => c == x.id | .msg .. => false)

/-- Whether a passing descriptor must wait for a later frame. -/
def State.held (s : State) (x : Ctx) (d : Desc) (o : Opc) : Bool :=
  let p := s.partOf x.id
  (d.flag 5 && x.lastAdm == some s.frame) || s.overlaps p x.id d o || !s.fitsNow x p d o

/-- A standby's time from adopting its alias to its first admitted frame counts as unavailable (R662). -/
def State.standbyServes (s : State) : State :=
  match s.shoal.aliasAt with
  | none => s
  | some t => ({ s with shoal := { s.shoal with aliasAt := none } } : State).wrapFld .rasUnavail F.rasUnavail_NS (s.frm.now - t)

/-- The ring moves on by one descriptor (R32, R581). -/
def State.advance (s : State) (x : Ctx) (charge : Nat) (admitted : Bool) : State :=
  let x := { x with
    fetched := x.fetched + 1, exposed := x.exposed.filter (fun e => decide (x.fetched + 1 < e.1)), ops := x.ops + (if admitted then 1 else 0), charge := x.charge + charge,
    lastAdm := if admitted then some s.frame else x.lastAdm }
  let s : State := (s.setCtx x).dropWait (fun w => match w with | .fetching c _ => c == x.id | .msg .. => false)
  let s := s.setFld (.ctxStatus x.id) F.ctxStatus_SQ_HEAD (x.fetched % 2 ^ x.sqLog2)
  let s := if admitted then s.standbyServes else s
  s.modPart (s.partOf x.id) (fun p => { p with turn := x.id + 1 })

/-- Bytes that an operation's run takes as they are at admission: a graph's descriptor, the type fan-out table, the optimiser block, a program, a staged descriptor (R135, R162, R243, R323, R352). -/
def State.heldBytes (s : State) (x : Ctx) (d : Desc) : Opc → List Byte
  | .sample => s.sampleHeld x d
  | .ingest => if d.flag 8 then (match s.graphGot x (dField d 48 8) with | .bytes g => g | _ => []) else []
  | .update => s.rd (dField d 112 8) 64
  | .epilogue => s.progHeld x d
  | .aggregate => if d.slotRaw 4 = 0 then [] else s.progHeld x d
  | .table => if d.fn = 0 then s.opRd (s.admitOp x) (dField d 48 8) 256 else []
  | _ => []

/-- What admission must still read of other packages and of flash for a descriptor's checks (R135, R162, R243). -/
def State.admitWants (s : State) (x : Ctx) (d : Desc) : Opc → List (Nat × Nat)
  | .epilogue => s.progWants x d
  | .aggregate => if d.slotRaw 4 = 0 then [] else s.progWants x d
  | .sample => s.sampleWants x d
  | .ingest => if d.flag 8 then s.graphWants x (dField d 48 8) else []
  | .table =>
    let a := dField d 48 8
    if d.fn = 0 ∧ spaceOf a < 5 ∧ s.rangeFail x a 256 true false = none ∧ s.admGet x a 256 = .unread then [(a, 256)] else []
  | _ => []

/-- What admission reads of this package's memory for a descriptor's checks, as far as the access checks let it (R135, R162, R243, R352, R401). -/
def State.admitLocal (s : State) (x : Ctx) (d : Desc) : Opc → List (Nat × Nat)
  | .sample => (dField d 32 8, 64 + 64 * relationsOf (s.opRd (s.admitOp x) (dField d 32 8) 64)) :: (if d.typed then [(dField d 96 8, 64)] else [])
  | .ingest => if d.flag 8 then [(dField d 48 8, 64 + 64 * relationsOf (s.opRd (s.admitOp x) (dField d 48 8) 64))] else []
  | .update => [(dField d 112 8, 64)]
  | .table => if d.fn = 0 then [(dField d 48 8, 256)] else []
  | .epilogue => [(dField d 96 8, 4 * dField d 104 2)]
  | .aggregate => if d.slotRaw 4 = 0 then [] else [(dField d 96 8, 4 * dField d 104 2)]
  | _ => []

/-- An operation is admitted: its tasks, stream position, reservations and records (R85, R107, R190, R245, R363, R385, R535). -/
def State.enter (s : State) (o : Op) (opc : Opc) : State :=
  let d := o.desc
  let p := o.part
  let pos := s.takeStream p d.streamId
  let s := pos.2
  let n := taskCount d opc o.pcost
  let e := s.charges p d opc o.pcost
  let u := (s.undoNeed (s.ctx o.ctx) d opc).1
  let o := { o with
    seq := s.nextSeq, frame := s.frame, stage := .admitted, pos := pos.1, tasksLeft := n, charge := e, undo := u,
    drop := if o.rerun then o.drop else (s.ctx o.ctx).drop, seed := if o.rerun then o.seed else (s.part p).seed }
  let s : State := { s with ops := s.ops ++ [o], nextSeq := s.nextSeq + 1 }
  let s := s.setFld (.schUndoStatus p) F.schUndoStatus_RESERVED (s.fld (.schUndoStatus p) F.schUndoStatus_RESERVED + cdiv u 64)
  let ph := startPhase d opc
  let ranges := s.readRanges o.ctx d opc
  let s := s.modPart p (fun x => { x with
    inputs := (x.inputs ++ ranges).take 256, admT := smod ph 0 (· + sumCycles d opc o.pcost) x.admT
    commit := if opc = .commit then some o.ctx else x.commit })
  let s := if opc = .gather then s.chartAdmit o else s
  let s := (s.switchAdmit o).nameGraph o
  let s := s.collAdmit o
  let s := match (d.slotsAt opc).find? (fun y => y.2 == .table) with
    | some y => s.learnTable o.ctx (dField d y.1 8)
    | none => s
  let s := if opc = .control ∧ d.fn = 3 then s.rewind p (d.param 4 4) (d.param 8 8) else s
  let s := if opc = .control ∧ d.fn = 4 then s.setCtx { s.ctx o.ctx with drop := d.param 4 4 == 1 } else s
  let s := if opc = .commit then s.setCtx { s.ctx o.ctx with notBefore := s.frame + 1 } else s
  s.splitMore p

/-- The operation of a descriptor that a context fetches now. -/
def State.newOp (s : State) (x : Ctx) (d : Desc) : Op :=
  { (default : Op) with
    aux := (opcOf d.opcode).elim 0 auxInit
    seq := s.nextSeq, ctx := x.id, part := s.partOf x.id, slot := x.fetched % 2 ^ x.sqLog2, num := x.fetched, desc := d, frame := s.frame, stage := .admitted }

/-- A descriptor that fails a check only completes (R85). -/
def State.refuse (s : State) (x : Ctx) (d : Desc) (f : Fail) : State :=
  let o := { s.newOp x d with stage := .refused, status := f.1, detail := f.2 }
  ({ s with ops := s.ops ++ [o], nextSeq := s.nextSeq + 1 } : State).advance x 0 false

/-- What a descriptor names elsewhere is read, unless the reads are out already; the ring waits for them (R135, R162, R243). -/
def State.admitRead (s : State) (x : Ctx) (l : List (Nat × Nat)) : State :=
  match s.wait? (.fetching x.id x.fetched) with
  | some w => if w.ended then s.waitFor (.fetching x.id x.fetched) x.id l else s
  | none => s.waitFor (.fetching x.id x.fetched) x.id l

/-- Fetch, check and admit the next descriptor of a context, or complete or hold it: its version first, then the hold of R245 and the translations of check 12, then the other checks (R84, R85, R245, R430–R432; log entry 73). -/
def State.fetchOne (s : State) (x : Ctx) (d : Desc) : State :=
  match firstFail (versionFails x d) with
  | some f => s.refuse x d f
  | none =>
  if s.tableHeld d then s.holdRing x
  else
    let s := match opcOf d.opcode with | some o => s.translateDesc x d o | none => s
    let found := s.refusal x d x.fetched
    match opcOf d.opcode with
    | none => match found with | some f => s.refuse x d f | none => s
    | some o =>
      if found.any (fun f => decide (f.1 < 0x15)) then match found with | some f => s.refuse x d f | none => s
      else
        let want := s.admitWants x d o
        if !want.isEmpty then s.admitRead x want
        else
          match s.badBurst ((s.admitLocal x d o).filter (fun r => (s.rangeFail x r.1 r.2 true false).isNone)) with
          | some b => s.frameFault (s.partOf x.id) b
          | none =>
            match found with
            | some f => s.refuse x d f
            | none =>
              if s.held x d o then s.holdRing x
              else
                let n := { s.newOp x d with held := s.heldBytes x d o, pcost := s.workCost x d o, unit := s.updateUnit x d o }
                (s.advance x (s.charges (s.partOf x.id) d o n.pcost) true).enter n o

/-- The next operation of a re-run is admitted again, whole and unchecked, with the seed and the straggler policy of its first admission; a refused one stays refused (R44–R46, R375). -/
def State.readmit (s : State) (p : Nat) (o : Op) (rest : List Op) : State :=
  let s := s.modPart p (fun x => { x with rerun := rest })
  let o := { o with rerun := true, undo := 0, seq := s.nextSeq, frame := s.frame }
  if o.stage = .refused then { s with ops := s.ops ++ [o], nextSeq := s.nextSeq + 1 }
  else
    match opcOf o.opcode with
    | none => s
    | some opc => s.enter o opc

/-- An operation command, admission: the context's next descriptor is fetched when it is this command's and the context's turn has come; a re-run goes first (log entry 11). -/
def State.admitCmd (s : State) (k : OpCmd) (c : Nat) : State :=
  match s.ctx? c with
  | none => s
  | some x =>
    let p := s.partOf c
    match (s.part p).rerun with
    | o :: rest => if o.ctx = c ∧ o.desc.cmd = k ∧ s.partTakes p then s.readmit p o rest else s
    | [] =>
      if s.turnOf p = some c ∧ (s.nextDesc x).cmd = k then s.fetchOne x (s.nextDesc x) else s

/-! ### The start of operations (R101–R105) -/

/-- How a predecessor stands: not finished, finished well, or failed (R103, R104). -/
inductive Pred where
  | waits | done | failed
  deriving DecidableEq, Repr

/-- The predecessor of an operation at a distance. -/
def State.predAt (s : State) (o : Op) (dist : Nat) : Pred :=
  if dist = 0 ∨ o.num < dist then .done
  else
    match (s.opsOf o.ctx).find? (fun x => x.num == o.num - dist) with
    | some x =>
      if x.stage = .refused then .failed
      else if x.stage ≠ .finished then .waits
      else if x.failedSt then .failed else .done
    | none => if (o.num - dist) ∈ (s.ctx o.ctx).failed then .failed else .done

/-- Whether an earlier FENCE of the ring has not finished (R105). -/
def State.fenced (s : State) (o : Op) : Bool :=
  (s.opsOf o.ctx).any (fun x => x.opcode == 15 && decide (x.num < o.num) && x.stage != .finished && x.stage != .refused)

/-- Whether the phase lets an operation start; one of a stretched frame starts in any phase (R51, R100). -/
def State.phaseOk (s : State) (o : Op) (opc : Opc) : Bool :=
  decide (startPhase o.desc opc ≤ phaseNo s.frm.phase) || (decide (0 < (s.part o.part).stretch) && s.frm.phase != .idle)

/-- Place the watch of a FENCE on a word of this package, or have the word polled (R468). -/
def State.placeWatch (s : State) (o : Op) : State :=
  let a := o.desc.param 0 8
  if a = 0 then s
  else if s.isOwn (pkgOf a) then
    let w : Watch := ⟨syncKey a, o.desc.param 8 4, o.desc.param 12 1, o.seq⟩
    if sramSize < offOf (remoteOff a) % 2 ^ 43 + 4 then s.modOp o.seq (fun o => { o with await := 1 })
    else if syncCond w.cond (s.word w.key) w.value then s
    else
      let s := s.modOp o.seq (fun o => { o with await := 1 })
      if s.sync.watches.length < 256 then { s with sync := { s.sync with watches := s.sync.watches ++ [w] } }
      else { s with sync := { s.sync with polls := s.sync.polls ++ [w] } }
  else s.modOp o.seq (fun o => { o with await := 1 })

/-- Start an operation, or end it for a failed predecessor (R104). -/
def State.startOp (s : State) (o : Op) (opc : Opc) : State :=
  let a := s.predAt o o.desc.depA
  let b := s.predAt o o.desc.depB
  if a = .failed ∨ b = .failed then
    let s := s.dropTasks (fun t => t.op == o.seq)
    s.modOp o.seq (fun o => { o with
      stage := .finished, status := 0x33, tasksLeft := 0, charge := 0, detail := if a = .failed then o.desc.depA else o.desc.depB })
  else
    let s := s.modOp o.seq (fun o => { o with stage := .started })
    if opc = .fence then s.placeWatch { o with stage := .started }
    else if opc = .scatter then (s.placeReplay o.seq).each (s.regionsOf o.part) State.queueRegs
    else s

/-- Whether an admitted operation's predecessors and FENCEs let it start. -/
def State.mayStart (s : State) (o : Op) (opc : Opc) : Bool :=
  o.stage == .admitted && s.phaseOk o opc && s.predAt o o.desc.depA != .waits && s.predAt o o.desc.depB != .waits && !s.fenced o

/-- PRIMARY_OPERATION_START: the partition's oldest primary operation starts when the one before it has finished, and the L0 caches of its cores are empty (R101, R396). -/
def primaryStart (p : Nat) (s : State) : State :=
  match s.ops.find? (fun o => o.part == p && o.isPrimary && o.stage != .refused && o.stage != .finished) with
  | none => s
  | some o =>
    match opcOf o.opcode with
    | none => s
    | some opc => if s.mayStart o opc then (s.startOp o opc).l0Part p else s

/-- Whether a COMMIT may start: every other operation of its partition has finished (R368). -/
def State.commitMay (s : State) (o : Op) : Bool :=
  s.ops.all (fun x => x.part != o.part || x.seq == o.seq || x.stage == .finished || x.stage == .refused)

/-- Whether an operation is a secondary one that may start. -/
def State.secondaryMay (s : State) (o : Op) : Bool :=
  match opcOf o.opcode with
  | some opc => !primary opc && s.mayStart o opc && (opc != .commit || s.commitMay o)
  | none => false

/-- SECONDARY_OPERATION_START: the oldest secondary operation of a context that may start does (R102, R105, R368). -/
def secondaryStart (c : Nat) (s : State) : State :=
  match (s.opsOf c).find? s.secondaryMay with
  | none => s
  | some o => match opcOf o.opcode with
    | none => s
    | some opc => s.startOp o opc

/-! ### The front-end's own operations (R105, R106, R457, R589, R123, R190, R758) -/

/-- NOP, run: it finishes (R100). -/
def nopOp (ctx : Nat) (s : State) : State := s.runOp ctx (isOpc .nop) (fun _ _ => []) (fun o s => s.opEnd o.seq 0 false)

/-- Whether every earlier descriptor of a ring has finished, with all their posted writes acknowledged under DRAIN (R105). -/
def State.fenceClear (s : State) (o : Op) : Bool :=
  (s.opsOf o.ctx).all (fun x => decide (o.num ≤ x.num) || x.stage == .finished || x.stage == .refused)
    && (!o.desc.flag 8 || s.ackedBefore o.ctx o.seq)

/-- FENCE, run: it finishes once everything it waits for has come about, and the L0 caches of its partition's cores are empty (R105, R396, R468). -/
def fenceOp (ctx : Nat) (s : State) : State :=
  match s.readyTarget ctx (isOpc .fence) with
  | none => s
  | some o => if s.fenceClear o then (s.opEnd o.seq 0 false).l0Part o.part else s

/-- A SIGNAL that writes or adds to a sync word (R457, R391, R219). -/
def State.signalWord (s : State) (o : Op) (add : Bool) : State :=
  let a := o.desc.param 0 8
  let v := o.desc.param 8 4
  if s.isOwn (pkgOf a) then
    if sramSize < remoteOff a % 2 ^ 43 + 4 then
      if o.desc.flag 2 then
        let p := o.part
        (s.eventW 0x0402 (689 + p) (some o.ctx) (some p) 1 (a + o.tag * 2 ^ 64)).opEnd o.seq 0 false
      else s.opFail o.seq 0x20 112
    else
      let k := syncKey a
      (s.store k (toLe 4 (if add then s.word k + v else v))).opEnd o.seq 0 false
  else
    let s := s.post (some o.seq) o.ctx (pkgOf a) (.postedWrite o.ctx (o.desc.flag 2) (opHandle o.seq) 0 (remoteOff a) add (toLe 4 v))
    s.opEnd o.seq 0 false

/-- Whether a descriptor is a SIGNAL of a KIND. -/
def isSignal (k : Nat) (d : Desc) : Bool := isOpc .signal d && d.param 12 1 == k

/-- SIGNAL KIND 0, run (R457). -/
def signalWriteOp (ctx : Nat) (s : State) : State := s.runOp ctx (isSignal 0) (fun _ _ => []) (fun o s => s.signalWord o false)

/-- SIGNAL KIND 1, run (R457). -/
def signalAddOp (ctx : Nat) (s : State) : State := s.runOp ctx (isSignal 1) (fun _ _ => []) (fun o s => s.signalWord o true)

/-- SIGNAL KIND 2, run: the vector of the context's function is raised (R589, R590). -/
def signalVectorOp (ctx : Nat) (s : State) : State :=
  s.runOp ctx (isSignal 2) (fun _ _ => []) (fun o s =>
    let f := s.fnOf o.ctx
    let v := o.desc.param 13 2
    (s.raiseVector f v (s.vecIdle f v) none).opEnd o.seq 0 false)

/-- Whether a descriptor is a CONTROL of a FUNCTION. -/
def isControl (f : Nat) (d : Desc) : Bool := isOpc .control d && d.fn == f

/-- Pool units of a partition (R758). -/
def State.poolUnits (s : State) (p : Nat) : Nat := s.fld (.schPoolSize p) F.schPoolSize_UNITS * 1024

/-- The lowest free run of a pool that holds `n` units: the search goes up past one buffer at a time (R758). -/
def firstFit (l : List Buf) (units n : Nat) : Nat → Nat → Option Nat
  | 0, _ => none
  | k + 1, a =>
    if units < a + n then none
    else match l.find? (fun b => overlap a n b.unit b.units) with
      | none => some a
      | some b => firstFit l units n k (b.unit + b.units)

/-- Whether no pool CONTROL of the partition that was admitted earlier is still to take effect (R758). -/
def State.poolTurn (s : State) (o : Op) : Bool :=
  !s.ops.any (fun x => x.part == o.part && x.desc.poolControl && decide (x.seq < o.seq)
    && (x.stage == .admitted || x.stage == .started))

/-- Base of a partition's pool: a global address of space 0. -/
def State.poolBase (s : State) (p : Nat) : Nat := s.fld (.schPoolBase p) F.schPoolBase_BASE * 65536

/-- The address of a pool's unit. -/
def State.poolAddr (s : State) (p u : Nat) : Nat := s.poolBase p + 64 * u

/-- The buffer takes its units from the pool (R758). -/
def State.poolTake (s : State) (o : Op) (a : Nat) : State :=
  let n := o.desc.param 4 4
  let lo := s.poolAddr o.part a
  s.modPart o.part (fun x => { x with
    pool := x.pool ++ [⟨a, n, o.ctx, o.tag⟩], freed := x.freed.filter (fun f => !(decide (lo ≤ f) && decide (f < lo + 64 * n))) })

/-- POOL_ALLOCATE, run: the lowest free run, or status 0x42; a re-run keeps the buffer that it has (R758). -/
def poolAllocateOp (ctx : Nat) (s : State) : State :=
  s.runOp ctx (isControl 1) (fun _ _ => []) (fun o s =>
    if !s.poolTurn o then s
    else
      match o.prog with
      | [aux] => s.opEnd o.seq aux false
      | _ =>
        let p := s.part o.part
        match firstFit p.pool (s.poolUnits o.part) (o.desc.param 4 4) (p.pool.length + 1) 0 with
        | none => s.opFail o.seq 0x42 0
        | some a => (s.poolTake o a).opEnd o.seq (s.poolAddr o.part a) false)

/-- The unit that an address names in a partition's pool (R758). -/
def State.poolUnit (s : State) (p a : Nat) : Option Nat :=
  if s.poolBase p ≤ a ∧ (a - s.poolBase p) % 64 = 0 ∧ (a - s.poolBase p) / 64 < s.poolUnits p then some ((a - s.poolBase p) / 64) else none

/-- The buffer's units return to the pool (R123). -/
def State.poolGive (s : State) (o : Op) (u : Nat) : State :=
  s.modPart o.part (fun x => { x with pool := x.pool.filter (fun y => y.unit ≠ u), freed := insertNew (s.poolAddr o.part u) x.freed })

/-- POOL_FREE, run: the owner's buffer is freed; a wrong owner or a double free changes nothing and is logged; a re-run frees nothing again (R123, R758; log entry 70). -/
def poolFreeOp (ctx : Nat) (s : State) : State :=
  s.runOp ctx (isControl 2) (fun _ _ => []) (fun o s =>
    if !s.poolTurn o then s
    else if !o.prog.isEmpty then s.opEnd o.seq 0 false
    else
      let a := o.desc.param 8 8
      let p := s.part o.part
      let wrong := (s.eventW 0x0403 (689 + o.part) (some o.ctx) (some o.part) 0 a).opFail o.seq 0x40 0
      match s.poolUnit o.part a with
      | none => wrong
      | some u =>
        match p.pool.find? (fun b => b.unit == u) with
        | some b => if b.ctx = o.ctx ∧ b.tag = o.tag then (s.poolGive o u).opEnd o.seq 0 false else wrong
        | none =>
          if a ∈ p.freed then (s.eventW 0x0404 (689 + o.part) (some o.ctx) (some o.part) 0 a).opFail o.seq 0x41 0
          else wrong)

/-- RANDOM_STREAM_REWIND, run: the position took effect at admission (R386). -/
def streamRewindOp (ctx : Nat) (s : State) : State := s.runOp ctx (isControl 3) (fun _ _ => []) (fun o s => s.opEnd o.seq 0 false)

/-- STRAGGLER_POLICY, run: the policy took effect at admission (R375). -/
def stragglerPolicyOp (ctx : Nat) (s : State) : State := s.runOp ctx (isControl 4) (fun _ _ => []) (fun o s => s.opEnd o.seq 0 false)

/-- CHART_RELEASE, run: the gather record and its units are free; one released since the admission ends the operation with status 0x23 (R120, R190). -/
def chartReleaseOp (ctx : Nat) (s : State) : State :=
  s.runOp ctx (isControl 6) (fun _ _ => []) (fun o s =>
    if (s.chart? o.ctx (o.desc.param 4 4)).isNone then s.opFail o.seq 0x23 116
    else (s.freeCharts (fun c => c.ctx == o.ctx && c.id == o.desc.param 4 4)).opEnd o.seq 0 false)

end Sys2Proof.Machine
end

