-- ==== Sys2Proof/Machine/Commit.lean ====
section
/-! DEFINITION. COMMIT, its abort, verdicts, and the writing of completions (ch. 3, R104, R115–R126; ch. 10, R366–R374; R561, R585). -/

namespace Sys2Proof.Machine

/-! ### The drain (R41, R368) -/

/-- Whether every posted write of a partition that is not RELAXED is acknowledged, parity messages aside (R41, R219). -/
def State.drained (s : State) (p : Nat) : Bool :=
  s.net.tx.all (fun t => (t.2.unacked ++ t.2.wait).all (fun w =>
    (match w.msg with | .parity .. => true | _ => false) || w.relaxed || s.partOf w.ctx != p))

/-- Whether the flash writes of a partition's operations are durable (R623). -/
def State.flashDurable (s : State) (p : Nat) : Bool :=
  s.flashWrites (fun q => (s.op? q).elim false (fun o => o.part == p)) == 0

/-! ### Verdicts (R370) -/

/-- The local verdict: 1 tainted, 2 non-finite, 0 commit; taint takes precedence (R368, R369). -/
def Part.verdict (x : Part) : Nat := if x.taint then 1 else if x.nonfinite then 2 else 0

/-- VERDICT arrives, from a member of the group of some partition's SCH_COMMIT_CTRL; past the commit boundary of its frame it counts as not arrived (R370, R499). -/
def State.verdictIn (s : State) (src group verdict frame : Nat) : State :=
  if frame < s.frame ∨ (frame = s.frame ∧ s.frm.phase = .slack) then s
  else s.each ((List.range 64).filter (fun p => group != 0 && s.fld (.schCommitCtrl p) F.schCommitCtrl_GROUP == group)) (fun s p =>
    s.modPart p (fun x => { x with verdicts := x.verdicts.filter (fun v => !(v.1 == src && v.2.1 == frame)) ++ [(src, frame, verdict)] }))

/-- The status that a COMMIT comes to, once it can be told: 0 commit, else 0x30 or 0x32 (R370). -/
def State.decision (s : State) (p mine frame : Nat) : Option Nat :=
  let own := if mine = 1 then 0x30 else if mine = 2 then 0x32 else 0
  let gid := s.fld (.schCommitCtrl p) F.schCommitCtrl_GROUP
  if gid = 0 then some own
  else
    match sget gid s.groups with
    | none => some 0x30
    | some g =>
      let vs := (g.members.filter (fun m => !s.isOwn m.1)).map (fun m =>
        ((s.part p).verdicts.find? (fun v => v.1 == m.1 && v.2.1 == frame)).map (fun v => v.2.2))
      let missing := vs.any Option.isNone
      let late := s.frm.phase == .slack || s.frame != frame
      if missing ∧ !late then none
      else if missing ∨ mine = 1 ∨ some 1 ∈ vs then some 0x30
      else if mine = 2 ∨ some 2 ∈ vs then some 0x32
      else some 0

/-- Send this package's verdict to every other member of the group (R370). -/
def State.sendVerdict (s : State) (p mine : Nat) : State :=
  let gid := s.fld (.schCommitCtrl p) F.schCommitCtrl_GROUP
  match (if gid = 0 then none else sget gid s.groups) with
  | none => s
  | some g => s.each (g.members.filter (fun m => !s.isOwn m.1)) (fun s m => s.send m.1 3 0 (.verdict gid mine s.frame))

/-! ### COMMIT (R368–R371) -/

/-- Step count of a partition. -/
def State.stepCount (s : State) (p : Nat) : Nat := s.fld (.schStepCount p) F.schStepCount_STEP

/-- A COMMIT ends with a status: AUX holds the step count, LAST the status (R122, R369, R371). -/
def State.commitEnd (s : State) (o : Op) (status detail : Nat) : State :=
  let s := s.setFld (.schCommitStatus o.part) F.schCommitStatus_LAST status
  s.modOp o.seq (fun o => { o with stage := .finished, status := status, detail := detail, aux := s.stepCount o.part })

/-- Step 4 of a COMMIT: commit, or the start of an abort (R368, R371). -/
def State.commitAct (s : State) (o : Op) (mine status : Nat) : State :=
  let p := o.part
  if status = 0 then
    let s := s.setFld (.schStepCount p) F.schStepCount_STEP (s.stepCount p + 1)
    (s.sealStep p).modOp o.seq (fun o => { o with prog := [2] })
  else
    let s := s.satFld (.schCommitStatus p) F.schCommitStatus_ABORTS 1
    let detail := if status = 0x30 ∧ mine = 1 then min (s.part p).late 65535 else 0
    let s := s.modPart p (fun x => { x with restoring := true })
    s.modOp o.seq (fun o => { o with prog := [3, status, detail] })

/-- COMMIT, run: drain, verdict, exchange of verdicts, commit or abort; each call takes it as far as it can go (R368–R371). `prog` holds the step reached. -/
def commitOp (ctx : Nat) (s : State) : State :=
  match s.runTarget ctx (isOpc .commit) with
  | none => s
  | some o =>
    let p := o.part
    match o.prog with
    | [] =>
      let s := s.ledgerCheck p
      s.modOp o.seq (fun o => { o with prog := [0] })
    | [0] =>
      if s.drained p ∧ s.flashDurable p then
        let mine := (s.part p).verdict
        let s := s.modPart p (fun x => { x with deciding := some mine })
        (s.sendVerdict p mine).modOp o.seq (fun o => { o with prog := [1, mine, s.frame] })
      else s
    | [1, mine, frame] =>
      match s.decision p mine frame with
      | none => s
      | some st => s.commitAct o mine st
    | [2] => if s.sealsOpen then s else (s.commitEnd o 0 0).stepEnd p
    | _ => s

/-- ABORT_RESTORE: the logged contents are restored in reverse order; once rows of other packages are back too, the reservation is released and the COMMIT completes (R367, R369, R372). -/
def abortRestore (p : Nat) (s : State) : State :=
  match s.ops.find? (fun o => o.part == p && isOpc .commit o.desc && o.stage == .started) with
  | none => s
  | some o =>
    match o.prog with
    | [3, st, de] => (s.stepUndo p).modOp o.seq (fun o => { o with prog := [4, st, de] })
    | [4, st, de] =>
      if s.drained p then
        let s := (s.commitEnd o st de).stepEnd p
        s.modPart p (fun x => { x with restoring := false })
      else s
    | _ => s

/-! ### Completions (R104, R115–R119, R126, R561, R584, R585) -/

/-- Completions of a context can be written: its ring is in this package's memory, or the host takes the write (R561, R579). -/
def State.cqWritable (s : State) (x : Ctx) (a : Nat) : Bool :=
  spaceOf a != 2 || (s.hostUp && Config.hostGrants (s.fnOf x.id) (s.pasidOf x.id) (offOf a / 4096) true s.host.epoch)

/-- What a context remembers of an operation that has completed: failures (R104), and the AUX of a REDUCE (R351). -/
def Ctx.remember (x : Ctx) (o : Op) : Ctx :=
  { x with
    failed := if o.failedSt then (o.num :: x.failed).take (2 ^ x.sqLog2) else x.failed
    reduceAux := if isOpc .reduce o.desc then ((o.num, o.aux) :: x.reduceAux).take (2 ^ x.sqLog2) else x.reduceAux }

/-- One completion: written with its PHASE bit in one write, and signalled with IRQ; with no host to take it, it is lost and counted; a COMMIT tells the step count however it ended (R115–R118, R122, R126, R561). -/
def State.completeOp (s : State) (o : Op) : State :=
  let o := if isOpc .commit o.desc then { o with aux := s.stepCount o.part } else o
  let s : State := { s with ops := s.ops.filter (fun x => x.seq ≠ o.seq) }
  let s := s.iff (o.status != 0) (fun s => s.switchFail o.seq)
  match s.ctx? o.ctx with
  | none => s
  | some x =>
    let t := s.fld (.ctxStatus o.ctx) F.ctxStatus_CQ_TAIL
    let n := 2 ^ x.cqLog2
    let a := x.cqAddr + 32 * t
    let x := x.remember o
    if s.cqWritable x a then
      let vec := s.fld (.ctxCtrl o.ctx) F.ctxCtrl_CQ_VECTOR
      let fn := s.fnOf o.ctx
      let idle := s.cqIdle fn vec
      let s := s.ctxWr o.ctx a (o.completion x.pass s.frame)
      let s := s.setFld (.ctxStatus o.ctx) F.ctxStatus_CQ_TAIL ((t + 1) % n)
      let s := s.setCtx { x with unread := x.unread + 1, pass := if t + 1 = n then !x.pass else x.pass }
      if o.flagBit 4 then s.raiseVector fn vec idle none else s
    else
      let s := s.setCtx { x with lost := true }
      let s := s.satFld .hstErr F.hstErr_CQ_LOST 1
      let s := s.setFld (.ctxStatus o.ctx) F.ctxStatus_ERR 7
      s.eventW 0x0603 684 (some o.ctx) none o.ctx 0

/-- Insert by ring number. -/
def insertByNum (o : Op) : List Op → List Op
  | [] => [o]
  | x :: r => if o.num < x.num then o :: x :: r else x :: insertByNum o r

/-- Operations in ring order. -/
def ringOrder (l : List Op) : List Op := l.foldl (fun acc o => insertByNum o acc) []

/-- Write the completions of operations that a test names, context by context in ring order (R117, R124). -/
def State.writeCompletions (s : State) (f : Op → Bool) : State :=
  let cs := s.ctxs.map Prod.fst
  s.each cs (fun s c => s.each (ringOrder ((s.opsOf c).filter f)) (fun s o => s.completeOp o))

/-- Whether a frame's completions of a partition are due: its operations have finished, its writes are drained, and it awaits no restore or re-run (R41, R117). -/
def State.completionsDue (s : State) (p : Nat) : Bool :=
  let x := s.part p
  (s.frm.phase == .commit || s.frm.phase == .slack) && x.rerun.isEmpty && !x.stopped && !x.restoring
    && s.ops.all (fun o => o.part != p || o.stage == .finished || o.stage == .refused)
    && s.drained p && s.flashDurable p

/-- Posted writes of a context that are not acknowledged, parity messages aside (R592, step 4). -/
def State.ctxDrained (s : State) (c : Nat) : Bool :=
  s.net.tx.all (fun t => (t.2.unacked ++ t.2.wait).all (fun w =>
    (match w.msg with | .parity .. => true | _ => false) || w.ctx != c))

/-- Whether a reset context's operation can complete: its context's posted writes have drained (R592, steps 4 and 7). -/
def State.resetReady (s : State) (o : Op) : Bool := o.ended && s.ctxDrained o.ctx

/-- COMPLETION_WRITE: in the commit phase, after the drain, the frame's completions of a partition are written in ring order; a frame without a COMMIT closes its ledgers first; those of a context reset do not wait for an unfinished or interrupted frame (R49, R117, R211, R592). -/
def completionWrite (p : Nat) (s : State) : State :=
  if !s.completionsDue p then
    if s.frm.phase = .commit ∨ s.frm.phase = .slack then s.writeCompletions (fun o => o.part == p && s.resetReady o)
    else s
  else
    let s := if (s.part p).commit.isNone then s.ledgerCheck p else s
    if s.completionsDue p then
      let s := s.writeCompletions (fun o => o.part == p && (!o.ended || s.resetReady o))
      s.modPart p (fun x => { x with stretch := 0, interrupts := 0, mismatch := false })
    else s

/-- Rewrite SQ_HEAD or CQ_TAIL of every ring header where it changed (R581). -/
def State.ringHeaders (s : State) (cq : Bool) : State :=
  s.each (s.ctxs.map Prod.fst) (fun s c =>
    let a := s.hdrAddr c
    let v := if cq then s.fld (.ctxStatus c) F.ctxStatus_CQ_TAIL else s.fld (.ctxStatus c) F.ctxStatus_SQ_HEAD
    let a := a + (if cq then 28 else 24)
    if spaceOf a = 2 ∧ !s.hostUp then s else s.ctxWr c a (toLe 4 v))

end Sys2Proof.Machine
end

