-- ==== Sys2Proof/Machine/Flash.lean ====
section
/-! DEFINITION. The flash tier: answers to flash requests, and their absence (ch. 17, R620–R623; R183, R184, R759). -/

namespace Sys2Proof.Machine

/-- One thing fewer that an operation waits for. -/
def State.awaited (s : State) (q : Nat) : State := (s.modOp q (fun o => { o with await := o.await - 1 })).settleOp q

/-- The move that a flash read of its source serves (R258). -/
def State.flashMove (s : State) (ctx desc shard index : Nat) : Option Move :=
  s.tbl.moves.find? (fun m => m.ctx == ctx && m.desc == desc && m.shard == shard && m.index == index)

/-- A piece of a row that another package asked for has been read: the next one is, or the row is served and counted (R178, R232, R261, R265). -/
def State.serveMore (s : State) (x : RowServe) : State :=
  match x.rest with
  | b :: rest => s.flashRead b.1 b.2 (fun k => .serveRow { x with rest := rest } k)
  | [] =>
    let t := s.tblAt x.desc
    let o := s.repOp x.ctx x.desc
    let p : Op := { o with fetched := x.got }
    (s.served o x.slot x.shard x.place x.own x.row true (some (s.partOf x.ctx))).respond x.pkg x.tag 0 x.addr (rowCols t x.first x.count x.addr (s.opRd p))

/-- The bytes of a complete flash read go where they are wanted (R183, R258, R389, R622). -/
def State.flashGot (s : State) (what : FlashFor) (bs : List Byte) : State :=
  match what with
  | .piece q a => (s.pieceIn q a bs).awaited q
  | .row q _ a => (s.pieceIn q a bs).awaited q
  | .serve pkg tag a len => s.respond pkg tag 0 a ((bs.drop (a % 64)).take len)
  | .serveRow x a => s.serveMore { x with got := x.got ++ [(a, bs)] }
  | .move ctx desc shard index a =>
    match s.flashMove ctx desc shard index with
    | some m => s.setMove m { m with data := m.data ++ [(a, bs)] }
    | none => s
  | .oldRow r => s.putFlash r bs
  | .wait w a => (s.waitGot w none a bs).waitDone w
  | .newRow .. => s
  | .write .. => s

/-- The default row of a replica, in the columns asked for. -/
def State.defaultRow (s : State) (ctx desc first count : Nat) : List Byte :=
  let t := s.tblAt desc
  rowSlice t first count (s.opRd (s.repOp ctx desc) t.deflt t.pitch)

/-- A flash read fails: `media` for STATUS 1 or 2, else for want of a complete answer in time (R622, R759). -/
def State.flashReadFails (s : State) (what : FlashFor) (media : Bool) : State :=
  match what with
  | .piece q a =>
    match s.op? q with
    | some o => s.accessLate o a
    | none => s
  | .row q i a => (s.rowIn q i (if media then 2 else 1) a []).awaited q
  | .serve pkg tag a _ => s.respond pkg tag 4 a []
  | .serveRow x _ =>
    let s := s.iff media (fun s => s.poisonRow x.ctx x.map)
    s.respond x.pkg x.tag (if media then 2 else 1) x.addr (s.defaultRow x.ctx x.desc x.first x.count)
  | .move ctx desc shard index _ =>
    match s.flashMove ctx desc shard index with
    | some m =>
      let map := match s.moveSource (s.tblAt m.desc) m with | some (_, _, _, k) => k | none => 0
      (s.iff media (fun s => s.poisonRow ctx map)).removeMoves (fun k => k == m)
    | none => s
  | .oldRow r => s.putFails r 2 4
  | .wait w _ => (s.waitBad w none 4).waitDone w
  | .newRow .. => s
  | .write .. => s

/-- A flash write fails: late-error reason 2, and the row is marked poisoned; a row that another package replaced is answered all the same, with its old contents for that package's undo log (R218, R252, R623). -/
def State.flashWriteFails (s : State) (off : Nat) (what : FlashFor) : State :=
  match what with
  | .write op rowMap =>
    let s := match op with
      | some q => s.lateErrorOp q 2 (3 * 2 ^ 60 + off)
      | none => s
    match rowMap with
    | some m => s.poisonRow m.1 m.2
    | none => s
  | .newRow r old last =>
    let s := s.putFails { r with undo := true } 2 4
    let s := s.iff (!r.undo && r.src == r.requester && !s.isOwn r.src) (fun s => s.lateErrorOut r.src r.ctx r.handle 2 (remoteOff r.addr) r.e2e)
    if last then s.putAnswer r 0 old else s
  | _ => s

/-- A flash write is durable: a row that another package replaced loses its poison mark and is answered (R240, R251, R366). -/
def State.flashWritten (s : State) (what : FlashFor) : State :=
  match what with
  | .newRow r old true => (s.unpoisonRow r.ctx r.map).putAnswer r 0 old
  | _ => s

/-- Whether a flash request is a write. -/
def FlashFor.writes : FlashFor → Bool
  | .write .. => true
  | .newRow .. => true
  | _ => false

/-- The address of a window offset of a port, within space 3 (R389). -/
def flashOff (f off : Nat) : Nat := f * 2 ^ 42 + off % 2 ^ 42

/-- READ_DATA: bytes of an outstanding read in ascending offset, or a media error; one that comes for no request, or again at another offset than the next after a request was sent twice, is discarded (R616, R621, R622; log entry 44). -/
def readData (r : FRx) (payload : List Byte) (s : State) : State :=
  match s.fryRecv r 6 payload with
  | (false, s) => s
  | (true, s) =>
    let f := r.ferry
    let s := s.fryFree f 63 (frameBlocks payload.length)
    match (s.ferry f).reqs.find? (fun q => q.tag == r.tag % 4096) with
    | none => s
    | some q =>
      if q.what.writes then s
      else if r.status ≠ 0 then (s.flashDone f q.tag).flashReadFails q.what true
      else if r.arg % 2 ^ 42 ≠ (q.off + q.come) % 2 ^ 42 then s
      else
        let q' : FlashReq := { q with got := q.got ++ [(r.arg % 2 ^ 42, payload)] }
        if q'.complete then (s.flashDone f q.tag).flashGot q.what q'.data
        else s.setFerry f { s.ferry f with reqs := (s.ferry f).reqs.map (fun x => if x.tag = q.tag then q' else x) }

/-- WRITE_ACK: a flash write is durable, or has failed (R621, R623). -/
def writeAck (r : FRx) (s : State) : State :=
  match s.fryRecv r 8 [] with
  | (false, s) => s
  | (true, s) =>
    let f := r.ferry
    let s := s.fryFree f 63 (frameBlocks 0)
    match (s.ferry f).reqs.find? (fun q => q.tag == r.tag % 4096) with
    | none => s
    | some q =>
      if q.what.writes then
        let s := s.flashDone f q.tag
        if r.status = 0 then s.flashWritten q.what else s.flashWriteFails (flashOff f q.off) q.what
      else s

/-- FLASH_TIMEOUT: a request without a complete answer within FRY_CTRL.FLASH_TIMEOUT µs of its first sending fails, and is counted and logged (R622, R623, R759). -/
def flashTimeout (f tag at_ : Nat) (s : State) : State :=
  let s := s.reach at_
  if 4 ≤ f then s
  else
    match (s.ferry f).reqs.find? (fun q => q.tag == tag) with
    | none => s
    | some q =>
      if s.frm.now < q.at_ + 1000 * s.fld (.fryCtrl f) F.fryCtrl_FLASH_TIMEOUT then s
      else
        let s := s.satFld (.fryFlash f) F.fryFlash_TIMEOUTS 1
        let s := s.eventW 0x0504 (680 + f) none none tag q.off
        let s := s.flashDone f tag
        if q.what.writes then s.flashWriteFails (flashOff f q.off) q.what else s.flashReadFails q.what false

end Sys2Proof.Machine
end

