-- ==== Sys2Proof/Machine/Straits.lean ====
section
/-! DEFINITION. Straits: states, training, HELLO, STATUS flits, retry, sparing of lanes, going down (ch. 14, R484–R523). -/

namespace Sys2Proof.Machine

/-! ### States -/

/-- Set STATE of a strait and re-evaluate its level. -/
def State.setStrState (s : State) (n v : Nat) : State := (s.setFld (.strStatus n) F.strStatus_STATE v).relevel (648 + n)

/-- The event of a state that R512, R513, R518 or R519 gives a strait. -/
def State.strEvent (s : State) (n : Nat) : State :=
  s.eventW 0x0502 (648 + n) none none (s.strState n) (s.fld (.strStatus n) F.strStatus_PEER)

/-- Whether a strait has lost a fiber of either direction (R512). -/
def State.lostFiber (s : State) (n : Nat) : Bool :=
  let m := s.reg (.strLaneMap n)
  decide (fibersUp (F.strLaneMap_TX_EXCL03.get m) < 4) || decide (fibersUp (F.strLaneMap_RX_EXCL03.get m) < 4)

/-- Bring LANES up to date: four lanes for each working fiber, of the direction that has fewer (R484). -/
def State.lanesReg (s : State) (n : Nat) : State :=
  let m := s.reg (.strLaneMap n)
  s.setFld (.strStatus n) F.strStatus_LANES
    (4 * min (fibersUp (F.strLaneMap_TX_EXCL03.get m)) (fibersUp (F.strLaneMap_RX_EXCL03.get m)))

/-- A strait that carries traffic is up, or degraded with a fiber lost (R512, R516). -/
def State.strReady (s : State) (n : Nat) : State := s.setStrState n (if s.lostFiber n then 3 else 2)

/-- Whether a flit is for the neighbour only (R506). -/
def neighbourOnly (f : Flit) : Bool := match f.msg with | .tick .. => true | _ => false

/-- Put a flit that had a SEQ on a failed strait ahead of the newer ones on its new route (R507). -/
def State.routeAhead (s : State) (l : List Flit) : State :=
  let dests := l.map Flit.dst |>.eraseDups
  s.each dests (fun s d =>
    let mine := l.filter (fun f => f.dst == d)
    match s.routeOf d, mine with
    | some n, f :: _ => (s.modTx n f.vc (fun t => { t with ahead := t.ahead ++ mine })).pump n f.vc
    | _, _ => { s with net := { s.net with stuck := mine ++ s.net.stuck } })

/-- One virtual channel of a failed strait: unacknowledged flits in SEQ order, then the waiting ones, to the new routes (R507). -/
def State.evacuate (s : State) (n v : Nat) : State :=
  let t := (s.strait n).txv v
  let s := s.modTx n v (fun t => { t with unacked := [], ahead := [], queue := [] })
  let s := s.routeAhead ((t.unacked.map Sent.flit ++ t.ahead).filter (fun f => !neighbourOnly f))
  s.each (t.queue.filter (fun f => !neighbourOnly f)) State.route

/-- A strait goes down: its destinations are rerouted with what it had not delivered (R507). -/
def State.strDown (s : State) (n : Nat) : State :=
  if s.strState n = 7 ∨ s.strState n = 0 then s
  else
    let s := s.setStrState n 7
    let s := s.setFld (.strStatus n) F.strStatus_LANES 0
    let s := s.setStrait n { s.strait n with down := some s.frm.now, retrain := none, trained := false, hello := false }
    s.each (List.range 4) (fun s v => s.evacuate n v)

/-- STRAIT_DOWN (R507). -/
def straitDown (n at_ : Nat) (s : State) : State :=
  let s := s.reach at_
  if n < 32 then s.strDown n else s

/-- LIGHT_LOSS: every receive lane has lost light (R513). -/
def lightLoss (n at_ : Nat) (s : State) : State :=
  let s := s.reach at_
  if n < 32 ∧ s.strState n ≠ 7 ∧ s.strState n ≠ 0 then (s.strDown n).strEvent n else s

/-- A write that clears STR_CTRL.ENABLE: the strait goes down before its light goes out (R523). -/
def State.strDisable (s : State) (n : Nat) : State :=
  let s := s.setFld (.strCtrl n) F.strCtrl_ENABLE 0
  (s.strDown n).setStrState n 0

/-! ### Retrain and training (R496, R512, R516, R521) -/

/-- A retrain starts: buffers and sequence numbers stay (R496). -/
def State.startRetrain (s : State) (n : Nat) : State :=
  if s.strUp n then
    let s := s.setStrState n 1
    s.setStrait n { s.strait n with retrain := some s.frm.now }
  else s

/-- RETRAIN: a write of STR_CTRL.RETRAIN (R496). -/
def straitRetrain (n at_ : Nat) (s : State) : State :=
  let s := s.reach at_
  if n < 32 then s.startRetrain n else s

/-- RETRAIN_TIMEOUT: a link not up again within 1 ms is down (R496). -/
def retrainTimeout (n at_ : Nat) (s : State) : State :=
  let s := s.reach at_
  match (s.strait n).retrain with
  | some t => if n < 32 ∧ t + 1000000 ≤ s.frm.now then s.strDown n else s
  | none => s

/-- Identity memory image of a shell. -/
def State.shellImage (s : State) (k : Nat) : List Byte := sgetD k [] s.boot.shells

/-- Send HELLO on a strait (R517). -/
def State.sendHello (s : State) (n : Nat) : State :=
  s.sendWord n (fun w => .hello n w 0x30 s.ownId n (s.fld (.devShell n) F.devShell_LENGTH_CM) (s.fld (.strStatus n) F.strStatus_PEER))

/-- What a retrained link goes on with: its state, a HELLO, and its waiting flits (R496, R517). -/
def State.retrained (s : State) (n : Nat) : State :=
  let un : Strait → Strait := fun x => { x with
    retrain := none, measure := true, hello := false,
    tx := x.tx.map (fun t => { t with unacked := t.unacked.map (fun u => { u with n := 0 }) }) }
  let s := s.setStrait n (un (s.strait n))
  let s := (((s.lanesReg n).strReady n).lineStart n).sendHello n
  (s.pumpAll n).unstick

/-- Whether an enabled strait can train: an address is held, harbour mode is open, the shell is of the right type, and each direction has a fiber (R484, R516, R667, R688, R696). -/
def State.mayTrain (s : State) (n txDown rxDown : Nat) : Bool :=
  decide (n < 32) && s.hard.cswValid && decide (s.fld .devStatus F.devStatus_STAGE ∈ [5, 6]) && s.bit (.strCtrl n) F.strCtrl_ENABLE
    && !s.bit (.devShell n) F.devShell_TYPE_MISMATCH && txDown % 16 != 15 && rxDown % 16 != 15

/-- A field of STR_LANE_MAP with the fibers that did not train marked down. -/
def markDown (m down : Nat) : Nat := (List.range 4).foldl (fun m i => if bitN down i then putN m (3 * i) 3 7 else m) m

/-- STR_LANE_MAP from a base value and the fibers of each direction that did not train, as bits. -/
def State.setLanes (s : State) (n : Nat) (base : Word) (txDown rxDown : Nat) : State :=
  let s := s.setFld (.strLaneMap n) F.strLaneMap_TX_EXCL03 (markDown (F.strLaneMap_TX_EXCL03.get base) txDown)
  s.setFld (.strLaneMap n) F.strLaneMap_RX_EXCL03 (markDown (F.strLaneMap_RX_EXCL03.get base) rxDown)

/-- A fresh training comes as far as HELLO: link state starts anew (R516, R517). -/
def State.freshTraining (s : State) (n txDown rxDown : Nat) : State :=
  let s := s.setLanes n (Reg.strLaneMap n).reset txDown rxDown
  let s := s.setStrait n { trained := true, measure := true, statusAt := s.frm.now, line := ⟨0, s.frm.now⟩ }
  ((s.setStrState n 1).lanesReg n).sendHello n

/-- LINK_TRAINING: an enabled strait that receives light has locked; a retrain ends, and a fresh training comes as far as HELLO (R496, R516). -/
def linkTraining (n txDown rxDown at_ : Nat) (s : State) : State :=
  let s := s.reach at_
  if !s.mayTrain n txDown rxDown then s
  else
    match (s.strait n).retrain with
    | some _ => (s.setLanes n (s.reg (.strLaneMap n)) txDown rxDown).retrained n
    | none => if s.strState n = 0 ∨ s.strState n = 1 ∨ s.strState n = 7 then s.freshTraining n txDown rxDown else s

/-- Whether a strait takes a HELLO: it has trained, retrains, or is up. -/
def State.hears (s : State) (n : Nat) : Bool := decide (n < 32) && ((s.strait n).trained || (s.strait n).retrain.isSome || s.strUp n)

/-- What a HELLO says of the peer (R517, R518). -/
def State.peerIn (s : State) (n version pkg port : Nat) : State :=
  let s := s.setStrait n { s.strait n with hello := true }
  let s := s.setFld (.strStatus n) F.strStatus_PEER pkg
  let s := s.setFld (.strStatus n) F.strStatus_PEER_PORT port
  s.setFld (.strStatus n) F.strStatus_VERSION (min 0x30 version)

/-- Whether the identity memory names another peer than the HELLO (R519). -/
def State.miscabled (s : State) (n pkg port : Nat) : Bool :=
  let img := s.shellImage n
  let peer := leBytes ((img.drop 28).take 2)
  s.bit (.devShell n) F.devShell_ID_VALID && s.fld (.devShell n) F.devShell_TYPE == 0 && bitN peer 15
    && (peer % 4096 != pkg || leBytes ((img.drop 30).take 1) != port)

/-- A strait carries traffic from now on: what waited goes out. -/
def State.strOpens (s : State) (n : Nat) : State :=
  let s := s.strReady n
  (s.pumpAll n).unstick

/-- Send a STATUS flit; `accept` answers a lane request (R493, R497, R511). -/
def State.sendStatus (s : State) (n : Nat) (accept : Bool) : State :=
  let x := s.strait n
  let lane := if accept then x.laneTaken.map (fun l => (l.1, l.2.1, l.2.2, true))
    else if x.laneOk then none else x.laneAsked.map (fun l => (l.1, l.2.1, l.2.2, false))
  let vcs : List VcStatus := x.rx.map (fun r => ⟨r.next, if r.held.isEmpty then none else some r.next, r.freed % 65536⟩)
  let e := x.echo.getD (0, s.frm.now)
  let s := s.setStrait n { x with got := 0, statusAt := s.frm.now, gap := false }
  let s := s.satFld (.strRetryCnt n) F.strRetryCnt_NAKS (vcs.filter (fun v => v.nak.isSome)).length
  s.sendWord n (fun w => .status n w s.ownId (s.fld (.strStatus n) F.strStatus_PEER) ⟨vcs, s.frm.now, e.1, s.frm.now - e.2, lane⟩)

/-- Whether a strait sends STATUS flits: up, degraded, keep-alive or miscabled, and in training once the peer's HELLO has come (R516, R519, R520). -/
def State.statusOn (s : State) (n : Nat) : Bool :=
  s.strUp n || s.strState n == 4 || s.strState n == 5 || (s.strState n == 1 && (s.strait n).hello && (s.strait n).retrain.isNone)

/-- HELLO: the lower version is taken and the cabling checked; a training link goes on to measure its delay with STATUS flits (R516–R519). -/
def helloIn (n version pkg port at_ : Nat) (s : State) : State :=
  let s := s.reach at_
  let x := s.strait n
  if !s.hears n then s
  else
    let s := s.peerIn n version pkg port
    if version / 16 ≠ 3 then
      if s.strState n = 6 then s else (s.setStrState n 6).strEvent n
    else if s.miscabled n pkg port then
      if s.strState n = 5 then s else (s.setStrState n 5).strEvent n
    else
      let s := if x.hello then s else s.sendHello n
      if s.strState n = 1 ∧ x.retrain.isNone ∨ s.strState n = 5 ∨ s.strState n = 6 then (s.setStrState n 1).sendStatus n false else s

/-- HELLOs go out each microsecond until the peer's has come (R517). -/
def State.helloTick (s : State) : State :=
  s.each (s.net.straits.filter (fun x => !x.2.hello && (x.2.trained || s.strUp x.1))) (fun s x => s.sendHello x.1)

/-- KEEPALIVE_WAKE_RETRAIN: on wake a strait goes from the keep-alive wavelength to all its working lanes (R521). -/
def keepaliveWake (n at_ : Nat) (s : State) : State :=
  let s := s.reach at_
  if n < 32 ∧ s.strState n = 4 ∧ s.fld .pwrStatus F.pwrStatus_STATE = 0 then (s.lineStart n).strOpens n else s

/-! ### STATUS flits and retry (R493–R497) -/

/-- STATUS_FLIT_DUE: after 128 sequenced flits, 500 ns after the last one, or on a gap (R497). -/
def statusFlitDue (n at_ : Nat) (s : State) : State :=
  let s := s.reach at_
  let x := s.strait n
  if n < 32 ∧ s.statusOn n ∧ (128 ≤ x.got ∨ x.gap ∨ x.statusAt + 500 ≤ s.frm.now) then s.sendStatus n false else s

/-- Resend the unacknowledged flits that a test names; a flit already resent 8 times makes the link retrain instead (R495, R496). -/
def State.resend (s : State) (n v : Nat) (due : Sent → Bool) : State :=
  let t := (s.strait n).txv v
  if t.unacked.any (fun u => due u && decide (8 ≤ u.n)) then s.startRetrain n
  else
    let l := t.unacked.filter due
    let s := s.modTx n v (fun t => { t with unacked := t.unacked.map (fun u => if due u then { u with at_ := s.frm.now, n := u.n + 1 } else u) })
    let s := s.satFld (.strRetryCnt n) F.strRetryCnt_RESENT l.length
    s.each l (fun s u => s.sendWord n (fun w => .flit n w u.flit))

/-- Whether a strait can resend on a channel now. -/
def State.resends (s : State) (n v : Nat) : Bool := s.carries n v

/-- FLIT_RETRY_TIMEOUT: flits unacknowledged 2 µs after they were last sent are resent (R495). -/
def flitRetryTimeout (n v at_ : Nat) (s : State) : State :=
  let s := s.reach at_
  if n < 32 ∧ v < 4 ∧ s.resends n v then s.resend n v (fun u => decide (u.at_ + 2000 ≤ s.frm.now)) else s

/-- One channel's part of a STATUS: acknowledgement, NAK and credits (R492, R493, R495). -/
def State.statusVc (s : State) (n v : Nat) (p : VcStatus) : State :=
  let s := s.modTx n v (fun t => { t with
    unacked := t.unacked.filter (fun u => decide ((u.flit.seq + 2 ^ 32 - p.next) % 2 ^ 32 < 2 ^ 31)),
    credits := t.credits + (p.freed + 65536 - t.freed) % 65536, freed := p.freed })
  let s := match p.nak with
    | some q =>
      if s.resends n v then s.resend n v (fun u => u.flit.seq == q && (u.n == 0 || decide (u.at_ + 500 ≤ s.frm.now))) else s
    | none => s
  s.pump n v

/-- The delay measurement of a STATUS that echoes one of ours (R64, R65, R497). -/
def State.measureDelay (s : State) (n : Nat) (p : StatusFlit) (at_ : Nat) : State :=
  let m := min 65535 ((at_ - p.tEcho - p.tHold) * 5 - 320)
  let s := s.setFld (.strDelay n) F.strDelay_MEASURED m
  let e := s.fld (.strDelay n) F.strDelay_EXPECTED
  let s := s.setStrait n { s.strait n with measure := false }
  if s.bit (.devShell n) F.devShell_ID_VALID ∧ s.fld (.devShell n) F.devShell_TYPE = 0 ∧ (e + 200 < m ∨ m + 200 < e) then
    s.eventW 0x0106 (648 + n) none none 0 (m + e * 2 ^ 16)
  else s

/-- How a flit decoded on a strait: counts, and whether it can be used (R486). -/
def State.rxCode (s : State) (n code : Nat) : Bool × State :=
  if code = 1 then (true, s.satFld (.strFecCnt n) F.strFecCnt_CORRECTED 1)
  else if code = 2 then (false, s.satFld (.strFecCnt n) F.strFecCnt_UNCORRECTABLE 1)
  else if code = 3 then (false, s.satFld (.strErr n) F.strErr_CRC_FAIL 1)
  else if code = 4 then (false, s.satFld (.strErr n) F.strErr_UNKNOWN 1)
  else (true, s)

/-- The delay is measured; it is the last step of a training, and the link opens (R516). -/
def State.measured (s : State) (n : Nat) (p : StatusFlit) (at_ : Nat) : State :=
  let s := s.measureDelay n p at_
  if s.strState n = 1 then s.strOpens n else s

/-- STATUS_FLIT: acknowledgements, NAKs, credits, a lane request or its acceptance, and timestamps (R493, R495, R511). -/
def statusFlitIn (n : Nat) (p : StatusFlit) (at_ code : Nat) (s : State) : State :=
  let s := s.reach at_
  if 32 ≤ n ∨ !s.statusOn n then s
  else
    match s.rxCode n code with
    | (false, s) => s
    | (true, s) =>
      let s := s.setStrait n { s.strait n with echo := some (p.tTx, at_) }
      let s := if (s.strait n).measure ∧ p.tEcho ≠ 0 then s.measured n p at_ else s
      let s := s.each (p.vcs.zipIdx.take 4) (fun s v => s.statusVc n v.2 v.1)
      match p.lane with
      | none => s
      | some (f, w, sw, true) =>
        if (s.strait n).laneAsked = some (f, w, sw) then s.setStrait n { s.strait n with laneOk := true } else s
      | some (f, w, sw, false) => (s.setStrait n { s.strait n with laneTaken := some (f, w, sw) }).sendStatus n true

/-! ### Lanes (R510–R515) -/

/-- A receiver asks for the exclusion of a wavelength, 1,024 codewords after the last one received (R511). -/
def State.askLane (s : State) (n fiber wl counter : Nat) : State :=
  (s.setStrait n { s.strait n with counter := counter % 4096, laneAsked := some (fiber, wl, (counter + 1024) % 4096), laneOk := false }).sendStatus n false

/-- A receiving fiber that has lost two wavelengths is down: the link retrains on the others, or is down with none (R483, R512). -/
def State.fiberDown (s : State) (n fiber : Nat) : State :=
  let gone := fun (l : Nat × Nat) => l.1 ≠ fiber
  let x := s.strait n
  let s := s.setStrait n { x with
    laneAsked := x.laneAsked.filter (fun l => decide (l.1 ≠ fiber)), laneNext := x.laneNext.filter gone }
  let m := putN (s.fld (.strLaneMap n) F.strLaneMap_RX_EXCL03) (3 * fiber) 3 7
  let s := (s.setFld (.strLaneMap n) F.strLaneMap_RX_EXCL03 m).lanesReg n
  if fibersUp m = 0 then (s.strDown n).strEvent n
  else
    let s := s.setStrait n { s.strait n with retrain := some s.frm.now }
    (s.setStrState n 3).strEvent n

/-- The wavelength of a fiber that its spare is to replace, once asked for (R511). -/
def Strait.replacing (x : Strait) (fiber : Nat) : Option Nat :=
  match x.laneAsked with
  | some (f, w, _) => if f = fiber then some w else sget fiber x.laneNext
  | none => sget fiber x.laneNext

/-- LANE_FAULT: a receiving lane is faulty; the spare wavelength takes its place, or with the spare in use or promised the fiber is down; a request waits for the one before it. `counter` is that of the last codeword received (R510–R512). -/
def laneFault (n fiber wl counter at_ : Nat) (s : State) : State :=
  let s := s.reach at_
  if 32 ≤ n ∨ 4 ≤ fiber ∨ 5 ≤ wl ∨ !s.strUp n then s
  else
    let e := exclOf (s.fld (.strLaneMap n) F.strLaneMap_RX_EXCL03) fiber
    let x := s.strait n
    if e = 7 ∨ e = wl ∨ x.replacing fiber = some wl then s
    else if e = 4 ∧ x.replacing fiber = none then
      match x.laneAsked with
      | none => s.askLane n fiber wl counter
      | some _ => s.setStrait n { x with counter := counter % 4096, laneNext := sput fiber wl x.laneNext }
    else (s.setStrait n { x with counter := counter % 4096 }).fiberDown n fiber

/-- The codeword counter reaches SWITCH_AT of the request that this receiver sent: the wavelength is excluded, and the next faulty lane is asked for (R511). -/
def State.laneSwitchRx (s : State) (n counter : Nat) : State :=
  let x := s.strait n
  match x.laneAsked with
  | some (f, w, sw) =>
    if x.laneOk ∧ sw = counter % 4096 then
      let s := s.setFld (.strLaneMap n) F.strLaneMap_RX_EXCL03 (putN (s.fld (.strLaneMap n) F.strLaneMap_RX_EXCL03) (3 * f) 3 w)
      let s := s.setStrait n { x with laneAsked := none, laneOk := false }
      let s := (s.satFld (.strSpare n) F.strSpare_SWAPS 1).eventW 0x0501 (648 + n) none none f w
      match x.laneNext with
      | [] => s
      | l :: r => (s.setStrait n { s.strait n with laneNext := r }).askLane n l.1 l.2 counter
    else s
  | none => s

/-- The codeword counter reaches SWITCH_AT of the request that this transmitter accepted (R511). -/
def State.laneSwitchTx (s : State) (n counter : Nat) : State :=
  match (s.strait n).laneTaken with
  | some (f, w, sw) =>
    if sw = counter % 4096 then
      let s := s.setFld (.strLaneMap n) F.strLaneMap_TX_EXCL03 (putN (s.fld (.strLaneMap n) F.strLaneMap_TX_EXCL03) (3 * f) 3 w)
      let s := s.setStrait n { s.strait n with laneTaken := none }
      (s.satFld (.strSpare n) F.strSpare_SWAPS 1).eventW 0x0501 (648 + n) none none f w
    else s
  | none => s

/-- LANE_SWITCH: the codeword counter of a direction reaches SWITCH_AT, and the wavelength is excluded (R511). -/
def laneSwitch (n counter at_ : Nat) (s : State) : State :=
  let s := s.reach at_
  if 32 ≤ n then s else (s.laneSwitchRx n counter).laneSwitchTx n counter

/-- RECALIBRATION: a lane has been recalibrated, and the delay is measured again (R64, R514, R515). -/
def recalibration (n at_ : Nat) (s : State) : State :=
  let s := s.reach at_
  if n < 32 ∧ s.strUp n ∧ (s.strait n).retrain.isNone then
    (s.wrapFld (.strSpare n) F.strSpare_RECALS 1).setStrait n { s.strait n with measure := true }
  else s

end Sys2Proof.Machine
end

