-- ==== Sys2Proof/Machine/Frames.lean ====
section
/-! DEFINITION. Frame timing: staged sets, ticks on the grid, the servo, tick messages, the time master, stretch notices (ch. 2). -/

namespace Sys2Proof.Machine

/-! ### The timing in force and the staged set (R35–R40) -/

/-- Whether a period and FRM_PHASE value obey R35 and R37. -/
def timingOk (p : Nat) (ph : Word) : Bool :=
  let b1 := F.frmPhase_INTAKE_END.get ph
  let b2 := F.frmPhase_WORK_END.get ph
  let b3 := F.frmPhase_REDUCE_END.get ph
  let b4 := F.frmPhase_COMMIT_END.get ph
  let at_ := fun b => p * b / 1000
  decide (10000 ≤ p) && decide (p ≤ 2000000)
  && decide (0 < b1) && decide (b1 < b2) && decide (b2 < b3) && decide (b3 < b4) && decide (b4 < 1000)
  && decide (200 ≤ at_ b1) && decide (at_ b2 + 400 ≤ at_ b3) && decide (at_ b3 + 400 ≤ at_ b4) && decide (at_ b4 + 200 ≤ p)

/-- Bring PENDING up to date. -/
def State.stagedReg (s : State) : State :=
  s.setFld .frmStatus F.frmStatus_PENDING (if s.frm.stPeriod.isSome || s.frm.stPhase.isSome then 1 else 0)

/-- At the tick that starts frame `n` the staged set applies, or is refused (R38–R40). -/
def State.applyStaged (s : State) (n t : Nat) : State :=
  if (s.frm.stPeriod.isNone && s.frm.stPhase.isNone) || decide (n < s.fld .frmApplyAt F.frmApplyAt_FRAME) then s
  else
    let p := s.frm.stPeriod.getD s.period
    let ph := (s.frm.stPhase.map (BitVec.ofNat 64)).getD (s.reg .frmPhase)
    let s : State := { s with frm := { s.frm with stPeriod := none, stPhase := none } }
    let s := s.stagedReg
    if timingOk p ph then
      let s := (s.setFld .frmPeriod F.frmPeriod_PERIOD p).setReg .frmPhase ph
      { s with frm := { s.frm with ta := t, na := n } }
    else s.setFld .frmStatus F.frmStatus_CFG_ERROR 1

/-- Whether this package is a time master (R59). -/
def State.master (s : State) : Bool := s.bit .frmCtrl F.frmCtrl_MASTER

/-- A write to a timing register that a follower ignores (R63). -/
def State.unlessFollower (s : State) (f : State → State) : State :=
  if s.master then f s else s.setFld .frmStatus F.frmStatus_CFG_ERROR 1

/-- FRM_PERIOD: the value is staged (R38, R63). -/
def State.periodWrite (s : State) (v : Nat) : State :=
  s.unlessFollower (fun s => ({ s with frm := { s.frm with stPeriod := some (v % 2 ^ 21) } } : State).stagedReg)

/-- A FRM_PHASE value with its reserved bits 0 (R5). -/
def phaseBits (v : Word) : Word := Reg.frmPhase.fields.foldl (fun w f => f.put w (f.get v)) (0 : Word)

/-- FRM_PHASE: the boundaries are staged (R38, R63). -/
def State.phaseWrite (s : State) (v : Word) : State :=
  s.unlessFollower (fun s => ({ s with frm := { s.frm with stPhase := some (phaseBits v).toNat } } : State).stagedReg)

/-- FRM_APPLY_AT (R38, R63). -/
def State.applyAtWrite (s : State) (v : Word) : State := s.unlessFollower (fun s => s.setReg .frmApplyAt v)

/-- FRM_EPOCH: until the first tick that starts a frame, the tick origin moves with it (R56, R63). -/
def State.epochWrite (s : State) (v : Word) : State :=
  s.unlessFollower (fun s =>
    let s := s.setReg .frmEpoch v
    if s.frm.started then s else { s with frm := { s.frm with ta := v.toNat, na := 0 } })

/-! ### Ticks on the grid (R56, R57) -/

/-- System time of the tick that starts frame `n` (R56). -/
def State.tickTime (s : State) (n : Nat) : Nat := s.frm.ta + (n - s.frm.na) * s.period * 10

/-- The frame whose tick is the next on the grid at or after a system time (R56). -/
def State.gridFrame (s : State) (t : Nat) : Nat :=
  if t ≤ s.frm.ta then s.frm.na else s.frm.na + cdiv (t - s.frm.ta) (s.period * 10)

/-! ### The servo (R67–R71) -/

/-- The increment of a nominal crystal cycle, in 2^-32 ns (R55). -/
def nominalInc : Int := 27487790694

/-- The trimmed increment that removes an offset of `e` ns over the next period, within 500 ppm of nominal (R67). -/
def State.trim (s : State) (e : Int) : Nat :=
  let p : Int := s.period * 10
  let m := p / 2000
  let c := max (-m) (min m e)
  (nominalInc - nominalInc * c / p).toNat

/-- The package falls out of step (R68, R71). -/
def State.outOfStep (s : State) (e : Int) : State :=
  let was := s.bit .frmStatus F.frmStatus_IN_STEP
  let s := s.setFld .frmStatus F.frmStatus_IN_STEP 0
  let s := (s.setFld .frmStatus F.frmStatus_OUT_OF_STEP_SEEN 1).relevel 686
  if was then s.eventW 0x0103 686 none none (encodeInt 64 e) 0 else s

/-- A follower's offset is measured (R67, R68, R70). -/
def State.servo (s : State) (e : Int) : State :=
  let s := s.setFld .frmOffset F.frmOffset_E (encodeInt 32 e)
  let s : State := { s with frm := { s.frm with good := if e.natAbs ≤ 200 then s.frm.good + 1 else 0 } }
  if e.natAbs ≤ 400 then
    let s : State := { s with frm := { s.frm with inc := s.trim e } }
    if !s.bit .frmStatus F.frmStatus_IN_STEP ∧ 2 ≤ s.frm.good then
      ((s.setFld .frmStatus F.frmStatus_IN_STEP 1).relevel 686).eventW 0x0104 686 none none 0 0
    else s
  else ({ s with frm := { s.frm with stepBy := some e } } : State).outOfStep e

/-- At a tick, a package out of step takes its offset out of its counter (R68). -/
def State.stepTime (s : State) : State :=
  match s.frm.stepBy with
  | none => s
  | some e => { s with frm := { s.frm with now := ((s.frm.now : Int) - e).toNat, stepBy := none } }

/-! ### Tick messages (R59–R66) -/

/-- The tick message of a master, or of a follower at depth `d`. -/
def State.tickMsg (s : State) (d master frame time : Nat) (corr : Int) : Msg :=
  .tick d master (s.frm.stPeriod.isSome || s.frm.stPhase.isSome) frame time corr s.period (s.frm.stPeriod.getD s.period)
    (s.reg .frmPhase).toNat (s.frm.stPhase.getD (s.reg .frmPhase).toNat) (s.fld .frmApplyAt F.frmApplyAt_FRAME)

/-- At each tick, of a frame or for set-up, a master sends a tick message on every working strait (R59). -/
def State.sendTicks (s : State) (time : Nat) : State :=
  if s.master then s.each (List.range 32) (fun s n => s.sendTick n (s.tickMsg 0 s.ownId s.frame time 0))
  else s

/-- One-way delay of a strait in 2^-16 ns, the port delay included (R62, R64, R497). -/
def State.linkDelay (s : State) (n : Nat) : Int := ((s.fld (.strDelay n) F.strDelay_MEASURED * 65536 / 10 + 32 * 65536 : Nat) : Int)

/-- A follower loads the timing that a tick message carries; T_a and n_a move only with a staged set (R56, R63). -/
def State.loadTiming (s : State) (staged : Bool) (period stPeriod phase stPhase applyAt : Nat) : State :=
  let ph := phaseBits (BitVec.ofNat 64 phase)
  let s := if timingOk period ph then (s.setFld .frmPeriod F.frmPeriod_PERIOD period).setReg .frmPhase ph else s
  let s : State := { s with frm := { s.frm with
    stPeriod := if staged then some stPeriod else none,
    stPhase := if staged then some (phaseBits (BitVec.ofNat 64 stPhase)).toNat else none } }
  (if staged then s.setFld .frmApplyAt F.frmApplyAt_FRAME applyAt else s).stagedReg

/-- The depth and link that a follower takes its ticks from: the lowest depth heard, and of equal ones the lowest link (R61). -/
def FrameTime.source (x : FrameTime) : Option (Nat × Nat) :=
  x.heard.foldl (fun b h => match b with
    | none => some (h.2.1, h.1)
    | some c => if h.2.1 < c.1 ∨ (h.2.1 = c.1 ∧ h.1 < c.2) then some (h.2.1, h.1) else some c) none

/-- A valid tick message of a link is heard; links that have been silent for more than a period, or went down, no longer count (R61, R71; log entry 17). -/
def State.hear (s : State) (n at_ d : Nat) : State :=
  let live := s.frm.heard.filter (fun h => h.1 != n && decide (at_ ≤ h.2.2 + s.period * 10) && s.carries h.1 3)
  let s : State := { s with frm := { s.frm with heard := live ++ [(n, d, at_)], lastMsg := at_ } }
  (s.setFld .frmStatus F.frmStatus_HOLDOVER 0).relevel 686

/-- The hop depth of the link followed, whose messages a follower sends on with one more (R61). -/
def State.sourceDepth (s : State) : Nat := (s.frm.source.map Prod.fst).getD 0

/-- The tick message is forwarded on the other working straits at one more than the depth followed, with the incoming link's delay and the residence time added, to a depth of at most 31 (R61, R62, R66). -/
def State.forwardTick (s : State) (n residence master frame time : Nat) (corr : Int) : State :=
  let d := s.sourceDepth + 1
  if 31 < d then s
  else
    s.each ((List.range 32).filter (fun k => k != n)) (fun s k =>
      s.sendTick k (s.tickMsg d master frame time (corr + ((residence * 65536 : Nat) : Int))))

/-- A tick message is taken by a follower when it comes from the link followed: source link, timing and offset, CORRECTION in whole ns (R61, R63, R67–R71; log entry 17). -/
def State.followTick (s : State) (n at_ d time : Nat) (corr : Int) (staged : Bool) (period stPeriod phase stPhase applyAt : Nat) : State :=
  let s := s.hear n at_ d
  if s.frm.source = some (d, n) then
    let s := s.setFld .frmStatus F.frmStatus_SOURCE_LINK n
    let s := s.setFld .frmStatus F.frmStatus_DEPTH (d + 1)
    let s := s.loadTiming staged period stPeriod phase stPhase applyAt
    s.servo ((at_ : Int) - (time + corr / 65536))
  else s

/-- A package becomes a follower: it has heard nothing yet (R60, R61). -/
def State.becomeFollower (s : State) : State := { s with frm := { s.frm with heard := [], lastMsg := s.frm.now, good := 0 } }

/-- A tick message arrives: of two masters the lower package ID keeps the role (R60); a follower takes it and forwards it (R61–R68). `residence` is the time that forwarding takes. -/
def State.tickIn (s : State) (n at_ residence d master : Nat) (staged : Bool) (frame time : Nat) (corr : Int)
    (period stPeriod phase stPhase applyAt : Nat) : State :=
  if master = s.ownId then s
  else
    let s := if s.master ∧ master < s.ownId then
        ((s.setFld .frmCtrl F.frmCtrl_MASTER 0).becomeFollower).eventW 0x0102 686 none none master 0
      else s
    if s.master then s
    else
      let c := corr + s.linkDelay n
      (s.followTick n at_ d time c staged period stPeriod phase stPhase applyAt).forwardTick n residence master frame time c

/-- TICK_HOLDOVER: no valid tick message for a period (R71). -/
def tickHoldover (at_ : Nat) (s : State) : State :=
  let s := s.reach at_
  if !s.master ∧ s.frm.lastMsg + s.period * 10 ≤ s.frm.now ∧ !s.bit .frmStatus F.frmStatus_HOLDOVER then
    ((s.setFld .frmStatus F.frmStatus_HOLDOVER 1).relevel 686).eventW 0x0105 686 none none 0 0
  else s

/-- HOLDOVER_LIMIT: after 100 ms without a tick message the follower is out of step; its event carries the offset last measured (R71; log entry 17). -/
def holdoverLimit (at_ : Nat) (s : State) : State :=
  let s := s.reach at_
  if !s.master ∧ s.frm.lastMsg + 100000000 ≤ s.frm.now ∧ s.bit .frmStatus F.frmStatus_IN_STEP then
    let s : State := { s with frm := { s.frm with good := 0 } }
    s.outOfStep (signedN 32 (s.fld .frmOffset F.frmOffset_E))
  else s

/-- BACKUP_MASTER: a backup follower in holdover for 10 ms becomes master (R638). HOLDOVER began a period after the last message. -/
def backupMaster (at_ : Nat) (s : State) : State :=
  let s := s.reach at_
  if s.bit .rasCtrl F.rasCtrl_BACKUP_MASTER ∧ !s.master ∧ s.bit .frmStatus F.frmStatus_HOLDOVER
      ∧ s.frm.lastMsg + s.period * 10 + 10000000 ≤ s.frm.now then
    let s := s.setFld .frmCtrl F.frmCtrl_MASTER 1
    let s := s.setFld .frmStatus F.frmStatus_HOLDOVER 0
    let s := s.setFld .frmStatus F.frmStatus_DEPTH 0
    let s := (s.setFld .frmStatus F.frmStatus_IN_STEP 1).relevel 686
    s.eventW 0x0107 686 none none 0 0
  else s

/-! ### FRM_CTRL (R59, R76, R77) -/

/-- A write of FRM_CTRL: ENABLE starts frames at the next tick or ends them with the frame in progress, MASTER sets the role; a master is always in step (R59, R76, R77). -/
def State.frmCtrlWrite (s : State) (enable master : Bool) : State :=
  let was := s.master
  let s := s.setFld .frmCtrl F.frmCtrl_ENABLE (if enable then 1 else 0)
  let s := s.setFld .frmCtrl F.frmCtrl_MASTER (if master then 1 else 0)
  if master ∧ !was then
    let s := s.setFld .frmStatus F.frmStatus_IN_STEP 1
    let s := s.setFld .frmStatus F.frmStatus_HOLDOVER 0
    (s.setFld .frmStatus F.frmStatus_DEPTH 0).relevel 686
  else if was ∧ !master then s.becomeFollower
  else s

/-! ### Stretching across packages (R54) -/

/-- Groups of this package's contexts in a partition. -/
def State.groupsOfPart (s : State) (p : Nat) : List (Nat × Group) := s.groups.filter (fun g => s.partOf g.2.ctx == p)

/-- A partition that stretches tells the packages of its jobs (R54). -/
def State.sendStretch (s : State) (p frame : Nat) : State :=
  s.each (s.groupsOfPart p) (fun s g =>
    s.each (g.2.members.filter (fun m => !s.isOwn m.1)) (fun s m => s.send m.1 3 0 (.stretch g.1 frame)))

/-- A partition's frame is stretched to `n` periods in all: its operations carry the number (R52). -/
def State.stretchTo (s : State) (p n : Nat) : State :=
  let s := s.modPart p (fun x => { x with stretch := n })
  { s with ops := s.ops.map (fun o => if o.part = p then { o with stretch := n } else o) }

/-- The tick that ended a partition's frame is taken back: the frame goes on, stretched by one more period (R54). -/
def State.stretchBack (s : State) (p : Nat) : State :=
  let b := (s.part p).before
  let s := s.modPart p (fun x => { x with streams0 := b.streams0, charts0 := b.charts0, pred0 := b.pred0, commit := b.commit })
  s.stretchTo p (min 3 (b.stretch + 1))

/-- STRETCH: a notice for the frame in progress stretches the partition's frame as well, at its tick or, within 200 ns after it, at once; one that comes later changes nothing (R54). -/
def State.stretchIn (s : State) (gid frame at_ : Nat) : State :=
  match sget gid s.groups with
  | none => s
  | some g =>
    let p := s.partOf g.ctx
    if frame = s.frame ∧ s.frm.phase ≠ .idle then
      { s with frm := { s.frm with notices := insertNew p s.frm.notices } }
    else if frame + 1 = s.frame ∧ at_ ≤ s.frm.lastTick + 200 ∧ s.bit (.hstPartCtrl p) F.hstPartCtrl_ACTIVE ∧ (s.part p).stretch = 0 then
      s.stretchBack p
    else s

end Sys2Proof.Machine
end

