-- ==== Sys2Proof/Machine/Reef.lean ====
section
/-! DEFINITION. The serial flash, firmware images and the reef map (ch. 19, R678–R683). -/

namespace Sys2Proof.Machine

/-! ### The serial flash -/

/-- Read bytes of the serial flash. -/
def State.nor (s : State) (o n : Nat) : List Byte := memRdL s.boot.flash o n

/-- Write bytes of the serial flash. -/
def State.norWr (s : State) (o : Nat) (bs : List Byte) : State :=
  { s with boot := { s.boot with flash := memWrL s.boot.flash o bs } }

/-! ### Images (R678) -/

/-- Offset of image slot A or B. -/
def imageSlot (n : Nat) : Nat := if n = 0 then 0x100000 else 0x1100000

/-- LENGTH of an image header. -/
def imageLen (h : List Byte) : Nat := leBytes ((h.drop 8).take 4)

/-- SVN and FW_VERSION of an image header. -/
def imageSvn (h : List Byte) : Nat := leBytes ((h.drop 4).take 4)
def imageVersion (h : List Byte) : Nat := leBytes ((h.drop 12).take 4)

/-- Whether R678 accepts an image: header of 4 KiB, and its body. -/
def imageOk (svn : Nat) (h body : List Byte) : Bool :=
  let key := leBytes ((h.drop 1).take 1)
  let pub := (h.drop 160).take 96
  leBytes (h.take 1) == 0x30 && decide (key < 4) && !Config.keyRevoked key
  && Config.sha384 pub == Config.fuseKey key
  && Config.ecdsaOk (Config.sha384 pub) (Config.sha384 (h.take 64 ++ pub)) ((h.drop 64).take 96)
  && decide (svn ≤ imageSvn h)
  && imageLen h % 4096 == 0 && decide (imageLen h ≤ 16773120)
  && toLe 48 (Config.sha384 body).toNat == (h.drop 16).take 48

/-- Whether a flash slot holds an image that R678 accepts. -/
def State.slotOk (s : State) (n : Nat) : Bool :=
  let h := s.nor (imageSlot n) 4096
  imageOk s.hard.svn h (s.nor (imageSlot n + 4096) (min (imageLen h) 16773120))

/-- The slot that boots: the one that ACTIVE names, else the other (R678). -/
def State.bootSlot (s : State) : Option Nat :=
  let a := if s.nor 0 1 = [1#8] then 1 else 0
  if s.slotOk a then some a else if s.slotOk (1 - a) then some (1 - a) else none

/-! ### The reef map (R682, R683) -/

/-- Bytes of one die's entry. -/
def State.reefDie (s : State) (d : Nat) : List Byte :=
  let m := nthD s.hbm.mapped d []
  let w := sumN ((List.range 16).map (fun i => if 16 * d + i ∈ s.boot.withheld then 2 ^ i else 0))
  [BitVec.ofNat 8 (nthD s.boot.dieStat d 0), BitVec.ofNat 8 m.length]
  ++ (m.map (BitVec.ofNat 8) ++ List.replicate (8 - m.length) 0xFF#8).take 8 ++ toLe 2 w ++ toLe 4 0

/-- Bytes of one cluster's entry. -/
def State.reefCluster (s : State) (g : Nat) : List Byte :=
  let spare := (List.range 16).find? (fun k => decide (32 * g + k ∈ s.outCores))
  let absent := sumN ((List.range 16).map (fun k => if 16 * g + k ∈ s.absent then 2 ^ k else 0))
  toLe 4 ((match spare with | some k => k + 16 | none => 0) + absent * 256)

/-- The image from offset 0x40 on. -/
def State.reefBody (s : State) : List Byte :=
  (List.range 8).flatMap s.reefDie
  ++ (List.range 32).flatMap (fun n => toLe 4 (s.reg (.strLaneMap n)).toNat)
  ++ List.replicate 0xC0 0 ++ (List.range 1024).flatMap s.reefCluster

/-- The reef map image. -/
def State.reefImage (s : State) : List Byte :=
  let body := s.reefBody
  [0x30#8, 0, 0, 0] ++ toLe 4 (s.fld .devReefGen F.devReefGen_GENERATION) ++ toLe 4 (crc32 body) ++ List.replicate 52 0 ++ body

/-- A change of the reef map is written to both flash copies in turn, with GENERATION advanced (R682). -/
def State.reefStore (s : State) : State :=
  let s := s.wrapFld .devReefGen F.devReefGen_GENERATION 1
  let i := s.reefImage
  (s.norWr 0x2100000 i).norWr 0x2110000 i

/-- A stored copy, if its VERSION and CRC pass. -/
def State.reefCopy (s : State) (o : Nat) : Option (List Byte) :=
  let b := s.nor o 0x1200
  if b.take 1 = [0x30#8] ∧ leBytes ((b.drop 8).take 4) = crc32 (b.drop 0x40) then some b else none

/-- GENERATION of a copy. -/
def reefGen (b : List Byte) : Nat := leBytes ((b.drop 4).take 4)

/-- The valid copy with the higher GENERATION (R682). -/
def State.reefStored (s : State) : Option (List Byte) :=
  match s.reefCopy 0x2100000, s.reefCopy 0x2110000 with
  | some a, some b => some (if reefGen a < reefGen b then b else a)
  | some a, none => some a
  | none, b => b

/-- What a stored copy says is mapped out: die channels in order, withheld regions, cores by physical ID and absent logical cores (R682). -/
def State.reefLoad (s : State) (b : List Byte) : State :=
  let word := fun o n => leBytes ((b.drop o).take n)
  let chans := fun d => ((List.range (min 8 (word (0x41 + 16 * d) 1))).map (fun i => word (0x42 + 16 * d + i) 1)).filter (· < 64)
  let clusters := (List.range 1024).map (fun g => (g, word (0x200 + 4 * g) 4))
  let out := clusters.filterMap (fun x => if bitN x.2 4 then some (32 * x.1 + x.2 % 16) else none)
  let absent := clusters.flatMap (fun x => (setBits 16 (x.2 / 256)).map (16 * x.1 + ·))
  let held := (List.range 8).flatMap (fun d => (setBits 16 (word (0x4A + 16 * d) 2)).map (16 * d + ·))
  let s : State := { s with
    hbm := { s.hbm with mapped := (List.range 8).map chans },
    outCores := out, absent := absent, boot := { s.boot with withheld := held } }
  s.setFld .devReefGen F.devReefGen_GENERATION (reefGen b)

end Sys2Proof.Machine
end

