-- ==== Sys2Proof/Machine/Faults.lean ====
section
/-! DEFINITION. Faults of cores, regions, dies, channels, bursts and control processors (ch. 18, R627–R637; ch. 1, R15–R19). -/

namespace Sys2Proof.Machine

/-! ### Regions and dies (R628, R636) -/

/-- Partitions whose filler tasks run on cores that a test names, other than a given one (R628). -/
def State.fillersOn (s : State) (own : Nat) (f : Nat → Bool) : List Nat :=
  (s.tasks.filterMap (fun t => match t.at_ with
    | .running c => if f c && t.part != own then some t.part else none
    | _ => none)).eraseDups

/-- SCH_FILL of a partition and its bit in every other one are cleared (R554). -/
def State.fillClear (s : State) (p : Nat) : State :=
  let s : State := { s with pwr := { s.pwr with fill := sdel p s.pwr.fill } }
  s.each (List.range 64) (fun s q =>
    if q = p then s.setReg (.schFill p) 0
    else if bitN (s.reg (.schFill q)).toNat p then s.setReg (.schFill q) (BitVec.ofNat 64 (putN (s.reg (.schFill q)).toNat p 1 0)) else s)

/-- The four prediction counters of a partition are cleared (R349). -/
def State.predClear (s : State) (p : Nat) : State := s.predPut p (0, 0, 0, 0)

/-- A partition leaves service (R349, R567, R636). -/
def State.partOut (s : State) (p : Nat) : State :=
  let s := s.setFld (.hstPartCtrl p) F.hstPartCtrl_ACTIVE 0
  let s := s.each (s.regionsOf p) (fun s r => s.setFld (.schRegState r) F.schRegState_PARTITION 0x7F)
  let s := s.freeCharts (fun c => c.part == p)
  let s := s.setFld (.schUndoStatus p) F.schUndoStatus_RESERVED 0
  let s : State := { s with parts := sdel p s.parts }
  (((s.streamReg p).barClear p).fillClear p).predClear p

/-- A partition left with one region ends: its operations complete with status 0x31, and ACTIVE is cleared (R636). -/
def State.partGone (s : State) (p : Nat) : State := (s.faultAbandon p).partOut p

/-- A region fault: the region leaves its partition, and the frames on it are interrupted, or the step abandoned where its chart store held a live record (R628, R636). -/
def State.regionFault (s : State) (r : Nat) : State :=
  let p := s.fld (.schRegState r) F.schRegState_PARTITION
  let fill := s.fillersOn p (fun c => c / 128 == r)
  let held := s.charts.any (fun c => c.part == p && c.chunks.any (fun k => k.2 == some r))
  let s := s.eventW 0x0703 r none none r 0
  let s := s.setFld (.schRegState r) F.schRegState_PARTITION 0x7F
  let s : State := { s with boot := { s.boot with withheld := insertNew r s.boot.withheld } }
  let s := if p < 64 then
      if (s.regionsOf p).length ≤ 1 then (s.halt p 6).partGone p
      else if held then (s.halt p 6).faultAbandon p
      else s.interrupt p 6
    else s
  (s.each fill (fun s q => s.interrupt q 6)).reefStore

/-- REGION_FAULT (R627, R636). -/
def regionFaultCmd (r at_ : Nat) (s : State) : State :=
  let s := s.reach at_
  if r < 128 ∧ r ∉ s.boot.withheld then s.regionFault r else s

/-- A die fault: partitions with a region on the die abandon their step, and the die waits for its reset (R627). -/
def State.dieFault (s : State) (d : Nat) : State :=
  let s := s.eventW 0x0704 (128 + d) none none d 0
  let ps := (((List.range 16).map (fun i => s.fld (.schRegState (16 * d + i)) F.schRegState_PARTITION)).filter (· < 64)).eraseDups
  let s := s.each ps State.faultAbandon
  ({ s with boot := { s.boot with dieStat := s.boot.dieStat.set d 3 } } : State).reefStore

/-- DIE_FAULT: a bridge check or die self-check fails in service (R627). -/
def dieFaultCmd (d at_ : Nat) (s : State) : State :=
  let s := s.reach at_
  if d < 8 then s.dieFault d else s

/-- DIE_OVERTEMP: a die reaches 105 °C, its core clocks stop at once, and a die fault is reported (R427). -/
def dieOvertemp (d t at_ : Nat) (s : State) : State :=
  let s := s.reach at_
  if d < 8 ∧ 840 ≤ t ∧ d ∉ s.pwr.stopped then
    let s := s.setFld (.pwrDie d) F.pwrDie_TEMP (min t 4095)
    ({ s with pwr := { s.pwr with stopped := insertNew d s.pwr.stopped } } : State).dieFault d
  else s

/-! ### Cores (R15–R18, R628, R635) -/

/-- The logical core that a physical core runs (R13–R15). -/
def State.logicalOf (s : State) (pid : Nat) : Option Nat :=
  let g := pid / 32
  let slot := pid % 32
  if slot < 16 then (if pid ∈ s.outCores then none else some (16 * g + slot))
  else ((List.range 16).find? (fun k => decide (32 * g + k ∈ s.outCores))).map (fun k => 16 * g + k)

/-- The physical core that runs a logical core (R15). -/
def State.physicalOf (s : State) (l : Nat) : Nat :=
  if 32 * (l / 16) + l % 16 ∈ s.outCores then 32 * (l / 16) + 16 else 32 * (l / 16) + l % 16

/-- Cores that a cluster has lost or is about to lose: mapped out, absent or due (R15, R18). -/
def State.lostIn (s : State) (g : Nat) : Nat :=
  ((s.outCores ++ s.boot.coresDue.map Prod.fst).filter (fun c => c / 32 == g)).length + (s.absent.filter (fun l => l / 16 == g)).length

/-- The uncorrectable 2 KiB lines of a faulty core's SRAM: each is an uncorrectable burst that its partition's frame would read (R635). -/
def State.sramLines (s : State) (p l : Nat) (bad : List Nat) : State :=
  s.each (bad.filter (· < 384)) (fun s n =>
    let b := (sramKey l (2048 * n)) / 64
    let s : State := { s with poison := (List.range 32).foldl (fun a i => insertNew (b + i) a) s.poison }
    s.frameFault p b)

/-- The first or second core of a cluster fails: the frames on it are interrupted, and at the next frame boundary its logical core moves to the spare or is absent (R15, R16, R18, R628). -/
def State.coreLost (s : State) (pid l : Nat) (bad : List Nat) : State :=
  let r := l / 128
  let n := s.lostIn (pid / 32)
  let p := s.fld (.schRegState r) F.schRegState_PARTITION
  let fill := s.fillersOn p (fun c => c == l)
  let s := s.eventW 0x0702 r none none pid (if n = 0 then 0 else 1)
  let s := if p < 64 then s.interrupt p 5 else s
  let s := s.each fill (fun s q => s.interrupt q 5)
  let s : State := { s with boot := { s.boot with coresDue := s.boot.coresDue ++ [(pid, n != 0)] } }
  if p < 64 then s.sramLines p l bad else s

/-- An idle spare fails: no frame runs on it, and from the next frame boundary the cluster has no spare left. DESIGN CHOICE (log entry 84): R18 speaks of working cores only. -/
def State.spareLost (s : State) (pid : Nat) : State :=
  if pid ∈ s.outCores ∨ pid ∈ s.boot.coresDue.map Prod.fst then s
  else
    let s := s.eventW 0x0702 (pid / 256) none none pid 0
    { s with boot := { s.boot with coresDue := s.boot.coresDue ++ [(pid, false)] } }

/-- CORE_FAULT: the frames on the core are interrupted; the spare takes its place, a second failure of the cluster makes its logical core absent, a third is a region fault; `bad` are the lines of its SRAM that fail their check (R15, R18, R627, R628, R635). -/
def coreFault (pid : Nat) (bad : List Nat) (at_ : Nat) (s : State) : State :=
  let s := s.reach at_
  if 32768 ≤ pid ∨ 16 < pid % 32 then s
  else
    match s.logicalOf pid with
    | none => s.iff (pid % 32 == 16) (fun s => s.spareLost pid)
    | some l =>
      if pid ∈ s.boot.coresDue.map Prod.fst ∨ l ∈ s.absent then s
      else if 2 ≤ s.lostIn (pid / 32) then s.regionFault (l / 128)
      else s.coreLost pid l bad

/-- A physical core leaves service: its logical core moves to the spare, or is absent (R15, R18). -/
def State.coreOut (s : State) (pid : Nat) (gone : Bool) : State :=
  if gone then
    match s.logicalOf pid with
    | some l => { s with absent := insertNew l s.absent }
    | none => s
  else { s with outCores := insertNew pid s.outCores }

/-- At a frame boundary the new core mapping applies and is recorded (R16, R18, R682). -/
def State.coresTick (s : State) : State :=
  if s.boot.coresDue.isEmpty then s
  else
    let due := s.boot.coresDue
    let s := s.each due (fun s c => s.coreOut c.1 c.2)
    ({ s with boot := { s.boot with coresDue := [] } } : State).reefStore

/-! ### Bursts, channels and control processors -/

/-- UNCORRECTABLE_BURST: a burst is read, by a frame of a partition or in background; its code corrects it, or finds it uncorrectable, which is a fault of the frame that reads it (R398, R400, R401, R627). A row of a table takes its poison mark when a GATHER meets it. -/
def uncorrectableBurst (err : BurstErr) (reader : Option Nat) (at_ : Nat) (s : State) : State :=
  let s := s.reach at_
  match reader with
  | none => s.codeApply err
  | some p => if p < 64 ∧ s.codeFinds err = .uncorrectable then s.frameFault p err.burst else s.codeApply err

/-- A ninth channel of a die is a die fault (R412). -/
def State.ninth (s : State) (d : Nat) : State :=
  if 8 < (nthD s.hbm.mapped d []).length + (s.hbm.fenced.filter (fun c => c / 64 == d)).length then s.dieFault d else s

/-- PLANNED_MAPOUT, with the ninth channel of a die as a fault (R408, R409, R412). -/
def plannedMapoutCmd (c lines at_ : Nat) (s : State) : State :=
  let s := s.reach at_
  if 512 ≤ c then s
  else
    let before := s.hbm.fenced.length
    let s := plannedMapout c lines s
    if before < s.hbm.fenced.length then s.ninth (c / 64) else s

/-- IMMEDIATE_MAPOUT: a candidate is mapped out at once, with every frame interrupted; one that cannot be is fenced (R406, R408, R410, R412). -/
def immediateMapout (c at_ : Nat) (s : State) : State :=
  let s := s.reach at_
  if (c, true) ∈ s.hbm.cand ∧ c < 512 then
    let own := (match s.hbm.copy with | some (k, _) => k == c | none => false) || s.hbm.ready == some c
    let free : State := { s with hbm := { s.hbm with copy := none, ready := none } }
    if s.mapoutOk (c / 64) ∨ (own ∧ free.mapoutOk (c / 64)) then
      (((s.interruptAll 8).mapOutNow c).each (List.range 8) State.dieStatus).reefStore
    else (s.fence c).ninth (c / 64)
  else s

/-- CP_WATCHDOG: the next control processor in index order takes over (R627). -/
def cpWatchdog (c at_ : Nat) (s : State) : State :=
  let s := s.reach at_
  if c < 4 then (s.cpTakeover c ((c + 1) % 4)).eventW 0x0705 757 none none c ((c + 1) % 4) else s

end Sys2Proof.Machine
end

