-- ==== Sys2Proof/Machine/Boot.lean ====
section
/-! DEFINITION. Bring-up, clocks, firmware, die and package resets, fiber shells (ch. 19, R665–R697; ch. 22). -/

namespace Sys2Proof.Machine

/-! ### Stages (R666–R670) -/

/-- DEV_STATUS.STAGE. -/
def State.stage (s : State) : Nat := s.fld .devStatus F.devStatus_STAGE

/-- Harbour mode or full service is open: the package works. -/
def State.open_ (s : State) : Bool := s.stage == 5 || s.stage == 6

/-- A change of STAGE, logged. -/
def State.setStage (s : State) (v : Nat) : State :=
  if s.stage = v then s else (s.setFld .devStatus F.devStatus_STAGE v).eventW 0x0801 754 none none v 0

/-- Every light but the causeway's goes out: straits and stream ports dark, host link down (R674). -/
def State.lightsOff (s : State) (at_ : Nat) : State :=
  let s := s.each (List.range 32) (fun s n => if s.strState n = 0 then s else (s.strDown n).setStrState n 0)
  let s := s.each (List.range 4) (fun s f => if s.fryState f = 0 then s else s.setFryState f 0)
  hostLinkDown at_ s

/-! ### Identity memories (R693–R696, R753) -/

/-- TYPE that the port of a shell calls for (R27, R693). -/
def shellType (k : Nat) : Nat := if k < 32 then 0 else if k = 33 then 2 else if k = 36 then 3 else 1

/-- What an identity memory says is recorded and acted on (R695, R696). -/
def State.readShell (s : State) (k : Nat) (img : List Byte) : State :=
  let img := (img ++ List.replicate 256 0).take 256
  let s : State := { s with boot := { s.boot with shells := sput k img s.boot.shells } }
  let valid := leBytes (img.drop 254) == crc16 (img.take 254) && img.take 1 == [0x30#8]
  let typ := if valid then leBytes ((img.drop 1).take 1) else 0xFF
  let len := if valid && typ != 0xFF then leBytes ((img.drop 24).take 4) else 0
  let bad := typ != 0xFF && typ != shellType k
  let s := s.setReg (.devShell k) (BitVec.ofNat 64
    (1 + (if valid then 2 else 0) + (if bad then 4 else 0) + typ * 256 + len * 2 ^ 32))
  let s := if k < 32 then s.setFld (.strDelay k) F.strDelay_EXPECTED (min 65535 (len / 2)) else s
  if !valid then s.eventW 0x0803 754 none none k 0
  else if bad then s.eventW 0x0803 754 none none k 1
  else s

/-- SHELL_INSERTED: the pads make contact, and the identity memory is read (R695, R696). -/
def shellInserted (k : Nat) (img : List Byte) (at_ : Nat) (s : State) : State :=
  let s := s.reach at_
  if k < 38 then s.readShell k img else s

/-- The port of a shell goes down (R513, R561, R612, R686). -/
def State.portGone (s : State) (k at_ : Nat) : State :=
  if k < 32 then
    let s := s.setFld (.strDelay k) F.strDelay_EXPECTED 0
    if s.strState k = 0 ∨ s.strState k = 7 then s else (s.strDown k).strEvent k
  else if k = 33 then hostLinkDown at_ s
  else if k = 36 then
    ((s.setFld .cswStatus F.cswStatus_LIGHT 0).setFld .cswStatus F.cswStatus_LOCKED 0).relevel 685
  else
    match findIdxN (fun f => ferryShell f == k) 0 (List.range 4) with
    | some f => (s.setFld (.fryStatus f) F.fryStatus_LANES 0).setFryState f 6
    | none => s

/-- SHELL_REMOVED: transmitters off, and the port goes down (R753). -/
def shellRemoved (k : Nat) (at_ : Nat) (s : State) : State :=
  let s := s.reach at_
  if 38 ≤ k ∨ !s.bit (.devShell k) F.devShell_PRESENT then s
  else
    let s := s.setReg (.devShell k) (Reg.devShell k).reset
    ({ s with boot := { s.boot with shells := sdel k s.boot.shells } } : State).portGone k at_

/-! ### Power and resets (R665, R690, R743, R745) -/

/-- The package at the start of bring-up: everything at its reset value, but for fuses, flash, shells, the address with the state of the causeway receiver, the host's own memory, and what has left the package. -/
def State.cold (s : State) : State :=
  let r : State := { State.reset with
    pending := s.pending, hard := { s.hard with lock := 0 }, fresh := s.fresh, outbox := s.outbox
    mem := s.mem.filter (fun c => decide (2 ^ 64 ≤ c.1))
    host := { ({} : HostSt) with epoch := s.host.epoch }
    boot := { shells := s.boot.shells, flash := s.boot.flash, cells := s.boot.cells } }
  let r := r.setReg .cswStatus (s.reg .cswStatus)
  let r := s.boot.shells.foldl (fun r k => r.readShell k.1 k.2) r
  { r with hard := { s.hard with lock := 0 }, pending := s.pending }

/-- RAIL_FAULT: a rail has left its window, and all logic but the causeway stops; without VCSW the package is off and loses its address (R665, R743, R745). -/
def railFault (vcsw : Bool) (s : State) : State :=
  let s := s.cold
  let s := if vcsw then s.setReg .cswStatus 0 else s
  let keep := s.hard.vcsw && !vcsw
  { s with hard := { s.hard with
      rails := false, vcsw := keep, cswValid := keep && s.hard.cswValid,
      cswPos := if keep then s.hard.cswPos else 0, cswChassis := if keep then s.hard.cswChassis else 0 } }

/-- POWER_GOOD: every rail has held its window for 2 ms, and bring-up starts (R665). -/
def powerGood (s : State) : State :=
  if s.hard.rails then s
  else
    let s := s.cold
    { s with hard := { s.hard with rails := true, vcsw := true } }

/-- PACKAGE_RESET: bring-up from step 2; pending map-outs apply and are recorded, the address stays (R408, R411, R690). -/
def State.packageReset (s : State) : State :=
  let s := (s.each (List.range 8) State.rebuildDie).reefStore
  let e := (List.range 4).map (fun f => s.fld (.fryStatus f) F.fryStatus_EPOCH)
  let s := s.cold
  s.each e.zipIdx (fun s x => (s.setFerry x.2 { restart := true }).setFld (.fryStatus x.2) F.fryStatus_EPOCH (x.1 + 1))

/-! ### Clocks (R671–R677) -/

/-- CRYSTAL_WINDOW passes with a count in range and no gap (R671). -/
def windowOk (count : Nat) (gap : Bool) : Bool := decide (200704 ≤ count) && decide (count ≤ 208896) && !gap

/-- Steps 4 to 7 of bring-up: the crystal is the reference, system time starts at 0, and a good image runs, or STAGE reads firmware fail (R58, R666, R678). -/
def State.bootFirmware (s : State) : State :=
  let s := s.setFld .clkStatus F.clkStatus_REF 1
  let s : State := { s with frm := { s.frm with now := 0, frac := 0 } }
  let s := s.relevel 753
  match s.bootSlot with
  | none => s.setStage 2
  | some n =>
    let h := s.nor (imageSlot n) 4096
    let s := s.setFld .devFw F.devFw_FW_VERSION (imageVersion h)
    let s := s.setFld .devFw F.devFw_SLOT n
    ({ s with boot := { s.boot with fwSvn := imageSvn h } } : State).setStage 3

/-- The first substitute reference available: the source link's recovered clock, the causeway's, or holdover (R673). -/
def State.substitute (s : State) : State :=
  let n := s.fld .frmStatus F.frmStatus_SOURCE_LINK
  let s := if s.strUp n then (s.setFld .clkStatus F.clkStatus_REF 2).setFld .clkStatus F.clkStatus_REF_LINK n
    else if s.bit .cswStatus F.cswStatus_LOCKED then s.setFld .clkStatus F.clkStatus_REF 3
    else ({ s with boot := { s.boot with holdSince := some s.frm.now } } : State).setFld .clkStatus F.clkStatus_REF 4
  (s.relevel 753).eventW 0x0802 753 none none (s.fld .clkStatus F.clkStatus_REF) 0

/-- CRYSTAL_WINDOW: a monitor window ends (R671–R673, R675). -/
def crystalWindow (count : Nat) (gap : Bool) (at_ : Nat) (s : State) : State :=
  let s := s.reach at_
  let ok := windowOk count gap
  let s := s.setFld .clkXtal F.clkXtal_COUNT count
  let s := s.setFld .clkStatus F.clkStatus_XTAL_OK (if ok then 1 else 0)
  let s := if ok then s else s.satFld .clkXtal F.clkXtal_BAD 1
  let s : State := { s with boot := { s.boot with good := if ok then s.boot.good + 1 else 0 } }
  let ref := s.fld .clkStatus F.clkStatus_REF
  if ref = 0 then
    if s.stage ≠ 0 then s
    else if ok then (if 2 ≤ s.boot.good then s.bootFirmware else s)
    else
      let s : State := { s with boot := { s.boot with tries := s.boot.tries + 1 } }
      if 8 ≤ s.boot.tries then s.setStage 1 else s
  else if ok then s
  else
    let s := ({ s with boot := { s.boot with toCrystal := false } } : State).setFld .clkStatus F.clkStatus_XTAL_FAIL 1
    if ref = 1 then s.substitute else s

/-- CLOCK_HOLDOVER_LIMIT: 10 ms of reference holdover end service (R674). -/
def clockHoldoverLimit (at_ : Nat) (s : State) : State :=
  let s := s.reach at_
  match s.boot.holdSince with
  | some t =>
    if s.fld .clkStatus F.clkStatus_REF = 4 ∧ t + 10000000 ≤ s.frm.now ∧ s.stage ≠ 1 then
      ((s.interruptAll 0).setStage 1).lightsOff at_
    else s
  | none => s

/-- XTAL_RETURN: after 16 passing windows in a row, the references return to the crystal at the next tick (R675). -/
def xtalReturn (s : State) : State :=
  if s.bit .clkCtrl F.clkCtrl_XTAL_RETURN ∧ 16 ≤ s.boot.good ∧ 2 ≤ s.fld .clkStatus F.clkStatus_REF then
    { s with boot := { s.boot with toCrystal := true } }
  else s

/-- The tick at which the references return to the crystal (R675). -/
def State.crystalTick (s : State) : State :=
  if s.boot.toCrystal then
    let s : State := { s with boot := { s.boot with toCrystal := false, holdSince := none } }
    (s.setFld .clkStatus F.clkStatus_REF 1).relevel 753
  else s

/-- PLL_RETUNE: the PLL has held lock for 2 µs, and its output is switched back to it (R677). -/
def pllRetune (kind unit : Nat) (s : State) : State :=
  { s with boot := { s.boot with safe := s.boot.safe.filter (fun x => x ≠ (kind, unit)) } }

/-- Die of an optical port, by shell (R27). -/
def shellDie (k : Nat) : Nat :=
  if k < 32 then k / 4 else if k = 32 then 0 else if k ≤ 34 then 4 else if k ≤ 36 then 3 else 7

/-- PLL_FAIL: a retune not complete within 50 µs leaves the output on the safe clock: a region fault for a core PLL, else a die fault (R677). -/
def pllFail (kind unit at_ : Nat) (s : State) : State :=
  let s := s.reach at_
  if (kind = 0 ∧ unit < 128) ∨ (kind = 1 ∧ unit < 8) ∨ (kind = 2 ∧ unit < 38) then
    let s : State := { s with boot := { s.boot with safe := insertNew (kind, unit) s.boot.safe } }
    let s := s.satFld .clkOsc F.clkOsc_PLL_FAIL 1
    let s := s.eventW 0x0804 753 none none kind unit
    if kind = 0 then (if unit ∈ s.boot.withheld then s else s.regionFault unit)
    else s.dieFault (if kind = 1 then unit else shellDie unit)
  else s

/-! ### Opening for work (R667–R670, R681, R682) -/

/-- A core that fails self-test: spare, absent core, or a withheld region at the third of its cluster (R681). -/
def State.selfTestCore (s : State) (pid : Nat) : State :=
  if 32768 ≤ pid ∨ 16 < pid % 32 then s
  else
    match s.logicalOf pid with
    | none => s
    | some l =>
      let n := s.lostIn (pid / 32)
      if l ∈ s.absent then s
      else if 2 ≤ n then { s with boot := { s.boot with withheld := insertNew (l / 128) s.boot.withheld } }
      else s.coreOut pid (n != 0)

/-- PASSED and FAILED of DEV_STATUS (R668). -/
def State.dieBits (s : State) : State :=
  let m := fun (f : Nat → Bool) => sumN ((List.range 8).map (fun d => if f (nthD s.boot.dieStat d 0) then 2 ^ d else 0))
  let s := s.setFld .devStatus F.devStatus_PASSED (m (fun x => x == 0 || x == 3))
  s.setFld .devStatus F.devStatus_FAILED (m (fun x => x == 1 || x == 2))

/-- Self-test, reef map and HBM training have ended with these results: per die 0 passed, 1 failed self-test, 2 failed HBM; physical cores and regions that failed (R667, R668, R681, R682). -/
def State.openHarbour (s : State) (dies cores regions : List Nat) : State :=
  let s := match s.reefStored with | some b => s.reefLoad b | none => s
  let s := s.each cores State.selfTestCore
  let s : State := { s with
    mem := s.mem.filter (fun c => decide (2 ^ 64 ≤ c.1)), poison := []
    boot := { s.boot with
      withheld := (regions.filter (· < 128)).foldl (fun l r => insertNew r l) s.boot.withheld
      dieStat := (List.range 8).map (fun d => min 2 (nthD dies d 0)) } }
  let s := (s.each (List.range 8) State.dieStatus).dieBits
  let s := s.reefStore
  if (List.range 8).all (fun d => nthD s.boot.dieStat d 0 != 0) then s.setStage 7 else s.setStage 5

/-- HARBOUR_MODE_OPEN: steps 8 to 11 of bring-up end (R667). -/
def harbourModeOpen (dies cores regions : List Nat) (at_ : Nat) (s : State) : State :=
  let s := s.reach at_
  if s.stage ≠ 3 ∧ s.stage ≠ 4 then s else s.openHarbour dies cores regions

/-- Full service opens: regions step up from here on (R668, R670). -/
def State.openFull (s : State) : State :=
  let s : State := { s with boot := { s.boot with fullDue := false }, pwr := { s.pwr with rising := List.range 128 } }
  s.setStage 6

/-- Every enabled port is up or degraded, or among the shells that have stayed without light for 10 s (R670). -/
def State.settled (s : State) (dark : List Nat) : Bool :=
  (List.range 32).all (fun n => !s.bit (.strCtrl n) F.strCtrl_ENABLE || s.strUp n || decide (n ∈ dark)) &&
  (List.range 4).all (fun f => !s.bit (.fryCtrl f) F.fryCtrl_ENABLE || s.fryUp f || decide (ferryShell f ∈ dark))

/-- FULL_SERVICE_OPEN: background self-tests have ended, and every enabled port is up or degraded or among `dark`, the shells that have stayed without light for 10 s; at the next tick, or at once while frames are disabled (R670). -/
def fullServiceOpen (dark : List Nat) (at_ : Nat) (s : State) : State :=
  let s := s.reach at_
  if s.stage = 5 ∧ s.settled dark then
    if s.bit .frmCtrl F.frmCtrl_ENABLE then { s with boot := { s.boot with fullDue := true } } else s.openFull
  else s

/-! ### Die reset (R411, R427, R614, R668, R690) -/

/-- Ferries of a die (R25). -/
def ferriesOf (d : Nat) : List Nat := (List.range 4).filter (fun f => nthD [0, 4, 3, 7] f 8 == d)

/-- A region that a failing die takes with it leaves its partition (R668). -/
def State.regionLeaves (s : State) (r : Nat) : State :=
  let p := s.fld (.schRegState r) F.schRegState_PARTITION
  let s := s.setFld (.schRegState r) F.schRegState_PARTITION 0x7F
  if p < 64 ∧ (s.regionsOf p).length ≤ 1 then s.partGone p else s

/-- A die restarts in service: the steps open on the die are abandoned, its SRAM and HBM are zeroed with pending map-outs applied, its stream ports restart, and with STATUS 0 it joins at the next tick (R411, R614, R668, R681, R690). -/
def State.dieRestart (s : State) (d stat : Nat) (cores : List Nat) : State :=
  let ps := s.busyParts.filter (fun p => (s.regionsOf p).any (fun r => r / 16 == d))
  let s := s.each ps State.abandon
  let s := s.rebuildDie d
  let sram := fun k => decide (2 ^ 60 + 2048 * d * 0xC0000 ≤ k) && decide (k < 2 ^ 60 + 2048 * (d + 1) * 0xC0000)
  let s : State := { s with
    mem := s.mem.filter (fun c => !sram c.1), poison := s.poison.filter (fun b => !sram (64 * b))
    pwr := { s.pwr with stopped := s.pwr.stopped.filter (· ≠ d) } }
  let s := s.l0Drop (fun c => c / 2048 == d)
  let s := s.each (cores.filter (fun c => c / 4096 == d)) State.selfTestCore
  let s := s.each (ferriesOf d) State.ferryDieReset
  if stat = 0 then
    ({ s with boot := { s.boot with joining := insertNew d s.boot.joining } } : State).reefStore
  else
    let s : State := { s with boot := { s.boot with dieStat := s.boot.dieStat.set d (min 2 stat), joining := s.boot.joining.filter (· ≠ d) } }
    let s := (s.dieStatus d).dieBits
    (s.each ((List.range 16).map (16 * d + ·)) State.regionLeaves).reefStore

/-- A die reset; during bring-up, bring-up goes back to step 8 (R690). -/
def State.dieReset (s : State) (d stat : Nat) (cores : List Nat) : State :=
  if s.stage = 3 ∨ s.stage = 4 then s.setStage 3
  else if s.stage < 5 then s
  else s.dieRestart d stat cores

/-- DIE_RESET. -/
def dieResetCmd (d stat : Nat) (cores : List Nat) (at_ : Nat) (s : State) : State :=
  let s := s.reach at_
  if d < 8 then s.dieReset d stat cores else s

/-- At a tick the dies that passed their reset join (R668). -/
def State.joinTick (s : State) : State :=
  if s.boot.joining.isEmpty then s
  else
    let l := s.boot.joining
    let s : State := { s with boot := { s.boot with joining := [], dieStat := l.foldl (fun a d => a.set d 0) s.boot.dieStat } }
    ((s.each l State.dieStatus).dieBits).reefStore

/-! ### Firmware (R679, R680) -/

/-- Address, header and body of the staged image (R679). -/
def State.stagedAt (s : State) : Nat := s.fld .devFwStage F.devFwStage_ADDR * 64
def State.stagedHead (s : State) : List Byte := s.rd s.stagedAt 4096
def State.stagedBody (s : State) : List Byte := s.rd (s.stagedAt + 4096) (min (imageLen s.stagedHead) 16773120)

/-- Whether the staged image passes the checks of R678. -/
def State.stagedOk (s : State) : Bool :=
  spaceOf s.stagedAt == 0 && s.isOwn (pkgOf s.stagedAt) && s.exists_ 0 (offOf s.stagedAt) (4096 + s.stagedBody.length)
    && imageOk s.hard.svn s.stagedHead s.stagedBody

/-- The image is written to a slot, header last, and the slot becomes the one to boot from (R679). -/
def State.storeImage (s : State) (n : Nat) (h body : List Byte) : State :=
  let s := s.norWr (imageSlot n) (List.replicate 4096 0xFF#8)
  let s := s.norWr (imageSlot n + 4096) body
  let s := s.norWr (imageSlot n) h
  s.norWr 0 [BitVec.ofNat 8 n]

/-- FIRMWARE_UPDATE: the staged image is verified and written to the inactive slot (R679). -/
def State.fwUpdate (s : State) : State :=
  if s.stage < 3 ∨ s.stage = 7 then s
  else if s.stagedOk then
    (s.storeImage (1 - s.fld .devFw F.devFw_SLOT) s.stagedHead s.stagedBody).setFld .devFwCtrl F.devFwCtrl_RESULT 2
  else s.setFld .devFwCtrl F.devFwCtrl_RESULT 3

/-- COMMIT_SVN: the fuse counter rises to the SVN of the running image, and never falls (R680). -/
def commitSvn (s : State) : State :=
  if 3 ≤ s.stage ∧ s.stage ≠ 7 then { s with hard := { s.hard with svn := max s.hard.svn (min s.boot.fwSvn 64) } } else s

end Sys2Proof.Machine
end

