-- ==== Sys2Proof/Machine/Reset.lean ====
section
/-! DEFINITION. Context resets, function level resets, partition set-up and tear-down (R20–R22, R124, R125, R566, R567, R592–R594, R624). -/

namespace Sys2Proof.Machine

/-! ### Context reset (R592) -/

/-- An operation as a context reset ends it: it only completes, with status 0x60 (R124, R125). -/
def Op.resetEnd (o : Op) : Op :=
  { o with stage := .finished, status := 0x60, detail := 0, aux := o.aux0, reads := [], fetched := [], await := 0, tasksLeft := 0, charge := 0, prog := [] }

/-- Step 6 of R592: gather records, pool buffers, groups, alias rebuilds, queued moves and stream channels of a context are released, and what else is kept under its name. -/
def State.releaseContext (s : State) (c : Nat) : State :=
  let s := s.freeCharts (fun x => x.ctx == c)
  let s := s.modPart (s.partOf c) (fun x => { x with
    pool := x.pool.filter (fun b => b.ctx ≠ c),
    freed := (x.pool.filter (fun b => b.ctx == c)).foldl (fun l b => insertNew (s.poolAddr x.id b.unit) l) x.freed,
    charts0 := x.charts0.filter (fun g => g.ctx ≠ c) })
  let s : State := { s with
    groups := s.groups.filter (fun g => g.2.ctx ≠ c)
    gradCarry := s.gradCarry.filter (fun g => g.ctx ≠ c), redCarry := s.redCarry.filter (fun g => g.ctx ≠ c)
    coll := { s.coll with runs := s.coll.runs.filter (fun r => r.ctx ≠ c) }
    net := { s.net with waits := s.net.waits.filter (fun w => match w.what with | .fetching x _ => x ≠ c | .msg _ x _ _ => x ≠ c) }
    tbl := { s.tbl with
      ledgers := s.tbl.ledgers.filter (fun l => l.ctx ≠ c), known := s.tbl.known.filter (fun k => k.ctx ≠ c)
      merge := s.tbl.merge.filter (fun m => (s.op? m.op).elim true (fun o => o.ctx ≠ c)) } }
  let s := (s.groupStatus.dropAlias c).dropMoves (fun m => m.ctx == c)
  s.channelsOfContext c

/-- A context reset is asked for: steps 1 to 6 of R592, and its operations wait to complete with status 0x60 in the next commit phase (R124, R125). -/
def State.contextReset (s : State) (c : Nat) : State :=
  match s.ctx? c with
  | none => s
  | some x =>
    if s.bit (.ctxStatus c) F.ctxStatus_RESET_BUSY then s
    else
      let p := s.partOf c
      let own := (s.ops.filter (fun o => o.ctx == c)).map Op.seq
      let s := s.setFld (.ctxStatus c) F.ctxStatus_RESET_BUSY 1
      let s := s.setCtx { x with resetStep := 1 }
      let s := s.wakeTasks (fun t => decide (t.op ∈ own))
      let s := if s.bit (.hstPartCtrl p) F.hstPartCtrl_ACTIVE ∧ s.fld (.hstPartCtrl p) F.hstPartCtrl_PRIMARY = c then s.abandon p
        else s.restore p (fun r => r.ctx == c)
      let back := ((s.part p).rerun.filter (fun o => o.ctx == c)).map Op.resetEnd
      let s := s.modPart p (fun x => { x with rerun := x.rerun.filter (fun o => o.ctx ≠ c) })
      let s : State := { s with
        ops := s.ops.map (fun o => if o.ctx = c then o.resetEnd else o) ++ back
        sync := { s.sync with
          watches := s.sync.watches.filter (fun w => w.op ∉ own), polls := s.sync.polls.filter (fun w => w.op ∉ own) } }
      s.releaseContext c

/-- DOORBELL_RESET: 1 written to the RESET register of a doorbell page (R586, R588). -/
def doorbellReset (fn page v at_ : Nat) (s : State) : State :=
  let s := s.reach at_
  match s.pageCtx fn page with
  | some c => if v = 1 then s.contextReset c else s
  | none => s

/-- At a tick, a context reset whose completions have been written and whose writes have drained may end (R592, step 8). -/
def State.resetTick (s : State) : State :=
  s.each s.ctxs (fun s x =>
    if x.2.resetStep = 1 ∧ (s.opsOf x.1).isEmpty ∧ s.ctxDrained x.1 then s.setCtx { s.ctx x.1 with resetStep := 2 } else s)

/-- The context leaves service; every other field of its entry stays (R592). -/
def State.contextOut (s : State) (c : Nat) : State :=
  let s := s.setFld (.ctxCtrl c) F.ctxCtrl_ENABLE 0
  let s := s.setFld (.ctxStatus c) F.ctxStatus_ACTIVE 0
  let s := s.setFld (.ctxStatus c) F.ctxStatus_RESET_BUSY 0
  { s with ctxs := sdel c s.ctxs }

/-! ### Partitions (R20–R22, R349, R566, R567, R480, R384, R554) -/

/-- Regions that the masks of a partition name, rising. -/
def State.namedRegions (s : State) (p : Nat) : List Nat :=
  setBits 64 (s.reg (.hstPartRegionsLo p)).toNat ++ (setBits 64 (s.reg (.hstPartRegionsHi p)).toNat).map (64 + ·)

/-- ERR of a partition's set-up; 0 when it is accepted (R566). -/
def State.partErr (s : State) (p : Nat) : Nat :=
  let rs := s.namedRegions p
  let c := s.fld (.hstPartCtrl p) F.hstPartCtrl_PRIMARY
  if rs.length < 2 then 1
  else if rs.any (fun r => s.fld (.schRegState r) F.schRegState_PARTITION != 0x7F || s.withheldRegion r) then 2
  else if !s.bit (.hstPartCtrl p) F.hstPartCtrl_VIEW ∧ 256 < s.fld .rasTopo F.rasTopo_PACKAGES then 3
  else if !s.bit (.ctxCtrl c) F.ctxCtrl_ENABLE ∨ (s.ctx? c).isNone ∨ s.partOf c ≠ p then 5
  else 0

/-- A partition is checked at a tick: it becomes active, or is refused (R349, R566). -/
def State.partSetUp (s : State) (p : Nat) : State :=
  let e := s.partErr p
  let s := s.setFld (.hstPartCtrl p) F.hstPartCtrl_ERR e
  if e = 0 then
    let s := s.setFld (.hstPartCtrl p) F.hstPartCtrl_ACTIVE 1
    let s := s.each (s.namedRegions p) (fun s r => s.setFld (.schRegState r) F.schRegState_PARTITION p)
    let s := s.setPart { id := p, seed := (s.part p).seed, stepFirst := s.frame }
    (((s.streamReg p).barClear p).fillClear p).predClear p
  else s.setFld (.hstPartCtrl p) F.hstPartCtrl_ENABLE 0

/-- A partition is torn down (R349, R567). -/
def State.tearDown (s : State) (p : Nat) : State := (s.setFld (.hstPartCtrl p) F.hstPartCtrl_ENABLE 0).partOut p

/-- At a tick, partitions are set up and torn down in ascending index (R566, R567). -/
def State.partTick (s : State) (p : Nat) : State :=
  let en := s.bit (.hstPartCtrl p) F.hstPartCtrl_ENABLE
  let act := s.bit (.hstPartCtrl p) F.hstPartCtrl_ACTIVE
  let due := s.host.setUps.contains p
  let s : State := { s with host := { s.host with setUps := s.host.setUps.filter (· ≠ p) } }
  if due ∧ en ∧ !act then s.partSetUp p else if !en ∧ act then s.tearDown p else s

/-- Whether a context of a partition is enabled (R567). -/
def State.partInUse (s : State) (p : Nat) : Bool :=
  s.ctxs.any (fun x => s.bit (.ctxCtrl x.1) F.ctxCtrl_ENABLE && s.partOf x.1 == p)

/-- A write of HST_PART_CTRL: VIEW only while ACTIVE is 0; a write that clears ENABLE of an active partition with a context enabled is ignored (R566, R567). -/
def State.partCtrlWrite (s : State) (p : Nat) (v : Word) : State :=
  let r := Reg.hstPartCtrl p
  let act := s.bit r F.hstPartCtrl_ACTIVE
  let en := F.hstPartCtrl_ENABLE.get v
  if act ∧ en = 0 ∧ s.partInUse p then s.setFld r F.hstPartCtrl_ERR 4
  else
    let s := s.setFld r F.hstPartCtrl_ENABLE en
    let s : State := if act then s else { s with host := { s.host with setUps := insertNew p s.host.setUps } }
    let s := if act then s else s.setFld r F.hstPartCtrl_VIEW (F.hstPartCtrl_VIEW.get v)
    s.setFld r F.hstPartCtrl_PRIMARY (F.hstPartCtrl_PRIMARY.get v)

/-! ### Function level resets (R594) -/

/-- MSI-X state of a function returns to its reset state (PCIe). -/
def State.msixReset (s : State) (fn : Nat) : State :=
  { s with evt := { s.evt with
      msix := s.evt.msix.filter (fun x => x.1 / 4096 ≠ fn), msixPend := s.evt.msixPend.filter (fun x => x / 4096 ≠ fn)
      moder := s.evt.moder.filter (fun x => x.1 / 4096 ≠ fn) } }

/-- FLR_VF: every context of the function is reset (R594). -/
def flrVf (fn at_ : Nat) (s : State) : State :=
  let s := s.reach at_
  if fn = 0 ∨ 255 < fn then s
  else (s.each ((s.ctxs.map Prod.fst).filter (fun c => s.fnOf c == fn)) State.contextReset).msixReset fn

/-- The end of an FLR of the physical function, once its contexts have left service: every partition is torn down, and the context set-up table and SR-IOV return to reset (R594). -/
def State.flrEnd (s : State) : State :=
  let s := s.each ((List.range 64).filter (fun p => s.bit (.hstPartCtrl p) F.hstPartCtrl_ENABLE || s.bit (.hstPartCtrl p) F.hstPartCtrl_ACTIVE)) State.tearDown
  let s : State := { s with
    regs := s.regs.filter (fun r => !(decide (0x200000 ≤ r.1) && decide (r.1 < 0x280000)))
    host := { s.host with vfEnable := false, numVfs := 0, flr := false } }
  s.each (List.range 256) State.msixReset

/-- FLR_PF: every context is reset; with the last one out, the reset ends (R594; log entry 74). -/
def flrPf (at_ : Nat) (s : State) : State :=
  let s := s.reach at_
  let s := s.each (s.ctxs.map Prod.fst) State.contextReset
  if s.ctxs.isEmpty then s.flrEnd else { s with host := { s.host with flr := true } }

/-- CONTEXT_RESET_DONE: the tick after the reset completions has come (R592, step 8); the last context of an FLR of the physical function ends it (R594). -/
def contextResetDone (c : Nat) (s : State) : State :=
  if (s.ctx c).resetStep = 2 then
    let s := s.contextOut c
    if s.host.flr ∧ s.ctxs.isEmpty then s.flrEnd else s
  else s

end Sys2Proof.Machine
end

