-- ==== Sys2Proof/Machine/Power.lean ====
section
/-! DEFINITION. S states, and attestation with link encryption (R453, R454, R520, R595, R596, R668). -/

namespace Sys2Proof.Machine

/-! ### S states -/

/-- Whether an S state has been asked for and not entered. -/
def State.sPending (s : State) : Bool := s.fld .pwrCtrl F.pwrCtrl_REQ != 0 && s.bit .pwrStatus F.pwrStatus_BUSY

/-- A write of PWR_CTRL: REQ 1 or 2 asks for an S state, REQ 0 wakes or withdraws, 3 leaves the field; harbour mode ignores REQ (R453, R454, R668). -/
def State.pwrCtrlWrite (s : State) (v : Word) : State :=
  let s := s.setFld .pwrCtrl F.pwrCtrl_WAKE_DOORBELL (F.pwrCtrl_WAKE_DOORBELL.get v)
  let s := s.setFld .pwrCtrl F.pwrCtrl_WAKE_LINK (F.pwrCtrl_WAKE_LINK.get v)
  let r := F.pwrCtrl_REQ.get v
  if r = 3 ∨ s.stage = 5 then s
  else
    let s := s.setFld .pwrCtrl F.pwrCtrl_REQ r
    if r = 0 then (s.setFld .pwrStatus F.pwrStatus_BUSY 0).wake
    else if s.fld .pwrStatus F.pwrStatus_STATE = r then s
    else s.setFld .pwrStatus F.pwrStatus_BUSY 1

/-- Whether nothing is admitted anywhere and no restore runs (R453). -/
def State.idleNow (s : State) : Bool :=
  s.ops.all (fun o => o.stage == .refused) && s.parts.all (fun p => !p.2.restoring && !p.2.recovering && p.2.rerun.isEmpty)

/-- S_STATE_ENTRY: at the first idle tick the package enters the state asked for; straits go to one wavelength or dark, stream ports down (R453, R520). -/
def sStateEntry (at_ : Nat) (s : State) : State :=
  let s := s.reach at_
  if s.sPending ∧ (s.pwr.noAdmit ∨ !s.bit .frmCtrl F.frmCtrl_ENABLE) ∧ s.idleNow then
    let st := s.fld .pwrCtrl F.pwrCtrl_REQ
    let s := s.setFld .pwrStatus F.pwrStatus_STATE st
    let s := s.setFld .pwrStatus F.pwrStatus_BUSY 0
    let s := s.each ((List.range 32).filter s.strUp) (fun s n =>
      if s.bit (.strCtrl n) F.strCtrl_KEEPALIVE then (s.setStrState n 4).lineStart n else (s.strDown n).setStrState n 0)
    let s := s.each ((List.range 4).filter s.fryUp) (fun s f => s.setFryState f 6)
    s.eventW 0x0204 756 none none st 0
  else s

/-- WAKE: a link wake message (R454). -/
def State.linkWake (s : State) : State := if s.bit .pwrCtrl F.pwrCtrl_WAKE_LINK then s.wake else s

/-! ### Attestation (R595) -/

/-- The content of a measurement block (R595); digests follow in byte order of the value. -/
def State.measurement (s : State) (i : Nat) : List Byte :=
  let digest := fun (b : BitVec 384) => toLe 48 b.toNat
  match i with
  | 1 => digest Config.romDigest
  | 2 => ((s.nor (imageSlot (s.fld .devFw F.devFw_SLOT)) 64).drop 16).take 48
  | 3 => toLe 4 s.boot.fwSvn
  | 4 => digest (Config.sha384 (Config.fuseConfig s.hard.svn))
  | 5 => digest (Config.sha384 s.reefImage)
  | 6 => digest (Config.sha384 (toLe 8 s.hard.lock.toNat ++ toLe 8 (s.reg .hstCtrl).toNat))
  | _ => []

/-- Whether the DOE mailbox answers: the host link is up and firmware runs. -/
def State.doe (s : State) : Bool := s.hostUp && decide (3 ≤ s.stage)

/-- An SPDM request is answered when the connection has come as far as `from_`; out of turn it is answered with an error (R595; log entry 4). -/
def State.spdmStep (s : State) (code : Nat) (req : List Byte) (ok : Bool) (upd : State → State) : State :=
  if !s.doe then s
  else if ok then ({ upd s with fresh := s.fresh + 1 } : State).emit (.spdm code (Config.spdmAnswer code req s.fresh))
  else s.emit (.spdm 0x7F [0x04#8])

/-- Set how far the SPDM connection has come. -/
def State.spdmAt (s : State) (n : Nat) : State := { s with host := { s.host with spdm := n } }

/-- GET_VERSION starts the connection anew. -/
def spdmVersion (req : List Byte) (s : State) : State := s.spdmStep 0x04 req true (fun s => s.spdmAt 1)
def spdmCapabilities (req : List Byte) (s : State) : State := s.spdmStep 0x61 req (s.host.spdm == 1) (fun s => s.spdmAt 2)
def spdmAlgorithms (req : List Byte) (s : State) : State := s.spdmStep 0x63 req (s.host.spdm == 2) (fun s => s.spdmAt 3)
def spdmDigests (req : List Byte) (s : State) : State := s.spdmStep 0x01 req (decide (3 ≤ s.host.spdm)) id
def spdmCertificate (req : List Byte) (s : State) : State := s.spdmStep 0x02 req (decide (3 ≤ s.host.spdm)) id
def spdmChallenge (req : List Byte) (s : State) : State := s.spdmStep 0x03 req (decide (3 ≤ s.host.spdm)) id

/-- GET_MEASUREMENTS: the number of blocks (operation 0), every block (0xFF), or one (R595). -/
def spdmMeasurements (op : Nat) (req : List Byte) (s : State) : State :=
  let body := if op = 0 then [6#8] else if op = 0xFF then ([1, 2, 3, 4, 5, 6] : List Nat).flatMap s.measurement else s.measurement op
  if s.doe ∧ 3 ≤ s.host.spdm ∧ (op ≤ 6 ∨ op = 0xFF) then
    ({ s with fresh := s.fresh + 1 } : State).emit (.spdm 0x60 (body ++ Config.spdmAnswer 0x60 req s.fresh))
  else if s.doe then s.emit (.spdm 0x7F [0x04#8])
  else s

/-- KEY_EXCHANGE starts a session. -/
def spdmKeyExchange (req : List Byte) (s : State) : State := s.spdmStep 0x64 req (s.host.spdm == 3) (fun s => s.spdmAt 4)

/-- FINISH completes its set-up. -/
def spdmFinish (req : List Byte) (s : State) : State := s.spdmStep 0x65 req (s.host.spdm == 4) (fun s => s.spdmAt 5)

/-- END_SESSION ends it. -/
def spdmEndSession (req : List Byte) (s : State) : State := s.spdmStep 0x6C req (s.host.spdm == 5) (fun s => s.spdmAt 3)

/-! ### IDE (R596) -/

/-- IDE_KEY_MANAGEMENT: keys of a stream (0 the link stream, 1 to 8 selective ones) are set in service, or taken out of it; only inside an SPDM session (R596). -/
def ideKeys (stream : Nat) (set : Bool) (s : State) : State :=
  if s.doe ∧ s.host.spdm = 5 ∧ stream ≤ 8 then
    let l := if set then insertNew stream s.host.ide else s.host.ide.filter (· ≠ stream)
    let s : State := { s with host := { s.host with ide := l } }
    s.setFld .hstLink F.hstLink_IDE (if l.isEmpty then 0 else 1)
  else s

end Sys2Proof.Machine
end

