-- ==== Sys2Proof/Machine/Setup.lean ====
section
/-! DEFINITION. Writes and reads of the set-up registers (ch. 21, R725–R740, with the rules of each chapter that restrict a write). -/

namespace Sys2Proof.Machine

/-! ### Values (R11, R726, R727, R731) -/

/-- Whether a value lies within the range that an RW field's meaning gives (R731; log entry 53). -/
def fieldInRange (r : Reg) (f : Fld) (x : Nat) : Bool :=
  match r with
  | .memCtrl => f.lo != 8 || (decide (1 ≤ x) && decide (x ≤ 24))
  | .pwrBudget => if f.lo = 0 then decide (200 ≤ x) && decide (x ≤ 3000) else decide (x ≤ 1000)
  | .schPartCfg _ => f.lo != 16 || decide (1 ≤ x)
  | .schBarCfg _ _ => if f.lo = 1 then decide (x ≤ 4) else f.lo != 8 || (x % 4 == 0 && decide (x ≤ 0xBFFFC))
  | .rasTopo => decide (1 ≤ x) && decide (x ≤ 4096)
  | .hstMsixMod _ => f.lo != 16 || decide (1 ≤ x)
  | .vfMsixMod _ _ => f.lo != 16 || decide (1 ≤ x)
  | .fryCtrl _ => f.lo != 16 || (decide (10 ≤ x) && decide (x ≤ 10000))
  | .cswCtrl => f.lo != 8 || decide (1 ≤ x)
  | .irqSrc _ => f.lo != 12 || decide (x ≤ 4)
  | _ => true

/-- The stored value of an RW field: PMAX 3 reads as 2. -/
def fieldStored (r : Reg) (f : Fld) (x : Nat) : Nat :=
  match r with
  | .schPartCfg _ => if f.lo = 8 then min x 2 else x
  | _ => x

/-- The fields of a register take their written values by their access codes (R6, R11, R731). -/
def State.plainWrite (s : State) (r : Reg) (v : Word) : State :=
  s.each r.fields (fun s f =>
    let x := f.get v
    match f.acc with
    | .rw => if fieldInRange r f x then s.setFld r f (fieldStored r f x) else s
    | .w1c => s.setFld r f (bitsN (s.fld r f) 0 f.w - (s.fld r f &&& x))
    | _ => s)

/-- Whether an RW field of a register spans bits 31 and 32 (R727). -/
def Reg.spans (r : Reg) : Bool := r.fields.any (fun f => f.acc == .rw && decide (f.lo < 32) && decide (32 < f.lo + f.w))

/-- The value that a later half write leaves in RW fields: a staged FRM_PHASE counts as written (R726). -/
def State.held_ (s : State) (r : Reg) : Word :=
  match r with
  | .frmPhase => (s.frm.stPhase.map (BitVec.ofNat 64)).getD (s.reg .frmPhase)
  | r => s.reg r

/-- A 4-byte write as the write of the whole register that R726 makes of it. -/
def State.halfValue (s : State) (r : Reg) (hi : Bool) (x : Nat) : Word :=
  let base := BitVec.ofNat 64 (if hi then x % 2 ^ 32 * 2 ^ 32 else x % 2 ^ 32)
  let other := fun (f : Fld) => if hi then decide (f.lo < 32) else decide (32 ≤ f.lo)
  r.fields.foldl (fun v f => if other f && f.acc == .rw then f.put v (f.get (s.held_ r)) else v) base

/-! ### Registers with rules of their own -/

/-- CTX_CTRL: while ENABLE is 1 only RESET, SEG_RELOAD and a cleared ENABLE act; a write that sets ENABLE applies the other fields first (R568, R571, R576, R592). -/
def State.ctxCtrlWrite (s : State) (c : Nat) (v : Word) : State :=
  let r := Reg.ctxCtrl c
  let on := F.ctxCtrl_ENABLE.get v
  if s.bit r F.ctxCtrl_ENABLE then
    if F.ctxCtrl_RESET.get v = 1 ∨ on = 0 then s.contextReset c
    else if F.ctxCtrl_SEG_RELOAD.get v = 1 then s.segReload c
    else s
  else
    let s := s.plainWrite r (F.ctxCtrl_ENABLE.put v 0)
    if on = 1 then (s.setFld r F.ctxCtrl_ENABLE 1).enableCheck c else s

/-- FRY_CH_CFG: CONTEXT and CREDITS only while ENABLE is 0; ENABLE goes to 1 under the checks of R625 (R605, R625). -/
def State.chCfgWrite (s : State) (f c : Nat) (v : Word) : State :=
  let r := Reg.fryChCfg f c
  let on := F.fryChCfg_ENABLE.get v
  if s.bit r F.fryChCfg_ENABLE then (if on = 0 then s.setFld r F.fryChCfg_ENABLE 0 else s)
  else
    let s := s.plainWrite r (F.fryChCfg_ENABLE.put v 0)
    if on = 1 then s.channelEnable f c else s

/-- FRY_CTRL: RESET resets the ferry domain, a cleared ENABLE makes the port dark (R613, R616, R626). The write does not say how many entries the crossing held, as the FERRY_RESET command does (log entry 44). -/
def State.fryCtrlWrite (s : State) (f : Nat) (v : Word) : State :=
  let s := s.plainWrite (.fryCtrl f) v
  let s := if F.fryCtrl_RESET.get v = 1 then ferryReset f s.fifoHeld.1 s.frm.now s.fifoHeld.2 else s
  if F.fryCtrl_ENABLE.get v = 0 ∧ s.fryState f ≠ 0 then (s.setFld (.fryStatus f) F.fryStatus_LANES 0).setFryState f 0 else s

/-- STR_CTRL: a cleared ENABLE marks the strait down before its light goes out, RETRAIN retrains (R496, R523). -/
def State.strCtrlWrite (s : State) (n : Nat) (v : Word) : State :=
  let was := s.bit (.strCtrl n) F.strCtrl_ENABLE
  let s := s.plainWrite (.strCtrl n) v
  let s := if was ∧ F.strCtrl_ENABLE.get v = 0 then s.strDisable n else s
  if F.strCtrl_RETRAIN.get v = 1 then s.startRetrain n else s

/-- SCH_BAR_CFG: ignored while ARRIVED is non-zero; a bad RELEASE_OFFSET leaves ENABLE clear, and so does SCOPE 0 or 2 in a coarse-view partition (R470, R479). -/
def State.barCfgWrite (s : State) (p k : Nat) (v : Word) : State :=
  if s.fld (.schBarStatus p k) F.schBarStatus_ARRIVED ≠ 0 then s
  else
    let o := F.schBarCfg_RELEASE_OFFSET.get v
    let s := s.plainWrite (.schBarCfg p k) (if o % 4 = 0 ∧ o ≤ 0xBFFFC then v else F.schBarCfg_ENABLE.put v 0)
    if s.bit (.hstPartCtrl p) F.hstPartCtrl_VIEW ∧ (s.fld (.schBarCfg p k) F.schBarCfg_SCOPE = 0 ∨ s.fld (.schBarCfg p k) F.schBarCfg_SCOPE = 2)
    then s.setFld (.schBarCfg p k) F.schBarCfg_ENABLE 0 else s

/-- MEM_CTRL: setting RESERVE while a segment covers a reserve makes the write ignored (R407). -/
def State.memCtrlWrite (s : State) (v : Word) : State :=
  let w := s.setFld .memCtrl F.memCtrl_RESERVE 1
  let covered := s.ctxs.any (fun x => x.2.segs.any (fun g =>
    g.space == 0 && w.inReserve (offOf g.base) (g.limit + 1 - g.base)))
  if !s.bit .memCtrl F.memCtrl_RESERVE ∧ F.memCtrl_RESERVE.get v = 1 ∧ covered then s else s.plainWrite .memCtrl v

/-- RAS_TOPO: more than 256 packages are refused while a partition is in the fine view (R553). -/
def State.topoWrite (s : State) (v : Word) : State :=
  let fine := (List.range 64).any (fun p => s.bit (.hstPartCtrl p) F.hstPartCtrl_ACTIVE && !s.bit (.hstPartCtrl p) F.hstPartCtrl_VIEW)
  if 256 < F.rasTopo_PACKAGES.get v ∧ fine then s else s.plainWrite .rasTopo v

/-- RAS_SHOAL_CTRL: while ENABLE is 1 only INIT acts; ENABLE is checked with the fields written with it (R641, R649, R663). -/
def State.shoalCtrlWrite (s : State) (v : Word) : State :=
  let s := if s.bit .rasShoalCtrl F.rasShoalCtrl_ENABLE then s
    else
      let s := s.plainWrite .rasShoalCtrl (F.rasShoalCtrl_ENABLE.put v 0)
      if F.rasShoalCtrl_ENABLE.get v = 1 then s.shoalEnable else s
  if F.rasShoalCtrl_INIT.get v = 1 then shoalInit s else s

/-- EVT_RING_CTRL (R702, R704). -/
def State.evtRingCtrlWrite (s : State) (v : Word) : State :=
  evtCtrlWrite (F.evtRingCtrl_ENABLE.get v) (F.evtRingCtrl_MODE.get v) (F.evtRingCtrl_LOG2.get v) s

/-- EVT_TELEM_CTRL: SNAP asks for a snapshot at the next tick (R723). -/
def State.telemCtrlWrite (s : State) (v : Word) : State :=
  let s := s.plainWrite .evtTelemCtrl v
  if F.evtTelemCtrl_SNAP.get v = 1 then { s with evt := { s.evt with snap := true } } else s

/-- IRQ_SRC: PENDING clears with a 1, and the level condition is looked at again (R709). -/
def State.irqSrcWrite (s : State) (i : Nat) (v : Word) : State :=
  let s := s.plainWrite (.irqSrc i) (F.irqSrc_PENDING.put v 0)
  let s := if F.irqSrc_PENDING.get v = 1 then s.unpend i else s
  s.relevel i

/-- FRM_CTRL; a package without an address ignores ENABLE (R76, R77, R688). -/
def State.frmWrite (s : State) (v : Word) : State :=
  let en := if s.hard.cswValid then F.frmCtrl_ENABLE.get v == 1 else s.bit .frmCtrl F.frmCtrl_ENABLE
  s.frmCtrlWrite en (F.frmCtrl_MASTER.get v == 1)

/-- A write of a register's 64 bits, by the rules of R735 and of the chapter that defines the register. -/
def State.regSet (s : State) (r : Reg) (v : Word) : State :=
  match r with
  | .frmCtrl => s.frmWrite v
  | .frmPeriod => s.periodWrite (F.frmPeriod_PERIOD.get v)
  | .frmPhase => s.phaseWrite v
  | .frmApplyAt => s.applyAtWrite v
  | .frmEpoch => s.epochWrite v
  | .tblChartSpillBase p | .tblChartSpillSize p => if s.charts.any (fun c => c.part == p) then s else s.plainWrite r v
  | .tblSketchCtrl => let s := s.plainWrite r v; { s with tbl := { s.tbl with decayAt := 0 } }
  | .schUndoBase p | .schUndoSize p | .schStepCount p | .schCommitCtrl p =>
    if s.fld (.schUndoStatus p) F.schUndoStatus_RESERVED ≠ 0 then s else s.plainWrite r v
  | .schPoolBase p | .schPoolSize p => if (s.part p).pool.isEmpty then s.plainWrite r v else s
  | .memCtrl => s.memCtrlWrite v
  | .pwrCtrl => s.pwrCtrlWrite v
  | .pwrBudget =>
    let old := s.pwr.budget.getD (s.reg .pwrBudget)
    { s.plainWrite r v with pwr := { s.pwr with budget := some old } }
  | .schPartCfg p =>
    let old := s.partCfg p
    { s.plainWrite r v with pwr := { s.pwr with cfg := sput p old s.pwr.cfg } }
  | .schFill p =>
    let old := sgetD p (s.reg r) s.pwr.fill
    { s.plainWrite r v with pwr := { s.pwr with fill := sput p old s.pwr.fill } }
  | .schBarCfg p k => s.barCfgWrite p k v
  | .strCtrl n => s.strCtrlWrite n v
  | .rasRoute _ => (s.plainWrite r v).unstick
  | .rasTopo => s.topoWrite v
  | .ctxCtrl c => s.ctxCtrlWrite c v
  | .ctxRing c | .ctxSeg c | .ctxPasid c => if s.bit (.ctxCtrl c) F.ctxCtrl_ENABLE then s else s.plainWrite r v
  | .hstPartCtrl p => s.partCtrlWrite p v
  | .hstPartRegionsLo p | .hstPartRegionsHi p => if s.bit (.hstPartCtrl p) F.hstPartCtrl_ACTIVE then s else s.plainWrite r v
  | .fryCtrl f => s.fryCtrlWrite f v
  | .fryBufBase f => if (List.range 64).any (fun c => s.bit (.fryChCfg f c) F.fryChCfg_ENABLE) then s else s.plainWrite r v
  | .fryChCfg f c => s.chCfgWrite f c v
  | .fryChkPoly f c | .fryChkInit f c | .fryChkCtrl f c => if s.bit (.fryChCfg f c) F.fryChCfg_ENABLE then s else s.plainWrite r v
  | .rasShoalCtrl => s.shoalCtrlWrite v
  | .rasShoalLines | .rasShoalMember _ | .rasShoalStandby | .rasShoalRange _ | .rasShoalRangeLines _ | .rasShoalParityBase
  | .rasShoalJournalBase | .rasShoalJournalSize => if s.bit .rasShoalCtrl F.rasShoalCtrl_ENABLE then s else s.plainWrite r v
  | .rasAlias => s.aliasWrite v
  | .evtRingBase => if s.bit .evtRingCtrl F.evtRingCtrl_ENABLE then s else s.plainWrite r v
  | .evtRingCtrl => s.evtRingCtrlWrite v
  | .evtRingHead => evtHeadWrite (F.evtRingHead_HEAD.get v) s
  | .evtTelemCtrl => s.telemCtrlWrite v
  | .irqSrc i => s.irqSrcWrite i v
  | .irqCpEoi c => cpEoi c s
  | .irqHostAck => hostAck (F.irqHostAck_VECTOR.get v) s
  | r => s.plainWrite r v

/-! ### Locks (R737) -/

/-- The bit of DEV_LOCK that covers a register (R737). -/
def Reg.lockBit : Reg → Option Nat
  | .frmCtrl | .frmPeriod | .frmPhase | .frmApplyAt | .frmEpoch => some 0
  | .pwrBudget | .schPartCfg _ => some 1
  | .memCtrl | .hbmReg _ _ | .schUndoBase _ | .schUndoSize _ | .schPoolBase _ | .schPoolSize _ | .tblChartSpillBase _
  | .tblChartSpillSize _ | .fryBufBase _ => some 2
  | .rasCtrl | .rasTopo | .strCtrl _ => some 3
  | .rasShoalCtrl | .rasShoalLines | .rasShoalMember _ | .rasShoalStandby | .rasShoalRange _ | .rasShoalRangeLines _
  | .rasShoalParityBase | .rasShoalJournalBase | .rasShoalJournalSize | .rasShoalStatus | .rasShoalSeal | .rasShoalRepair => some 4
  | .devFwStage | .devFwCtrl => some 5
  | .hstCtrl | .hstPartCtrl _ | .hstPartRegionsLo _ | .hstPartRegionsHi _ => some 6
  | .cswCtrl | .clkCtrl => some 7
  | _ => none

/-- Whether a register is locked. -/
def State.locked (s : State) (r : Reg) : Bool := match r.lockBit with | some b => bitN s.hard.lock.toNat b | none => false

/-- A write that a lock keeps out is counted; INIT of RAS_SHOAL_CTRL is never locked (R737). -/
def State.lockedWrite (s : State) (r : Reg) (v : Word) : State :=
  let s := s.satFld .devAccess F.devAccess_LOCKED 1
  if r = .rasShoalCtrl ∧ F.rasShoalCtrl_INIT.get v = 1 then shoalInit s else s

/-! ### Stages (R667) -/

/-- Whether a register may be written before harbour mode: the DEV, CLK and CSW blocks (R667). -/
def Reg.early (r : Reg) : Bool := r.key / 0x10000 == 0 || r.key / 0x10000 == 1 || r.key / 0x10000 == 0xB

/-- Whether writes of a register are taken at this stage (R667). -/
def State.takes (s : State) (r : Reg) : Bool := s.open_ || r.early

/-! ### DEV_LOCK, DEV_RESET and DEV_FW_CTRL, which reach locks and fuses -/

/-- DEV_LOCK: bits are set and never cleared (R737, R738). -/
def State.lockWrite (s : State) (v : Word) : State :=
  { s with hard := { s.hard with lock := s.hard.lock ||| (v &&& 0xFF#64) } }

/-- A package reset with what it keeps: fuses, rails and the causeway address; the lock clears (R690, R738). -/
def State.restart (s : State) : State := { s.packageReset with hard := { s.hard with lock := 0 }, pending := s.pending }

/-- DEV_RESET: PACKAGE, else DIE with DIE_INDEX; the die passes its self-test unless a DIE_RESET command says otherwise (R690). -/
def State.devResetWrite (s : State) (v : Word) : State :=
  if F.devReset_PACKAGE.get v = 1 then s.restart
  else if F.devReset_DIE.get v = 1 then s.onDev (fun s => s.dieReset (F.devReset_DIE_INDEX.get v) 0 [])
  else s

/-- DEV_FW_CTRL: UPDATE, then COMMIT_SVN (R679, R680). -/
def State.fwCtrlWrite (s : State) (v : Word) : State :=
  let s := if F.devFwCtrl_UPDATE.get v = 1 then s.onDev State.fwUpdate else s
  if F.devFwCtrl_COMMIT_SVN.get v = 1 then commitSvn s else s

/-- A write of a whole register from software: stage, locks, then its effect (R667, R735, R737). -/
def State.regWrite (s : State) (r : Reg) (v : Word) : State :=
  if !s.hard.rails ∨ !s.takes r then s
  else if s.locked r then s.onDev (fun s => s.lockedWrite r v)
  else
    match r with
    | .devLock => s.lockWrite v
    | .devReset => s.devResetWrite v
    | .devFwCtrl => s.fwCtrlWrite v
    | r => s.onDev (fun s => s.regSet r v)

/-! ### Accesses of BAR0 (R725–R729) -/

/-- Whether an address lies in the reef map image or an identity memory image, which are read only. -/
def imageAddr (a : Nat) : Bool :=
  (decide (0x2000 ≤ a) && decide (a < 0x4000)) || (decide (0x4000 ≤ a) && decide (a < 0x4000 + 0x100 * 38))

/-- Whether an address lies in the MSI-X table or PBA of the physical function (R728). -/
def msixAddr (a : Nat) : Bool := (decide (0xC8000 ≤ a) && decide (a < 0xD0000)) || (decide (0xC6000 ≤ a) && decide (a < 0xC6100))

/-- A write into an MSI-X table entry of a function, `o` bytes into the table (R728). -/
def State.msixTableWrite (s : State) (fn o size x : Nat) : State :=
  let e := sgetD (vecKey fn (o / 16)) (BitVec.ofNat 128 (2 ^ 96)) s.evt.msix
  s.msixWrite fn (o / 16) (BitVec.ofNat 128 (putN e.toNat (8 * (o % 16)) (8 * size) x))

/-- One access of 4 or 8 bytes, aligned to its size (R725–R729). -/
def State.access (s : State) (a size x : Nat) : State :=
  if msixAddr a then s.onDev (fun s => if s.open_ ∧ 0xC8000 ≤ a then s.msixTableWrite 0 (a - 0xC8000) size x else s)
  else if imageAddr a then s
  else
    match Reg.ofAddr (a / 8 * 8) with
    | none => s.onDev (fun s => s.satFld .devAccess F.devAccess_UNMAPPED 1)
    | some r =>
      if size = 8 then s.regWrite r (BitVec.ofNat 64 x)
      else if r.spans then s.onDev (fun s => s.satFld .devAccess F.devAccess_SPLIT 1)
      else s.regWrite r (s.halfValue r (a % 8 == 4) x)

/-- The aligned 8-byte accesses of a long write, in ascending order (R728). -/
def State.accesses (s : State) (a : Nat) : Nat → Nat → State
  | 0, _ => s
  | n + 1, x => (s.access a 8 (x % 2 ^ 64)).accesses (a + 8) n (x / 2 ^ 64)

/-- REGISTER_WRITE: a write request to BAR0 of any size (R725, R728). -/
def State.barWrite (s : State) (a size x : Nat) : State :=
  if (size = 4 ∨ size = 8) ∧ a % size = 0 then s.access a size (x % 2 ^ (8 * size))
  else if 8 < size ∧ size % 8 = 0 ∧ a % 8 = 0 then s.accesses a (size / 8) x
  else s.onDev (fun s => s.satFld .devAccess F.devAccess_BAD_SIZE 1)

/-- The value that a read of a register returns: WO fields read zero (R11, R730). -/
def State.readReg (s : State) (r : Reg) : Word :=
  match r with
  | .frmTime => BitVec.ofNat 64 s.frm.now
  | r => s.reg r

/-- A read of BAR0 of 4 or 8 bytes (R725, R728–R730). -/
def State.barRead (s : State) (a size : Nat) : Nat :=
  let whole := fun (a : Nat) =>
    if 0x2000 ≤ a ∧ a < 0x4000 then leBytes ((s.reefImage.drop (a - 0x2000)).take 8)
    else if imageAddr a then leBytes (((s.shellImage ((a - 0x4000) / 0x100)).drop (a % 0x100)).take 8)
    else if 0xC8000 ≤ a ∧ a < 0xD0000 then
      bitsN (sgetD (vecKey 0 ((a - 0xC8000) / 16)) (BitVec.ofNat 128 (2 ^ 96)) s.evt.msix).toNat (a % 16 * 8) 64
    else if 0xC6000 ≤ a ∧ a < 0xC6100 then
      sumN ((List.range 64).map (fun i => if vecKey 0 ((a - 0xC6000) * 8 + i) ∈ s.evt.msixPend then 2 ^ i else 0))
    else ((Reg.ofAddr a).map (fun r => (s.readReg r).toNat)).getD 0
  let w := whole (a / 8 * 8)
  if size = 8 then w else bitsN w (a % 8 * 8) 32

/-! ### VF BAR0 (R590, R591) -/

/-- VF_BAR0_WRITE: moderation of a vector, or an MSI-X table entry, of a virtual function; everything else there is read only. -/
def vfBar0Write (fn off size x : Nat) (s : State) : State :=
  if fn = 0 ∨ 255 < fn ∨ !s.host.vfEnable ∨ s.host.numVfs < fn ∨ !s.open_ ∨ !((size == 4 || size == 8) && off % size == 0) then s
  else if 0x1000 ≤ off ∧ off < 0x1080 then s.msixTableWrite fn (off - 0x1000) size (x % 2 ^ (8 * size))
  else if 0x200 ≤ off ∧ off < 0x240 then
    let r := Reg.vfMsixMod fn ((off - 0x200) / 8)
    s.plainWrite r (if size = 8 then BitVec.ofNat 64 x else s.halfValue r (off % 8 == 4) x)
  else s

/-! ### The register rows of the command table -/

/-- FRAMES_ENABLE and FRAMES_DISABLE: ENABLE of FRM_CTRL is written, MASTER kept (R76, R77). -/
def framesWrite (on : Bool) (s : State) : State :=
  s.regWrite .frmCtrl (F.frmCtrl_ENABLE.put (s.reg .frmCtrl) (if on then 1 else 0))

/-- CONTEXT_RESET through CTX_CTRL.RESET (R592). -/
def contextResetWrite (c : Nat) (s : State) : State :=
  if c < 8192 then s.regWrite (.ctxCtrl c) (F.ctxCtrl_RESET.put (s.reg (.ctxCtrl c)) 1) else s

/-- SEG_RELOAD (R576). -/
def segReloadWrite (c : Nat) (s : State) : State :=
  if c < 8192 then s.regWrite (.ctxCtrl c) (F.ctxCtrl_SEG_RELOAD.put (s.reg (.ctxCtrl c)) 1) else s

end Sys2Proof.Machine
end

