-- ==== Sys2Proof/Machine/Causeway.lean ====
section
/-! DEFINITION. The management ring: cells, addresses, register access, resets, ring breaks (ch. 19, R684–R692; R745). -/

namespace Sys2Proof.Machine

/-! ### Cells (R685) -/

/-- Whether a position field names this package. -/
def State.cellMine (s : State) (x : Nat) : Bool := s.hard.cswValid && x == s.hard.cswPos % 64

/-- Forward a cell; HOPS never passes 64 (R685). -/
def State.forwardCell (s : State) (typ : Nat) (h : CellHdr) (payload : List Byte) : State :=
  if h.hops + 1 ≤ 64 then s.emit (.cell typ h.dst h.src (h.hops + 1) h.seq payload) else s

/-- A cell arrives: one with a bad CRC is dropped, one that this package originated is removed, one for its position is taken, a broadcast is taken and forwarded, any other is forwarded. Gives whether this package takes it (R685). -/
def State.cellIn (s : State) (typ : Nat) (h : CellHdr) (payload : List Byte) : Bool × State :=
  if !s.hard.vcsw then (false, s)
  else if !h.crcOk then (false, s.onCsw (fun s => s.satFld .cswCnt F.cswCnt_CRC_FAIL 1))
  else if s.cellMine h.src then (false, s)
  else if s.cellMine h.dst then (true, s.onCsw (fun s => s.wrapFld .cswCnt F.cswCnt_CELLS 1))
  else if h.dst = 0x7E then (true, s.onCsw (fun s => (s.wrapFld .cswCnt F.cswCnt_CELLS 1).forwardCell typ h payload))
  else (false, s.onCsw (fun s => s.forwardCell typ h payload))

/-- In STAGE 1 with no upstream light the transmitter stays dark (R686). -/
def State.cswDark (s : State) : Bool := s.stage == 1 && !s.bit .cswStatus F.cswStatus_LIGHT

/-- Originate a cell to the chassis controller; without an address, or with a dark transmitter, none is (R686, R688). -/
def State.sendCell (s : State) (typ : Nat) (payload : List Byte) : State :=
  s.onCsw (fun s =>
    if s.hard.cswValid ∧ s.cswDark = false then
      ({ s with boot := { s.boot with cells := (s.boot.cells + 1) % 2 ^ 32 } } : State).emit
        (.cell typ 0x7F (s.hard.cswPos % 64) 0 s.boot.cells payload)
    else s)

/-- REG_DATA (R686). -/
def State.regData (s : State) (off tag value status : Nat) : State :=
  s.sendCell 4 (toLe 4 off ++ toLe 4 tag ++ toLe 8 value ++ [BitVec.ofNat 8 status])

/-! ### Addresses (R687, R688) -/

/-- ADDR_TOKEN: a package without an address takes NEXT and CHASSIS; the token goes on (R687). -/
def addrToken (h : CellHdr) (chassis next : Nat) (conflict full : Bool) (s : State) : State :=
  if !s.hard.vcsw then s
  else if !h.crcOk then s.onCsw (fun s => s.satFld .cswCnt F.cswCnt_CRC_FAIL 1)
  else
    let bad := s.hard.cswValid && chassis % 64 != s.hard.cswChassis % 64
    let takes := !s.hard.cswValid && decide (next < 64)
    let isFull := !s.hard.cswValid && decide (64 ≤ next)
    let next' := if takes then next + 1 else if isFull then next else max next (s.hard.cswPos % 64 + 1)
    let out := [BitVec.ofNat 8 (chassis % 64), BitVec.ofNat 8 next',
      BitVec.ofNat 8 ((if conflict || bad then 1 else 0) + (if full || isFull then 2 else 0))]
    let s := s.onCsw (fun s =>
      let s := if bad then s.setFld .cswStatus F.cswStatus_CONFLICT 1 else s
      let s := if 64 ≤ next then s.setFld .cswStatus F.cswStatus_FULL 1 else s
      s.forwardCell 1 h out)
    if takes then { s with hard := { s.hard with cswValid := true, cswPos := next, cswChassis := chassis % 64 } } else s

/-! ### STATUS (R691) -/

/-- The payload of a STATUS cell (R686, R745). -/
def State.statusPayload (s : State) (power : Nat) : List Byte :=
  toLe 2 (s.ownId % 4096 + s.stage * 4096)
  ++ [BitVec.ofNat 8 (s.fld .pwrStatus F.pwrStatus_STATE + s.fld .cswStatus F.cswStatus_HEAD * 4), 0]
  ++ (List.range 8).flatMap (fun d => toLe 2 (s.fld (.pwrDie d) F.pwrDie_TEMP))
  ++ toLe 2 (if s.hard.rails then power else 0) ++ [BitVec.ofNat 8 (s.fld .devStatus F.devStatus_FAILED), 0]
  ++ toLe 8 s.frame ++ toLe 16 Config.serial.toNat

/-- STATUS_CELL: sent each STATUS_MS ms once VALID is set, and on a change of STAGE (R691). -/
def statusCell (power at_ : Nat) (s : State) : State :=
  let s := s.onDev (fun s => s.reach at_)
  let due := !s.hard.rails || s.boot.statusStage != some s.stage
    || decide (s.boot.statusAt + s.fld .cswCtrl F.cswCtrl_STATUS_MS * 1000000 ≤ s.frm.now)
  if s.hard.vcsw ∧ s.hard.cswValid ∧ s.cswDark = false ∧ due then
    (s.onCsw (fun s => { s with boot := { s.boot with statusAt := s.frm.now, statusStage := some s.stage } })).sendCell 2 (s.statusPayload power)
  else s

/-! ### Register access (R689) -/

/-- Whether the management ring serves an offset (R689). -/
def cellServes (off : Nat) : Bool := off % 8 == 0 && decide (off / 0x10000 ∈ [0, 1, 2, 0xB, 0xF, 0xD])

/-- REG_READ: the register's value, or STATUS 1 for an offset that is not served (R689, R745). -/
def regReadCell (h : CellHdr) (off tag : Nat) (s : State) : State :=
  let c := s.cellIn 3 h (toLe 4 off ++ toLe 4 tag)
  let s := c.2
  if !c.1 then s
  else if s.hard.rails ∧ cellServes off then
    let s := s.onDev (fun s => if (Reg.ofAddr off).isNone ∧ !imageAddr off then s.satFld .devAccess F.devAccess_UNMAPPED 1 else s)
    s.regData off tag (s.barRead off 8) 0
  else s.regData off tag 0 1

/-- REG_WRITE: the effect of a BAR0 write; STATUS 1 for an offset that is not served, 2 while MGMT_WRITE is 0 (R689, R745). -/
def regWriteCell (h : CellHdr) (off tag value : Nat) (s : State) : State :=
  let c := s.cellIn 5 h (toLe 4 off ++ toLe 4 tag ++ toLe 8 value)
  let s := c.2
  if !c.1 then s
  else if !s.hard.rails ∨ !cellServes off then s.regData off tag value 1
  else if !s.bit .cswCtrl F.cswCtrl_MGMT_WRITE then s.regData off tag value 2
  else (s.barWrite off 8 value).regData off tag value 0

/-- FLASH_WRITE: 32 bytes of the firmware flash, in STAGE 2 only (R689, R745). -/
def flashWriteCell (h : CellHdr) (off : Nat) (bs : List Byte) (s : State) : State :=
  let c := s.cellIn 9 h (toLe 4 off ++ bs)
  let s := c.2
  if !c.1 then s
  else if !s.hard.rails ∨ s.stage ≠ 2 ∨ off % 32 ≠ 0 then s.regData off 0 0 1
  else if !s.bit .cswCtrl F.cswCtrl_MGMT_WRITE then s.regData off 0 0 2
  else (s.onDev (fun s => s.norWr off (bs.take 32))).regData off 0 0 0

/-! ### Resets, wake, packages off (R690, R692, R454) -/

/-- RESET_CELL: domain 0 the package, 1 a die, 2 a strait, 3 a stream port (R690, R745). `inFifo` is how many entries a port's crossing held (R613), `stat` and `cores` how a die's self-test went. -/
def resetCell (h : CellHdr) (domain index inFifo stat : Nat) (cores : List Nat) (at_ : Nat) (s : State) : State :=
  let c := s.cellIn 6 h [BitVec.ofNat 8 domain, BitVec.ofNat 8 index]
  let s := c.2
  if !c.1 then s
  else if !s.hard.rails then s.regData 0 0 0 1
  else if domain = 0 then s.restart
  else
    s.onDev (fun s =>
      if domain = 1 then dieResetCmd index stat cores at_ s
      else if domain = 2 then straitRetrain index at_ s
      else if domain = 3 then ferryReset index inFifo at_ s
      else s)

/-- WAKE_CELL (R454). -/
def wakeCell (h : CellHdr) (at_ : Nat) (s : State) : State :=
  let c := s.cellIn 7 h []
  if c.1 then c.2.onDev (fun s => (s.reach at_).wake) else c.2

/-- PKG_OFF: another package is off, and so lost (R692, R639). -/
def pkgOff (h : CellHdr) (pkg at_ : Nat) (s : State) : State :=
  let c := s.cellIn 8 h (toLe 2 pkg)
  if c.1 then c.2.onDev (packageLost pkg true at_) else c.2

/-! ### Light (R686) -/

/-- RING_HEAD: no light from upstream for 10 µs; in STAGE 1 the package then stays dark (R686). -/
def ringHead (s : State) : State :=
  s.onCsw (fun s =>
    let s := s.setFld .cswStatus F.cswStatus_LIGHT 0
    let s := s.setFld .cswStatus F.cswStatus_LOCKED 0
    (s.setFld .cswStatus F.cswStatus_HEAD (if s.stage = 1 then 0 else 1)).relevel 685)

/-- CAUSEWAY_RECEIVER_LOCK: the receiver has lock, and the package transmits on the recovered clock (R686). -/
def receiverLock (s : State) : State :=
  s.onCsw (fun s =>
    let s := s.setFld .cswStatus F.cswStatus_LIGHT 1
    let s := s.setFld .cswStatus F.cswStatus_LOCKED 1
    (s.setFld .cswStatus F.cswStatus_HEAD 0).relevel 685)

end Sys2Proof.Machine
end

