-- ==== Sys2Proof/Machine/Receive.lean ====
section
/-! DEFINITION. Flits as a strait receives them: order, forwarding, the frame guard, and what each message does (ch. 2, R69–R75; ch. 5, R212–R218; ch. 14, R486–R508; R537). -/

namespace Sys2Proof.Machine

/-! ### Late errors and refusals -/

/-- A late-error message for traffic that names no operation: its TAG is a free value (R74, R75, R592; log entry 51). -/
def State.lateErrorBare (s : State) (src ctx reason frame addr : Nat) : State :=
  let t := s.free 64
  t.2.send src 3 0 (.lateError ctx reason frame t.1.toNat addr 0)

/-- Whether a context refuses arriving traffic for its reset (R592, step 4). -/
def State.refusing (s : State) (ctx : Nat) : Bool := decide ((s.ctx ctx).resetStep ≠ 0) || s.bit (.ctxStatus ctx) F.ctxStatus_RESET_BUSY

/-! ### Posted writes from end to end (R212–R216) -/

/-- Key of a sequence of posted writes: the source, 4,096 more for what came to the alias (R655). -/
def State.e2eKey (s : State) (src dst : Nat) : Nat := if dst = s.ownId then src else src + 4096

/-- Why a POSTED_WRITE fails here, if it does: a reset of its context, its segments, or a burst that cannot take the write: one of a fenced channel, or one that is uncorrectable and not written whole (R216, R399, R401, R408, R574, R592). -/
def State.postedFails (s : State) (ctx k : Nat) (add : Bool) (n : Nat) : Option Nat :=
  let a := mkAddr (k / 2 ^ 60) s.ownId (k % 2 ^ 60)
  let whole := if add then [] else wholeBursts k n
  if s.refusing ctx then some 3
  else if !s.remoteOk ctx a n true then some 1
  else if (burstsOf k n).any (fun b => s.fencedKey (64 * b) || (decide (b ∉ whole) && s.poisoned (64 * b) 64)) then some 2
  else none

/-- POSTED_WRITE at its destination: written whole, or not at all with a late error that names its target, and with marks on the table rows that it targets (R216, R218, R460). -/
def State.postedIn (s : State) (src ctx handle e2e addr : Nat) (add : Bool) (data : List Byte) : State :=
  let k := remoteKey addr
  match s.postedFails ctx k add data.length with
  | some reason => (s.poisonRowsAt k data.length).lateErrorOut src ctx handle reason addr e2e
  | none =>
    if add then s.store k (toLe data.length ((leBytes (s.kRd k data.length) + leBytes data) % 2 ^ (8 * data.length)))
    else s.store k data

/-- One message of the posted sequence takes effect (R213, R250, R645). -/
def State.applyPosted (s : State) (src e2e : Nat) (m : Msg) : State :=
  match m with
  | .postedWrite ctx _ handle _ addr add data => s.postedIn src ctx handle e2e addr add data
  | .rowWrite ctx handle _ requester tag key row undo data =>
    if s.refusing ctx ∧ !undo then s.rowWriteRefused src ctx handle e2e requester tag key row
    else s.rowWriteIn src ctx handle e2e requester tag key row undo data
  | .parity kind j part line no count _ data => s.parityMsg src kind j part line no count data
  | _ => s

/-- Apply the messages of a sequence that have come in order (R213, R215). -/
def State.applyRun (s : State) (key : Nat) : Nat → State
  | 0 => s
  | n + 1 =>
    let r := sgetD key {} s.net.rx
    match sget r.next r.held with
    | none => s
    | some m =>
      let r' : E2eRx := { r with next := (r.next + 1) % 2 ^ 32, held := sdel r.next r.held, since := r.since + 1 }
      let s : State := { s with net := { s.net with rx := sput key r' s.net.rx } }
      let s := s.applyPosted (key % 4096) r.next m
      let s := if 64 ≤ (sgetD key {} s.net.rx).since then s.e2eAckOut key else s
      s.applyRun key n

/-- A message of the posted sequence arrives: applied in order, held ahead of a gap, or discarded as a duplicate (R213, R214). -/
def State.e2eIn (s : State) (src dst e2e : Nat) (m : Msg) : State :=
  let key := s.e2eKey src dst
  let r := sgetD key {} s.net.rx
  let d := (e2e + 2 ^ 32 - r.next) % 2 ^ 32
  if 2 ^ 31 ≤ d then s.satFld .tblWriteDup F.tblWriteDup_COUNT 1
  else if d ≠ 0 ∧ (512 ≤ r.held.length ∨ 512 < d ∨ (sget e2e r.held).isSome) then s
  else
    let s : State := { s with net := { s.net with rx := sput key { r with held := sput e2e m r.held } s.net.rx } }
    s.applyRun key 513

/-! ### Answers to reads (R232, R389, R499) -/

/-- The bytes of an answer, its parts in order. -/
def Outst.bytes (r : Outst) : List Byte := r.got.flatMap (fun g => g.2)

/-- The answer with one more part, unless it is not the part expected next. -/
def Outst.add (r : Outst) (part : Nat) (data : List Byte) : Option Outst :=
  if part = r.got.length % 16 then some { r with got := r.got ++ [(256 * r.got.length, data)] } else none

/-- An answer to the read of a moving row is whole; a failed one ends the move (R258). -/
def State.moveAnswer (s : State) (m : Move) (r : Outst) (st : Nat) : State :=
  if st ≠ 0 then s.removeMoves (fun k => k == m)
  else s.setMove m { m with reads := m.reads.filter (fun x => x.tag ≠ r.tag), data := m.data ++ [(r.item, r.bytes)] }

/-- An answer to a read that a wait made is whole, or has failed. -/
def State.waitAnswer (s : State) (w : Wait) (r : Outst) (st : Nat) : State :=
  (if st = 0 then s.waitGot w.what (some r.tag) r.item r.bytes else s.waitBad w.what (some r.tag) st).waitDone w.what

/-- What reads under a tag. -/
inductive Reader where
  | op (o : Op)
  | move (m : Move)
  | wait (w : Wait)
  deriving DecidableEq, Repr

/-- Its reads. -/
def Reader.reads : Reader → List Outst
  | .op o => o.reads
  | .move m => m.reads
  | .wait w => w.reads

/-- What reads under a tag on this package. -/
def State.reader (s : State) (tag : Nat) : Option Reader :=
  let has := fun (l : List Outst) => l.any (fun r => r.tag == tag)
  match s.ops.find? (fun o => has o.reads), s.tbl.moves.find? (fun m => has m.reads), s.net.waits.find? (fun w => has w.reads) with
  | some o, _, _ => some (.op o)
  | none, some m, _ => some (.move m)
  | none, none, some w => some (.wait w)
  | none, none, none => none

/-- A reader keeps an answer of which more parts are to come. -/
def State.readPart (s : State) (x : Reader) (r : Outst) : State :=
  let put := fun (l : List Outst) => l.map (fun y => if y.tag = r.tag then r else y)
  match x with
  | .op o => s.modOp o.seq (fun o => { o with reads := put o.reads })
  | .move m => s.setMove m { m with reads := put m.reads }
  | .wait w => s.modWait w.what (fun y => { y with reads := put y.reads })

/-- A reader has a whole answer. -/
def State.readWhole (s : State) (x : Reader) (r : Outst) (st home : Nat) : State :=
  match x with
  | .op o => s.opAnswer o r st home r.bytes
  | .move m => s.moveAnswer m r st
  | .wait w => s.waitAnswer w r st

/-- The value of a remote LOAD returns to its core; an answer without data gives a free value (R457). -/
def State.loadAnswer (s : State) (tag core st : Nat) (data : List Byte) : State :=
  let s : State := { s with sync := { s.sync with loads := s.sync.loads.filter (fun x => x.1 ≠ tag) } }
  if st = 0 then s.emit (.coreValue core (leBytes data))
  else
    let v := s.free 32
    v.2.emit (.coreValue core v.1.toNat)

/-- READ_RESP: a part is placed by its TAG; a tag that nothing waits for is discarded (R232, R389). -/
def State.readRespIn (s : State) (st part tag home : Nat) (last : Bool) (data : List Byte) : State :=
  match s.reader tag, s.sync.loads.find? (fun l => l.1 == tag) with
  | some x, _ =>
    match (x.reads.find? (fun r => r.tag == tag)).bind (fun r => r.add part data) with
    | none => s
    | some r => if last then s.readWhole x r st home else s.readPart x r
  | none, some l => s.loadAnswer tag l.2 st data
  | none, none => s

/-! ### Frame-tagged traffic (R69, R72–R75) -/

/-- Whether a message's flits carry the frame tag (R499). -/
def Msg.tagged : Msg → Bool
  | .gradRecord .. => true
  | .closeNotice .. => true
  | .collective .. => true
  | .barrier .. => true
  | _ => false

/-- The staging area is full: a posted-channel buffer of the strait stays taken (R537). -/
def State.oweBuffer (s : State) (n : Nat) : State :=
  let x := s.strait n
  let r := x.rxv 0
  let s := s.setStrait n { x with rx := x.rx.set 0 { r with freed := r.freed + 65535 } }
  { s with coll := { s.coll with owed := smod n 0 (· + 1) s.coll.owed } }

/-- Buffers that the staging area kept are freed once it has room (R537). -/
def State.releaseOwed (s : State) : State :=
  if s.coll.owed.isEmpty || decide (32 * 2 ^ 20 < s.staged) then s
  else
    let l := s.coll.owed
    let s : State := { s with coll := { s.coll with owed := [] } }
    s.each l (fun s o =>
      let x := s.strait o.1
      let r := x.rxv 0
      s.setStrait o.1 { x with rx := x.rx.set 0 { r with freed := r.freed + o.2 } })

/-- A frame-tagged message acts for a frame; `straggler` where R69 or R74 makes its sender late, `band` where it came in the guard band (R72, R73). -/
def State.actTagged (s : State) (x : Rx) (frame : Nat) (straggler band : Bool) (m : Msg) : State :=
  match m with
  | .gradRecord _ segment first ctx count row key vals =>
    if s.refusing ctx then s.lateErrorBare x.src ctx 3 frame (row % 2 ^ 40)
    else s.gradIn x.src true straggler band ⟨ctx, key, row, segment, first, count, vals⟩ frame
  | .closeNotice ctx key count handle fr =>
    if s.refusing ctx then s.lateErrorOut x.src ctx handle 3 0 0 else s.closeIn x.src ctx key count handle fr band
  | .collective ctx gid chunk part last data =>
    if s.refusing ctx then s.lateErrorBare x.src ctx 3 frame 0
    else
      let known := s.coll.runs.any (fun r => r.group == gid && r.frame == frame && r.ordinal == chunk / 2 ^ 24)
      let s := s.collectiveIn x.src ctx gid chunk part last data frame straggler band
      if !known ∧ 32 * 2 ^ 20 < s.staged then s.oweBuffer x.strait else s
  | .barrier index release part_ gen group _ => s.barrierIn x.src index release part_ gen group straggler
  | _ => s

/-- Whether the run of a piece's collective is, or was, a REDUCE; a run that this package knows nothing of counts as one (log entry 51). -/
def State.reduceRunAt (s : State) (gid frame ordinal : Nat) : Bool :=
  match s.coll.runs.find? (fun r => r.group == gid && r.frame == frame && r.ordinal == ordinal),
      s.coll.past.find? (fun x => x.1 == gid && x.2.1 == frame && x.2.2.1 == ordinal) with
  | some r, _ => r.reduce
  | none, some x => x.2.2.2
  | none, none => true

/-- Whether a message is a REDUCE contribution or a barrier arrival, which R69, R74 and R75 make stragglers. A barrier's release is other traffic (log entry 51). -/
def State.contribution (s : State) (frame : Nat) : Msg → Bool
  | .collective _ gid chunk _ _ _ =>
    (sget gid s.groups).any (fun g => s.contributes g (bitN chunk 23) (chunk % 2 ^ 23)) && s.reduceRunAt gid frame (chunk / 2 ^ 24)
  | .barrier _ release .. => !release
  | _ => false

/-- The context that a frame-tagged message names. -/
def State.taggedCtx (s : State) : Msg → Nat
  | .gradRecord _ _ _ ctx .. => ctx
  | .closeNotice ctx .. => ctx
  | .collective ctx .. => ctx
  | .barrier _ _ _ _ group _ => ((sget group s.groups).map Group.ctx).getD 0
  | _ => 0

/-- Frame-tagged traffic that is discarded: its sender hears of it (R74, R75). -/
def State.refuseFrame (s : State) (x : Rx) (frame : Nat) (m : Msg) : State :=
  match m with
  | .closeNotice ctx _ _ handle _ => s.lateErrorOut x.src ctx handle 6 0 0
  | m => s.lateErrorBare x.src (s.taggedCtx m) 6 frame 0

/-- The frame in progress of a message's partition: an earlier one than FRM_NUMBER while it is stretched (R51, R54). -/
def State.stretchedFrame (s : State) (m : Msg) : Nat := s.frame - (s.part (s.partOf (s.taggedCtx m))).stretch

/-- Frame-tagged traffic against the frame in progress: in time, in the guard band, early, late, or a frame too far (R54, R72–R75); `band` where it was held from the guard band before the tick. -/
def State.guardFrame (s : State) (band : Bool) (x : Rx) (m : Msg) : State :=
  let f := tagFrame s.frame x.tag
  let n : Int := s.frame
  if f = n ∨ f = s.stretchedFrame m then s.actTagged x f.toNat x.out band m
  else if f = n + 1 then
    let b := decide (s.tickTime (s.frame + 1) ≤ x.at_ + 200)
    let s := if b then s.satFld .frmGuardCnt F.frmGuardCnt_COUNT 1 else s
    { s with net := { s.net with early := s.net.early ++ [(b, x, m)] } }
  else if n + 1 < f then
    if s.contribution f.toNat m then s else s.refuseFrame x f.toNat m
  else if f + 1 = n ∧ x.at_ ≤ s.frm.lastTick + 200 then
    (s.satFld .frmGuardCnt F.frmGuardCnt_COUNT 1).actTagged x (s.frame - 1) x.out true m
  else if s.contribution f.toNat m then s.actTagged x f.toNat true band m
  else s.refuseFrame x f.toNat m

/-- At a tick, what was held for its frame is accepted (R73). -/
def State.earlyTick (s : State) : State :=
  let l := s.net.early
  let s : State := { s with net := { s.net with early := [] } }
  s.each l (fun s e => s.guardFrame e.1 e.2.1 e.2.2)

/-! ### Every message (R499) -/

/-- A message for this package acts. -/
def State.act (s : State) (x : Rx) (m : Msg) : State :=
  match m with
  | .postedWrite _ _ _ e2e _ _ _ => s.e2eIn x.src x.dst e2e m
  | .rowWrite _ _ e2e _ _ _ _ _ _ => s.e2eIn x.src x.dst e2e m
  | .parity _ _ _ _ _ _ e2e _ => s.e2eIn x.src x.dst e2e m
  | .gradRecord .. => s.guardFrame false x m
  | .closeNotice .. => s.guardFrame false x m
  | .collective .. => s.guardFrame false x m
  | .barrier .. => s.guardFrame false x m
  | .opBind ctx handle tag frame => s.bindIn x.src ctx handle tag frame
  | .e2eAck vc next => if vc = 0 then (s.e2eAckIn x.src next).retryArrivals else s
  | .readReq ctx tag len addr =>
    if s.refusing ctx then s.respond x.src tag 3 addr [] else s.readReqIn x.src ctx tag len addr
  | .rowReq ctx tiers requester tag first count row key version =>
    if s.refusing ctx then s.respond requester tag 3 0 [] else s.rowReqIn x.src ctx tiers requester tag first count row key version
  | .readResp st part tag home last data => s.readRespIn st part tag home last data
  | .tick depth master staged frame time corr period stPeriod phase stPhase applyAt =>
    s.tickIn x.strait x.at_ x.residence depth master staged frame time corr period stPeriod phase stPhase applyAt
  | .stretch group frame => s.stretchIn group frame x.at_
  | .verdict group verdict frame => s.verdictIn x.src group verdict frame
  | .lateError ctx reason _ tag addr e2e => s.lateErrorFrom x.src ctx reason tag addr e2e
  | .watch ctx submit _ => s.watchIn ctx submit
  | .wake => s.linkWake
  | .reserved => s.satFld (.strErr x.strait) F.strErr_UNKNOWN 1

/-! ### The strait's receiving side (R492, R494, R506) -/

/-- Change the receiving side of a virtual channel. -/
def State.modRx (s : State) (n v : Nat) (f : RxVc → RxVc) : State :=
  let x := s.strait n
  s.setStrait n { x with rx := x.rx.set v (f (x.rxv v)) }

/-- A message of a flit that is delivered acts here, or goes on toward its destination (R494, R500, R506). -/
def State.pass (s : State) (x : Rx) (vc : Nat) (m : Msg) : State :=
  if neighbourOnly ⟨vc, x.dst, x.src, x.ttl, x.seq, x.tag, m⟩ ∨ s.isOwn x.dst then s.act x m
  else if x.ttl = 0 then s.satFld (.strErr x.strait) F.strErr_TTL_DROP 1
  else s.route ⟨vc, x.dst, x.src, x.ttl - 1, 0, x.tag, m⟩

/-- A flit is delivered: its buffer is free, and its first message acts or goes on (R492, R494). -/
def State.deliver (s : State) (x : Rx) (vc : Nat) (m : Msg) : State :=
  (s.modRx x.strait vc (fun r => { r with next := (r.next + 1) % 2 ^ 32, freed := r.freed + 1, unit := 0 })).pass x vc m

/-- A later message of the PACKED flit that was delivered last acts or goes on; a flit that is discarded counts once (R498, R506). -/
def State.deliverUnit (s : State) (x : Rx) (vc : Nat) (m : Msg) : State :=
  let s := s.modRx x.strait vc (fun r => { r with unit := x.unit })
  if x.ttl = 0 ∧ !s.isOwn x.dst ∧ !neighbourOnly ⟨vc, x.dst, x.src, x.ttl, x.seq, x.tag, m⟩ then s else s.pass x vc m

/-- Deliver the held flits whose turn has come, each with its later messages. -/
def State.deliverHeld (s : State) (n v : Nat) : Nat → State
  | 0 => s
  | k + 1 =>
    let r := (s.strait n).rxv v
    match r.held.find? (fun h => h.1.seq == r.next) with
    | none => s
    | some h =>
      let s := s.modRx n v (fun r => { r with held := r.held.filter (fun g => g.1.seq ≠ h.1.seq) })
      ((s.deliver h.1 v h.2).each ((r.held.filter (fun g => g.1.seq == h.1.seq)).drop 1) (fun s g => s.deliverUnit g.1 v g.2)).deliverHeld n v k

/-- A later message of a PACKED flit: it follows the message before it, whether that has acted or is held, and what has already been delivered is discarded (R494, R498). -/
def State.sequenceUnit (s : State) (x : Rx) (vc : Nat) (m : Msg) : State :=
  let r := (s.strait x.strait).rxv vc
  if (x.seq + 1) % 2 ^ 32 = r.next ∧ r.unit < x.unit then s.deliverUnit x vc m
  else if r.held.any (fun h => h.1.seq == x.seq) ∧ !r.held.any (fun h => h.1.seq == x.seq && decide (x.unit ≤ h.1.unit)) then
    s.modRx x.strait vc (fun r => { r with held := r.held ++ [(x, m)] })
  else s

/-- A sequenced flit that has decoded: in order, ahead of a gap, or discarded (R494, R497). -/
def State.sequence (s : State) (x : Rx) (vc : Nat) (m : Msg) : State :=
  let n := x.strait
  let y := s.strait n
  let s := s.setStrait n { y with got := y.got + 1 }
  let r := y.rxv vc
  let d := (x.seq + 2 ^ 32 - r.next) % 2 ^ 32
  if d = 0 then (s.deliver x vc m).deliverHeld n vc 64
  else if d ≤ 64 then
    let s := s.modRx n vc (fun r => if r.held.any (fun h => h.1.seq == x.seq) then r else { r with held := r.held ++ [(x, m)] })
    s.setStrait n { (s.strait n) with gap := true }
  else s

/-- A message of a sequenced flit arrives on a strait; one with a reserved MSG code is discarded where it acts, and counted (R486, R494, R498, R500, R519, R520). -/
def State.recv (s : State) (x : Rx) (vc : Nat) (m : Msg) : State :=
  let s := s.reach x.at_
  if x.strait < 32 ∧ s.carries x.strait vc then
    let m := if x.code = 5 then .reserved else m
    if x.unit ≠ 0 then (if x.code = 0 ∨ x.code = 5 then (s.sequenceUnit x vc m).releaseOwed else s)
    else
      let c := s.rxCode x.strait x.code
      if c.1 then (c.2.sequence x vc m).releaseOwed else c.2
  else s

end Sys2Proof.Machine
end

