-- ==== Sys2Proof/Machine/Tick.lean ====
section
/-! DEFINITION. The tick that starts a frame, the set-up tick, the boundaries of the phases, the limits of stretched frames and steps, and the 1 µs scheduler tick (ch. 2, R30–R57; ch. 12; R736). -/

namespace Sys2Proof.Machine

/-! ### Boundaries (R30–R34) -/

/-- Enter a phase. -/
def State.setPhase (s : State) (ph : Phase) : State := { s with frm := { s.frm with phase := ph } }

/-- The intake boundary: admission closes, and the ring headers say how far each ring was fetched (R30, R31, R581). -/
def State.toWork (s : State) : State := if s.frm.phase = .intake then (s.setPhase .work).ringHeaders false else s

/-- The work boundary: misses of work-phase tasks are signalled, INGESTs stop, and an unfinished EXCHANGE fails (R33, R549, R618). -/
def State.toReduce (s : State) : State :=
  let s := s.toWork
  if s.frm.phase = .work then
    let s := s.phaseMiss 2
    let s := s.each s.activeParts State.ingestBoundary
    (s.collMissed .exchange).setPhase .reduce
  else s

/-- The reduce boundary: REDUCEs close, and cut-off barriers release (R34, R477). -/
def State.toCommit (s : State) : State :=
  let s := s.toReduce
  if s.frm.phase = .reduce then (s.reduceClose.each s.activeParts State.barCutoff).setPhase .commit else s

/-- FENCEs unfinished at the end of the commit phase complete with status 0x50; the next descriptor of their ring waits for the next frame (R106). -/
def State.fenceExpiry (s : State) : State :=
  let l := s.ops.filter (fun o => isOpc .fence o.desc && (o.stage == .admitted || o.stage == .started || o.stage == .ran))
  let gone := l.map Op.seq
  let s : State := { s with sync := { s.sync with
    watches := s.sync.watches.filter (fun w => w.op ∉ gone), polls := s.sync.polls.filter (fun w => w.op ∉ gone) } }
  s.each l (fun s o =>
    let s := s.modOp o.seq (fun o => { o with stage := .finished, status := 0x50, detail := 0, await := 0 })
    match s.ctx? o.ctx with
    | some x => s.setCtx { x with notBefore := s.frame + 1 }
    | none => s)

/-- The commit boundary: misses of commit-phase tasks are signalled, FENCEs expire, a REDUCE without its results fails, and ring headers say how far completions were written; the TELEMETRY record follows in slack (R33, R106, R543, R581, R723). -/
def State.toSlack (s : State) : State :=
  let s := s.toCommit
  if s.frm.phase = .commit then
    let s := (s.phaseMiss 4).fenceExpiry
    (((s.collMissed .reduce).setPhase .slack).ringHeaders true).telemRecord.sketchSnap
  else s

/-- Whether the boundary that ends phase `ph` of the frame in progress has come. -/
def State.boundaryDue (s : State) (ph : Nat) : Bool :=
  s.frm.phase != .idle && decide (s.frm.lastTick + s.boundary ph ≤ s.frm.now)

/-- INTAKE_BOUNDARY. -/
def intakeBoundary (at_ : Nat) (s : State) : State :=
  let s := s.reach at_
  if s.boundaryDue 1 then s.toWork else s

/-- WORK_BOUNDARY. -/
def workBoundary (at_ : Nat) (s : State) : State :=
  let s := s.reach at_
  if s.boundaryDue 2 then s.toReduce else s

/-- REDUCE_BOUNDARY. -/
def reduceBoundary (at_ : Nat) (s : State) : State :=
  let s := s.reach at_
  if s.boundaryDue 3 then s.toCommit else s

/-- COMMIT_BOUNDARY. -/
def commitBoundary (at_ : Nat) (s : State) : State :=
  let s := s.reach at_
  if s.boundaryDue 4 then s.toSlack else s

/-! ### The end of a frame (R41, R48–R54, R372) -/

/-- Whether an operation admitted to the frame of a partition is unfinished, or an output of it not yet durable (R41, R50). -/
def State.unfinished (s : State) (p : Nat) : Bool :=
  let x := s.part p
  !x.stopped && !x.recovering &&
    (s.ops.any (fun o => o.part == p && o.stage != .finished && o.stage != .refused)
      || (s.ops.any (fun o => o.part == p) && !(s.drained p && s.flashDurable p)))

/-- Whether an operation admitted to the ending frame of a partition is unfinished at its tick (R50). -/
def State.overran (s : State) (p : Nat) : Bool := s.unfinished p && s.ops.any (fun o => o.part == p && o.frame == s.frame)

/-- An overrun is counted and logged, under the number of the frame that the tick starts (R50; log entry 61). -/
def State.overrun (s : State) (p : Nat) : State :=
  (s.satFld .frmOverrunCnt F.frmOverrunCnt_COUNT 1).eventW 0x0101 686 none (some p) p 0

/-- An abandoned step at the 64-frame limit (R48). -/
def State.stepLimit (s : State) (p : Nat) : State :=
  if 64 ≤ (s.part p).stepFrames ∧ !(s.part p).restoring then s.abandon p else s

/-- A stretched frame, or an unfinished one under the policy shed, comes to its end (R51, R53). -/
def State.stretchOr (s : State) (p : Nat) : State :=
  let x := s.part p
  if F.schPartCfg_POLICY.get (s.partCfg p) = 1 ∨ 3 ≤ x.stretch then s.abandon p
  else
    (s.stretchTo p (x.stretch + 1)).sendStretch p s.frame

/-- A notice that came in time stretches the partition's frame as well (R54). -/
def State.stretchAlso (s : State) (p : Nat) : State := s.stretchTo p (min 3 ((s.part p).stretch + 1))

/-- A frame whose restore still runs at the tick goes on whatever the policy: its COMMIT counts the period as stretched (R52, R372; log entry 67). -/
def State.stretchRestore (s : State) (p : Nat) : State := s.stretchTo p ((s.part p).stretch + 1)

/-- A partition at the tick that ends a frame: overrun, stretch or abandonment, and the length of its step (R48, R50–R54, R372). -/
def State.partFrameEnd (s : State) (p : Nat) : State :=
  let x := s.part p
  let s := s.modPart p (fun x => { x with before := ⟨x.stretch, x.streams0, x.charts0, x.pred0, x.commit⟩ })
  let s := if x.stepFirst ≤ s.frame then s.modPart p (fun x => { x with stepFrames := x.stepFrames + 1 }) else s
  let s := if !s.unfinished p ∧ x.rerun.isEmpty ∧ !x.stopped then s.modPart p (fun x => { x with interrupts := 0 }) else s
  let s := if s.unfinished p then
      if x.restoring then s.stretchRestore p else s.stretchOr p
    else if p ∈ s.frm.notices then s.stretchAlso p
    else s.modPart p (fun x => { x with stretch := 0 })
  s.stepLimit p

/-- STRETCH_LIMIT: at the end of its third further period a stretched frame that is still unfinished is abandoned (R53). -/
def stretchLimit (p at_ : Nat) (s : State) : State :=
  let s := s.reach at_
  if s.tickTime (s.frame + 1) ≤ s.frm.now ∧ 3 ≤ (s.part p).stretch ∧ s.unfinished p ∧ !(s.part p).restoring then s.abandon p else s

/-- STEP_FRAME_LIMIT: the 64th frame of a step ends without a COMMIT (R48). -/
def stepFrameLimit (p at_ : Nat) (s : State) : State :=
  let s := s.reach at_
  if s.tickTime (s.frame + 1) ≤ s.frm.now ∧ 63 ≤ (s.part p).stepFrames ∧ (s.part p).stepFirst ≤ s.frame ∧ !(s.part p).restoring then s.abandon p else s

/-- The end of a frame: its last boundaries if they have not been marked, completions that are due, its partitions, its graphs and tables, and the energy that it spent (R48–R54, R117, R140, R246, R258, R268, R428, R438). -/
def State.frameEnd (s : State) (energies : List Nat) : State :=
  let s := s.toSlack
  let s := s.each s.activeParts (fun s p => completionWrite p s)
  let s := s.each s.activeParts State.partFrameEnd
  let s := s.each (List.range 128) State.regionFrameEnd
  let s := s.each (List.range 8) (fun s d => s.overspend d (nthD energies d 0))
  let s := ((s.publishTick s.frame).tableTick (some s.frame)).sealTick
  let s := s.slotEvents
  { s with frm := { s.frm with notices := [] } }

/-! ### What every tick applies (R16, R409, R419, R455, R554, R566, R569, R576, R736) -/

/-- A context at a tick: quotas and staged segments take effect (R569, R576). -/
def State.ctxTick (s : State) (c : Nat) : State :=
  match s.ctx? c with
  | none => s
  | some x => s.setCtx { x with quota := s.reg (.ctxQuota c), segs := x.staged.getD x.segs, staged := none, ops := 0, charge := 0 }

/-- The writes and checks that wait for a tick, with or without a frame (R736). -/
def State.applyWaiting (s : State) (temps : List Nat) : State :=
  let s : State := { s with pwr := { s.pwr with budget := none, cfg := [], fill := [] } }
  let s := s.each (List.range 64) State.partTick
  let s := s.each (List.range 8) (fun s d => s.thermal d (nthD temps d 0))
  let s := s.each (List.range 128) State.pstateTick
  let s : State := { s with pwr := { s.pwr with change := [], waited := [] } }
  let s := s.each (List.range 128) State.refillRegion
  let s : State := { s with charged := [], pwr := { s.pwr with excess := [] } }
  let s := (s.mapoutTick.iff s.hbm.ready.isSome State.reefStore).coresTick.joinTick.crystalTick
  let s := if s.boot.fullDue then s.openFull else s
  let s := s.each (s.ctxs.map Prod.fst) State.ctxTick
  let s := s.each (s.parts.map Prod.fst) (fun s p => s.modPart p (fun x => { x with seed := s.reg (.schRngSeed p) }))
  s.resetTick

/-! ### The tick that starts a frame (R56) -/

/-- The context at which a partition's intake starts: the one after that of the frame before, cyclically (R432). -/
def State.nextRotor (s : State) (p : Nat) : Nat :=
  let l := s.ctxsOf p
  let r := (s.part p).rotor
  match l.find? (fun c => decide (r < c)) with
  | some c => c
  | none => l.headD 0

/-- A partition at the tick that starts frame `n`: what an interruption will return to, and the records of the new frame (R44, R45, R107, R377, R432). -/
def State.partFrameStart (s : State) (n p : Nat) : State :=
  let r := s.nextRotor p
  let mine := s.charts.filter (fun c => c.part == p)
  let now := s.preds p
  let s := s.modPart p (fun x => { x with
    streams0 := if x.stretch = 0 then x.streams else x.streams0, charts0 := if x.stretch = 0 then mine else x.charts0,
    pred0 := if x.stretch = 0 then now else x.pred0,
    inputs := [], admT := [], missed := x.missed.filter (fun q => s.ops.any (fun o => o.seq == q)),
    commit := if x.stretch = 0 then none else x.commit, rotor := r, turn := r,
    stopped := x.stopped && x.recovering,
    stepFirst := if x.stepFrames = 0 ∧ x.stepFirst < n then n else x.stepFirst })
  if (s.part p).stepFirst = n then s.carryTick p else s

/-- The frame whose tick comes next: the first on the grid that no tick has been marked for, later than the frame in progress (R56, R76, R736). -/
def State.nextFrame (s : State) : Nat :=
  if s.frm.phase = .idle then s.gridFrame (max s.frm.now s.frm.tickFrom) else max (s.frame + 1) (s.gridFrame s.frm.tickFrom)

/-- The frame that a counter just set belongs to: the nearest on the grid (R68; log entry 54). -/
def State.nearFrame (s : State) (t : Nat) : Nat :=
  if t ≤ s.frm.ta then s.frm.na else s.frm.na + (t - s.frm.ta + s.period * 5) / (s.period * 10)

/-- The counter reaches the start of the next frame: the ending frame is judged, waiting writes apply, and the next frame starts with its intake (R30, R38, R44–R57, R68, R76). -/
def State.tickNow (s : State) (temps energies : List Nat) : State :=
  let n := s.nextFrame
  let t := s.tickTime n
  let s := s.reach t
  let s := if s.frm.phase = .idle then s else s.toSlack
  let ran := if s.frm.phase = .idle then [] else s.activeParts.filter s.overran
  let s := if s.frm.phase = .idle then s else s.frameEnd energies
  let moved := s.frm.stepBy.isSome
  let s := s.stepTime
  let t := if moved then s.frm.now else t
  let n := if moved then s.nearFrame t else n
  let s := s.setFld .frmNumber F.frmNumber_FRAME n
  let s : State := { s with frm := { s.frm with started := true, lastTick := t, tickFrom := t + 1, phase := .intake } }
  let s := (s.each ran State.overrun).applyStaged n t
  let s := (s.applyWaiting temps).collTick.bindTick
  let s : State := { s with pwr := { s.pwr with noAdmit := s.sPending } }
  let s := s.each s.activeParts (fun s p => s.partFrameStart n p)
  ((s.sendTicks t).earlyTick).l0Drop (fun _ => true)

/-- TICK: while frames are enabled, the counter reaches the start of the next frame, the ending frame is judged, and frame `n` starts with its intake (R30, R38, R44–R57, R68, R76). `temps` are the dies' highest junction temperatures in 0.125 °C and `energies` their rail energies in nJ over the frame (R427, R428). -/
def tick (temps energies : List Nat) (s : State) : State :=
  if !s.open_ ∨ !s.bit .frmCtrl F.frmCtrl_ENABLE then s else s.tickNow temps energies

/-- A tick without a frame: a frame in progress ends once its operations have finished, what waits for a commit phase completes, waiting writes apply, and a master sends its tick message (R57, R59, R77, R736). -/
def State.setUpNow (s : State) (temps energies : List Nat) : State :=
  let t := s.tickTime s.nextFrame
  let s := s.reach t
  let s := if s.frm.phase = .idle then s
    else if s.activeParts.any s.unfinished then s.toSlack
    else (s.frameEnd energies).setPhase .idle
  let moved := s.frm.stepBy.isSome
  let s := s.stepTime
  let t := if moved then s.frm.now else t
  let s : State := { s with frm := { s.frm with tickFrom := t + 1 } }
  let s := if s.frm.phase = .idle then
      ((s.publishTick s.frame).tableTick none).sealTick.writeCompletions (fun o => s.resetReady o || o.status == 0x31)
    else s
  ((s.applyWaiting temps).sendTicks t).l0Drop (fun _ => true)

/-- SET_UP_TICK: while frames are disabled, a tick on the grid applies waiting writes and checks; no frame number advances, and what waits for a commit phase completes. A frame in progress ends here once its operations have finished (R57, R77, R736). -/
def setUpTick (temps energies : List Nat) (s : State) : State :=
  if !s.open_ ∨ s.bit .frmCtrl F.frmCtrl_ENABLE then s else s.setUpNow temps energies

/-! ### The 1 µs scheduler tick (R414, R437, R438, R443, R468) -/

/-- Tasks whose wait for credit ends are ready again, and each region where one waited counts the tick (R437, R438). -/
def State.wakeDelayed (s : State) : State :=
  let due := s.tasks.filter (fun t => match t.at_ with | .delayed w => decide (w ≤ s.frm.now) | _ => false)
  let s : State := { s with tasks := s.tasks.map (fun t => match t.at_ with
    | .delayed w => if w ≤ s.frm.now then { t with at_ := .ready } else t
    | _ => t) }
  s.each ((due.map Task.region).eraseDups) (fun s r =>
    s.setFld (.schRegState r) F.schRegState_WAIT_TICKS (satAdd 16 (s.fld (.schRegState r) F.schRegState_WAIT_TICKS) 1))

/-- Deadline misses that the regions foresee (R443). -/
def State.riskTick (s : State) : State :=
  s.each (((s.tasks.map Task.region).eraseDups).flatMap s.atRisk) State.missSignal

/-- Posted writes applied since the last acknowledgement are acknowledged (R215). -/
def State.ackTick (s : State) : State :=
  s.each (s.net.rx.filter (fun r => decide (r.2.since ≠ 0))) (fun s r => s.e2eAckOut r.1)

/-- Stream ports acknowledge what they accepted and report what they freed (R607, R610). -/
def State.ferryMicro (s : State) : State :=
  s.each s.ferries (fun s f =>
    s.each f.2.chs (fun s c =>
      let s := if (s.fch f.1 c.1).ackSince ≠ 0 then s.fryAck f.1 c.1 false else s
      if (s.fch f.1 c.1).freedSince ≠ 0 then s.fryCredit f.1 c.1 else s))

/-- SCHEDULER_TICK: the 1 µs scheduler tick. -/
def schedulerTick (at_ : Nat) (s : State) : State :=
  let s := s.reach at_
  if !s.open_ then s
  else
    let s := s.refillTokens.wakeDelayed.riskTick
    let s := s.pollTick.helloTick.fryHelloTick.ackTick
    s.ferryMicro.initPass.releaseOwed

end Sys2Proof.Machine
end

