-- ==== Sys2Proof/Machine/Cmd.lean ====
section
/-! DEFINITION. How a command's effect becomes its outcome: the shapes that the meanings share. -/

namespace Sys2Proof.Machine

/-- A command of the powered package. -/
def State.does (s : State) (f : State → State) : Host.Outcome State Fault Refusal := .next (s.onDev f)

/-- A command of the powered package on a unit that exists; on any other it has no effect (log entry 7). -/
def State.doesIf (s : State) (ok : Bool) (f : State → State) : Host.Outcome State Fault Refusal :=
  .next (if ok then s.onDev f else s)

/-- An 8-byte write of a register by software (R725, R735). -/
def State.writes (s : State) (ok : Bool) (r : Reg) (v : Word) : Host.Outcome State Fault Refusal :=
  .next (if ok then s.regWrite r v else s)

/-- An operation command: the fetch and admission of a context's next descriptor, or the data effect of its oldest started operation of the kind (log entry 11). -/
def State.operates (s : State) (step : OpStep) (k : OpCmd) (ctx : Nat) (run : Nat → State → State) : Host.Outcome State Fault Refusal :=
  .next (s.onDev (fun s => match step with | .fetch => s.admitCmd k ctx | .run => run ctx s))

/-- A micro-op on the lanes of a core's vector unit (R317). -/
def State.lanesDo (s : State) (core : Nat) (f : State → Vu → Vu) : Host.Outcome State Fault Refusal :=
  s.doesIf (decide (core < 16384)) (fun s => s.vuDo core (f s))

/-- A message arrives on a virtual channel of a strait (R494). -/
def State.receives (s : State) (rx : Rx) (vc : Nat) (m : Msg) : Host.Outcome State Fault Refusal :=
  .next (s.onDev (fun s => s.recv rx vc m))

end Sys2Proof.Machine
end

