-- ==== Sys2Proof/Machine/CmdBoot.lean ====
section
/-! DEFINITION. Commands of bring-up, clocks, firmware, resets, shells and the causeway (ch. 19, ch. 22). -/

namespace Sys2Proof.Machine

/-- POWER_GOOD (R665). Every rail has held its power-good window for 2 ms, and bring-up starts at time 0. -/
def execPowerGood (s : State) : Host.Outcome State Fault Refusal :=
  .next (powerGood s)

/-- RAIL_FAULT (R743). Five consecutive monitor samples of a rail lie outside its window, and all logic except the causeway stops within 1 µs. -/
def execRailFault (vcsw : Bool) (s : State) : Host.Outcome State Fault Refusal :=
  .next (railFault vcsw s)

/-- CRYSTAL_WINDOW (R671). A crystal monitor window of 65,536 oscillator cycles ends and is judged pass or fail. -/
def execCrystalWindow (count : Nat) (gap : Bool) (at_ : Nat) (s : State) : Host.Outcome State Fault Refusal :=
  s.does (crystalWindow count gap at_)

/-- CLOCK_HOLDOVER_LIMIT (R674). After 10 ms of reference holdover, the package interrupts every frame, enters STAGE 1 and turns off every light except the causeway's. -/
def execClockHoldoverLimit (at_ : Nat) (s : State) : Host.Outcome State Fault Refusal :=
  s.does (clockHoldoverLimit at_)

/-- XTAL_RETURN (R675). After 16 passing windows with XTAL_RETURN set, every reference returns to the crystal at the next tick. -/
def execXtalReturn (s : State) : Host.Outcome State Fault Refusal :=
  s.does xtalReturn

/-- PLL_RETUNE (R677). A PLL is moved to the safe clock, retuned, held in lock for 2 µs and switched back. -/
def execPllRetune (kind unit : Nat) (s : State) : Host.Outcome State Fault Refusal :=
  s.does (pllRetune kind unit)

/-- PLL_FAIL (R677). A retune not complete within 50 µs leaves the output on the safe clock, which is handled as a region or die fault. -/
def execPllFail (kind unit at_ : Nat) (s : State) : Host.Outcome State Fault Refusal :=
  s.does (pllFail kind unit at_)

/-- HARBOUR_MODE_OPEN (R667). Once every die has passed or failed HBM training, harbour mode opens with reduced service. -/
def execHarbourModeOpen (dies cores regions : List Nat) (at_ : Nat) (s : State) : Host.Outcome State Fault Refusal :=
  s.does (harbourModeOpen dies cores regions at_)

/-- FULL_SERVICE_OPEN (R670). At the first tick after background self-tests end and every enabled link and port is settled, full service opens. -/
def execFullServiceOpen (dark : List Nat) (at_ : Nat) (s : State) : Host.Outcome State Fault Refusal :=
  s.does (fullServiceOpen dark at_)

/-- FIRMWARE_UPDATE (R679). A write of DEV_FW_CTRL.UPDATE verifies the staged image and writes it to the inactive slot. -/
def execFirmwareUpdate (s : State) : Host.Outcome State Fault Refusal :=
  s.writes true .devFwCtrl (F.devFwCtrl_UPDATE.put 0 1)

/-- COMMIT_SVN (R680). A write of DEV_FW_CTRL.COMMIT_SVN raises the fuse counter FW_SVN to the SVN of the running image. -/
def execCommitSvn (s : State) : Host.Outcome State Fault Refusal :=
  s.writes true .devFwCtrl (F.devFwCtrl_COMMIT_SVN.put 0 1)

/-- PACKAGE_RESET (R690). A package reset runs bring-up again from step 2 and keeps the causeway address. -/
def execPackageReset (s : State) : Host.Outcome State Fault Refusal :=
  .next (if s.hard.rails then s.restart else s)

/-- DIE_RESET (R690). A die reset reruns self-test and HBM training for one die within 2 s and applies pending map-outs. -/
def execDieReset (die stat : Nat) (cores : List Nat) (at_ : Nat) (s : State) : Host.Outcome State Fault Refusal :=
  s.doesIf (decide (die < 8)) (dieResetCmd die stat cores at_)

/-- SHELL_INSERTED (R695). A shell's pads make contact, and its identity memory is read and acted on. -/
def execShellInserted (shell : Nat) (image : List Byte) (at_ : Nat) (s : State) : Host.Outcome State Fault Refusal :=
  s.doesIf (decide (shell < 38)) (shellInserted shell image at_)

/-- SHELL_REMOVED (R753). A shell loses contact, and its transmitters turn off within 10 µs while its port goes down. -/
def execShellRemoved (shell at_ : Nat) (s : State) : Host.Outcome State Fault Refusal :=
  s.doesIf (decide (shell < 38)) (shellRemoved shell at_)

/-- ADDR_TOKEN (R687). A package receives the addressing token, takes its position if it has none, and forwards the token. -/
def execAddrToken (cell : CellHdr) (chassis nextPos : Nat) (conflict full : Bool) (s : State) : Host.Outcome State Fault Refusal :=
  .next (addrToken cell chassis nextPos conflict full s)

/-- STATUS_CELL (R691). A package sends its STATUS cell each STATUS_MS period and within 100 µs of a change of STAGE. -/
def execStatusCell (power at_ : Nat) (s : State) : Host.Outcome State Fault Refusal :=
  .next (statusCell power at_ s)

/-- REG_READ (R689). A management-ring register read is served for the permitted blocks and answered with REG_DATA. -/
def execRegReadCell (cell : CellHdr) (off tag : Nat) (s : State) : Host.Outcome State Fault Refusal :=
  .next (regReadCell cell off tag s)

/-- REG_WRITE (R689). A management-ring register write has the effect of a BAR0 write, unless MGMT_WRITE is 0. -/
def execRegWriteCell (cell : CellHdr) (off tag value : Nat) (s : State) : Host.Outcome State Fault Refusal :=
  .next (regWriteCell cell off tag value s)

/-- RESET_CELL (R690). A RESET cell resets the package, a die, a strait or a stream port. -/
def execResetCell (cell : CellHdr) (domain index inFifo stat : Nat) (cores : List Nat) (at_ : Nat) (s : State) : Host.Outcome State Fault Refusal :=
  .next (resetCell cell domain index inFifo stat cores at_ s)

/-- WAKE_CELL (R454). A management-ring wake message brings the package out of S1 or S2. -/
def execWakeCell (cell : CellHdr) (at_ : Nat) (s : State) : Host.Outcome State Fault Refusal :=
  .next (wakeCell cell at_ s)

/-- PKG_OFF (R692). A PKG_OFF cell naming another package declares that package lost. -/
def execPkgOff (cell : CellHdr) (pkg at_ : Nat) (s : State) : Host.Outcome State Fault Refusal :=
  .next (pkgOff cell pkg at_ s)

/-- FLASH_WRITE (R689). In STAGE 2, a management-ring cell writes 32 bytes into the firmware flash. -/
def execFlashWriteCell (cell : CellHdr) (off : Nat) (data : List Byte) (s : State) : Host.Outcome State Fault Refusal :=
  .next (flashWriteCell cell off data s)

/-- RING_HEAD (R686). After 10 µs without upstream light, the package becomes ring head and transmits on its own reference. -/
def execRingHead (s : State) : Host.Outcome State Fault Refusal :=
  .next (ringHead s)

/-- CAUSEWAY_RECEIVER_LOCK (R686). The causeway receiver gains lock on upstream light, and the package transmits again on the recovered clock instead of as ring head. -/
def execReceiverLock (s : State) : Host.Outcome State Fault Refusal :=
  .next (receiverLock s)

end Sys2Proof.Machine
end

