-- ==== Sys2Proof/Machine/CmdEvents.lean ====
section
/-! DEFINITION. Commands of events, interrupts, counters, power states and HBM upkeep (ch. 11, ch. 12, ch. 20, ch. 22). -/

namespace Sys2Proof.Machine

/-- IRQ_CP_EOI (R711). An end-of-handler write pops the control processor's priority stack and re-samples level sources. -/
def execIrqCpEoi (cp : Nat) (s : State) : Host.Outcome State Fault Refusal :=
  s.writes (decide (cp < 4)) (.irqCpEoi cp) 0

/-- IRQ_HOST_ACK (R712). A host acknowledgement ends vector service and re-samples level sources. -/
def execIrqHostAck (v : Word) (s : State) : Host.Outcome State Fault Refusal :=
  s.writes true .irqHostAck v

/-- IRQ_DELIVERY (R710). A pending enabled source above threshold and running priority is delivered to its target. -/
def execIrqDelivery (target at_ : Nat) (s : State) : Host.Outcome State Fault Refusal :=
  s.doesIf (decide (target < 5)) (irqDelivery target at_)

/-- CP_HOLD_TIMER (R714). A control processor's hold timer expires, and held deliveries are made. -/
def execCpHoldTimer (cp at_ : Nat) (s : State) : Host.Outcome State Fault Refusal :=
  s.doesIf (decide (cp < 4)) (cpHoldTimer cp at_)

/-- EVENT_RECORD_WRITE (R705). The writer takes the oldest pending event and writes it to the ring, or retries a failed write. -/
def execEventRecordWrite (ok : Bool) (at_ : Nat) (s : State) : Host.Outcome State Fault Refusal :=
  s.does (eventRecordWrite ok at_)

/-- EVENT_COALESCING (R706). An event that finds the pending buffer full is coalesced and counted as lost. -/
def execEventCoalescing (typ src detail : Nat) (s : State) : Host.Outcome State Fault Refusal :=
  s.doesIf (decide (src < 768)) (eventCoalescing typ src detail)

/-- EVENTS_LOST (R707). When coalescing ends, one EVENTS_LOST entry with the lost count is queued. -/
def execEventsLost (s : State) : Host.Outcome State Fault Refusal :=
  s.does eventsLost

/-- EVT_RING_HEAD (R704). A write of the event ring head frees entries, and a stopped ring resumes writing. -/
def execEvtRingHead (v : Word) (s : State) : Host.Outcome State Fault Refusal :=
  s.writes true .evtRingHead v

/-- EVENT_RING_ENABLE (R702). Enabling the event ring checks its base and resets TAIL and HEAD. -/
def execEventRingEnable (v : Word) (s : State) : Host.Outcome State Fault Refusal :=
  s.writes true .evtRingCtrl v

/-- TELEMETRY_SNAPSHOT (R723). At a tick on a FRAMES multiple or after SNAP, all performance counters are copied and a record follows. -/
def execTelemetrySnapshot (s : State) : Host.Outcome State Fault Refusal :=
  s.does telemetrySnapshot

/-- S_STATE_REQUEST (R453). A write of PWR_CTRL.REQ 1 or 2 stops admission from the next tick. -/
def execSStateRequest (v : Word) (s : State) : Host.Outcome State Fault Refusal :=
  s.writes true .pwrCtrl v

/-- S_STATE_ENTRY (R453). At the first idle tick, the package enters S1 or S2. -/
def execSStateEntry (at_ : Nat) (s : State) : Host.Outcome State Fault Refusal :=
  s.does (sStateEntry at_)

/-- S_STATE_WAKE (R454). REQ 0 or a wake source brings the package back to P2 with regions stepping up. -/
def execSStateWake (s : State) : Host.Outcome State Fault Refusal :=
  s.writes true .pwrCtrl (F.pwrCtrl_REQ.put (s.reg .pwrCtrl) 0)

/-- DIE_OVERTEMP (R427). A die reaches 105 °C, so its core clocks stop and a die fault is reported. -/
def execDieOvertemp (die temp at_ : Nat) (s : State) : Host.Outcome State Fault Refusal :=
  s.doesIf (decide (die < 8)) (dieOvertemp die temp at_)

/-- SCRUB (R402). A controller reads and corrects every written line of its stack in background. -/
def execScrub (stack : Nat) (errs : List BurstErr) (at_ : Nat) (s : State) : Host.Outcome State Fault Refusal :=
  s.doesIf (decide (stack < 16)) (scrub stack errs at_)

/-- BOUNDED_SLOT (R449). A background activity at risk of its floor takes a bounded slot of at most 2 µs. -/
def execBoundedSlot (activity src at_ : Nat) (s : State) : Host.Outcome State Fault Refusal :=
  s.does (boundedSlot activity src at_)

/-- UNCORRECTABLE_BURST (R401). A burst read uncorrectable is counted, poisoned and logged, and the row or frame is affected. -/
def execUncorrectableBurst (err : BurstErr) (reader : Option Nat) (at_ : Nat) (s : State) : Host.Outcome State Fault Refusal :=
  s.does (uncorrectableBurst err reader at_)

/-- CE_WINDOW_END (R405). A 3,600 s window ends with corrected bursts above threshold, and the channel becomes a planned map-out candidate. -/
def execCeWindowEnd (channel : Nat) (s : State) : Host.Outcome State Fault Refusal :=
  s.doesIf (decide (channel < 512)) (ceWindowEnd channel)

/-- PLANNED_MAPOUT (R409). A channel's lines are copied in background, and the new layout applies at the tick after the copy ends. -/
def execPlannedMapout (channel lines at_ : Nat) (s : State) : Host.Outcome State Fault Refusal :=
  s.doesIf (decide (channel < 512)) (plannedMapoutCmd channel lines at_)

/-- IMMEDIATE_MAPOUT (R410). A channel is mapped out at once, frames are interrupted and uncopied lines are poisoned. -/
def execImmediateMapout (channel at_ : Nat) (s : State) : Host.Outcome State Fault Refusal :=
  s.doesIf (decide (channel < 512)) (immediateMapout channel at_)

end Sys2Proof.Machine
end

