-- ==== Sys2Proof/Machine/CmdFaults.lean ====
section
/-! DEFINITION. Commands of faults, recovery and the parity shoals (ch. 18). -/

namespace Sys2Proof.Machine

/-- CORE_FAULT (R628). A core fault interrupts the owning and filler partitions, and the core is spared or marked absent. -/
def execCoreFault (core : Nat) (bad : List Nat) (at_ : Nat) (s : State) : Host.Outcome State Fault Refusal :=
  s.doesIf (decide (core < 32768)) (coreFault core bad at_)

/-- REGION_FAULT (R636). A region fault removes the region from its partition and interrupts its frames. -/
def execRegionFault (region at_ : Nat) (s : State) : Host.Outcome State Fault Refusal :=
  s.doesIf (decide (region < 128)) (regionFaultCmd region at_)

/-- DIE_FAULT (R627). A bridge check or die self-check fails in service, and partitions with a region on the die abandon their step pending a die reset. -/
def execDieFault (die at_ : Nat) (s : State) : Host.Outcome State Fault Refusal :=
  s.doesIf (decide (die < 8)) (dieFaultCmd die at_)

/-- RECOVERY_END (R631). Recovery from an interrupting fault ends within 300 µs, and the re-run waits for the next tick. -/
def execRecoveryEnd (part took at_ : Nat) (s : State) : Host.Outcome State Fault Refusal :=
  s.doesIf (decide (part < 64)) (recoveryEnd part took at_)

/-- CP_WATCHDOG (R627). A control processor's 50 µs watchdog expires, and the next processor takes over its sources. -/
def execCpWatchdog (cp at_ : Nat) (s : State) : Host.Outcome State Fault Refusal :=
  s.doesIf (decide (cp < 4)) (cpWatchdog cp at_)

/-- PACKAGE_LOST (R639). A package is declared lost, and its unacknowledged writes fail. -/
def execPackageLost (pkg : Nat) (off : Bool) (at_ : Nat) (s : State) : Host.Outcome State Fault Refusal :=
  s.does (packageLost pkg off at_)

/-- SHOAL_ENABLE (R641). Enabling a shoal checks members, ranges and areas, or refuses with ERR. -/
def execShoalEnable (v : Word) (s : State) : Host.Outcome State Fault Refusal :=
  s.writes true .rasShoalCtrl v

/-- SHOAL_INIT (R649). INIT makes each holder compute its parity afresh from READs of the stripes. -/
def execShoalInit (s : State) : Host.Outcome State Fault Refusal :=
  s.writes true .rasShoalCtrl (F.rasShoalCtrl_INIT.put (s.reg .rasShoalCtrl) 1)

/-- DELTA (R645). A parity delta is staged until its seal arrives. -/
def execDelta (rx : Rx) (part slot sealNo e2e : Nat) (data : List Byte) (s : State) : Host.Outcome State Fault Refusal :=
  s.receives rx 0 (.parity 0 0 part slot sealNo 0 e2e data)

/-- SEAL (R645). A SEAL with a matching count applies the staged deltas and is acknowledged. -/
def execSealNotice (rx : Rx) (sealNo count e2e : Nat) (s : State) : Host.Outcome State Fault Refusal :=
  s.receives rx 0 (.parity 1 0 0 0 sealNo count e2e [])

/-- PARITY_ACK (R645). A holder's acknowledgement of a seal arrives at the source. -/
def execParityAck (rx : Rx) (sealNo e2e : Nat) (s : State) : Host.Outcome State Fault Refusal :=
  s.receives rx 0 (.parity 2 0 0 0 sealNo 0 e2e [])

/-- PARITY_READ (R650). A READ of a protected line as of a seal is answered from memory or the undo log. -/
def execParityRead (rx : Rx) (j part line sealNo tag e2e : Nat) (s : State) : Host.Outcome State Fault Refusal :=
  s.receives rx 0 (.parity 3 j part line sealNo tag e2e [])

/-- PARITY_READ_DATA (R651). Line data for a rebuild or recompute arrives. -/
def execParityReadData (rx : Rx) (part line tag e2e : Nat) (data : List Byte) (s : State) : Host.Outcome State Fault Refusal :=
  s.receives rx 0 (.parity 4 0 part line 0 tag e2e data)

/-- REVERT (R654). A member reverts the lost member's latest seal from its journal. -/
def execRevert (rx : Rx) (lost sealNo e2e : Nat) (s : State) : Host.Outcome State Fault Refusal :=
  s.receives rx 0 (.parity 5 0 0 0 sealNo lost e2e [])

/-- SEAL_QUERY (R654). The coordinator asks each survivor which seal of the lost member it has applied. -/
def execSealQuery (rx : Rx) (lost e2e : Nat) (s : State) : Host.Outcome State Fault Refusal :=
  s.receives rx 0 (.parity 6 0 0 0 0 lost e2e [])

/-- SEAL_REPORT (R654). A survivor reports its applied seal, and the least becomes the rebuild seal. -/
def execSealReport (rx : Rx) (j lost sealNo e2e : Nat) (s : State) : Host.Outcome State Fault Refusal :=
  s.receives rx 0 (.parity 7 j 0 0 sealNo lost e2e [])

/-- PROTECTED_WRITE_STALE (R648). An unlogged write into a protected range marks the shoal stale. -/
def execProtectedWriteStale (key len : Nat) (s : State) : Host.Outcome State Fault Refusal :=
  s.does (fun s => s.staleIf key len)

/-- RAS_ALIAS (R656). A valid alias write makes the standby adopt the lost ID and starts its rebuild. -/
def execRasAlias (v : Word) (s : State) : Host.Outcome State Fault Refusal :=
  s.writes true .rasAlias v

/-- STANDBY_REBUILD (R656). The standby's protected lines, then its parity slots, are rebuilt. -/
def execStandbyRebuild (first lines : Nat) (s : State) : Host.Outcome State Fault Refusal :=
  s.does (standbyRebuild first lines)

/-- SPREAD_REBUILD (R657). Without a standby, the lost member's lines are written to the survivors' spread areas. -/
def execSpreadRebuild (first lines : Nat) (s : State) : Host.Outcome State Fault Refusal :=
  s.does (spreadRebuild first lines)

end Sys2Proof.Machine
end

