-- ==== Sys2Proof/Machine/CmdFerries.lean ====
section
/-! DEFINITION. Commands of the stream ports (ch. 17). -/

namespace Sys2Proof.Machine

/-- DATA_FRAME (R606). A sequenced stream frame is accepted, or discarded as a repeat, gap or check failure. -/
def execDataFrame (rx : FRx) (payload : List Byte) (s : State) : Host.Outcome State Fault Refusal :=
  s.doesIf (decide (rx.ferry < 4)) (dataFrame rx payload)

/-- CREDIT (R610). A CREDIT frame reports blocks freed on a channel and restores sending credit. -/
def execCredit (rx : FRx) (s : State) : Host.Outcome State Fault Refusal :=
  s.doesIf (decide (rx.ferry < 4)) (fryCreditIn rx)

/-- ACK (R608). An ACK frame releases frames below NEXT. -/
def execAck (rx : FRx) (s : State) : Host.Outcome State Fault Refusal :=
  s.doesIf (decide (rx.ferry < 4)) (fryAckIn rx false)

/-- NAK (R608). An ACK frame with NAK set causes every frame from NEXT to be resent. -/
def execNak (rx : FRx) (s : State) : Host.Outcome State Fault Refusal :=
  s.doesIf (decide (rx.ferry < 4)) (fryAckIn rx true)

/-- HELLO_FRAME (R616). A stream-port HELLO releases acknowledged frames, resets credits and may signal a restart. -/
def execHelloFrame (rx : FRx) (version : Nat) (nexts allots : List Nat) (s : State) : Host.Outcome State Fault Refusal :=
  s.doesIf (decide (rx.ferry < 4)) (helloFrame rx version nexts allots)

/-- READ_DATA (R622). Flash read data arrives, or a media error poisons the row. -/
def execReadData (rx : FRx) (payload : List Byte) (s : State) : Host.Outcome State Fault Refusal :=
  s.doesIf (decide (rx.ferry < 4)) (readData rx payload)

/-- WRITE_ACK (R623). A flash write is confirmed durable, or fails with a late error. -/
def execWriteAck (rx : FRx) (s : State) : Host.Outcome State Fault Refusal :=
  s.doesIf (decide (rx.ferry < 4)) (writeAck rx)

/-- FRAME_RESEND_TIMEOUT (R608). A sequenced stream frame unacknowledged for 10 µs is resent. -/
def execFrameResendTimeout (ferry channel at_ : Nat) (s : State) : Host.Outcome State Fault Refusal :=
  s.doesIf (decide (ferry < 4 ∧ channel < 64)) (frameResendTimeout ferry channel at_)

/-- FLASH_TIMEOUT (R622). A flash request unanswered within FLASH_TIMEOUT serves a default row or fails the write. -/
def execFlashTimeout (ferry tag at_ : Nat) (s : State) : Host.Outcome State Fault Refusal :=
  s.doesIf (decide (ferry < 4)) (flashTimeout ferry tag at_)

/-- FERRY_RESET (R613). A ferry domain reset advances the epoch, discards old FIFO entries and retrains. -/
def execFerryReset (ferry inFifo at_ : Nat) (s : State) : Host.Outcome State Fault Refusal :=
  s.doesIf (decide (ferry < 4)) (ferryReset ferry inFifo at_)

/-- FERRY_LANE_LOSS (R599). A ferry fiber loses a wavelength, and the port retrains at half rate or goes down. -/
def execFerryLaneLoss (ferry at_ : Nat) (s : State) : Host.Outcome State Fault Refusal :=
  s.doesIf (decide (ferry < 4)) (ferryLaneLoss ferry at_)

/-- FERRY_TRAINING (R616). An enabled stream port that receives light recovers its lanes, deskews, exchanges HELLO and comes up. -/
def execFerryTraining (ferry lanes at_ : Nat) (s : State) : Host.Outcome State Fault Refusal :=
  s.doesIf (decide (ferry < 4)) (ferryTraining ferry lanes at_)

/-- CHANNEL_ENABLE (R625). Enabling a stream channel checks allotments, buffer, context and width, or refuses. -/
def execChannelEnable (ferry channel : Nat) (v : Word) (s : State) : Host.Outcome State Fault Refusal :=
  s.writes (decide (ferry < 4 ∧ channel < 64)) (.fryChCfg ferry channel) v

end Sys2Proof.Machine
end

