-- ==== Sys2Proof/Machine/CmdFrames.lean ====
section
/-! DEFINITION. Commands of frames and system time (ch. 2). -/

namespace Sys2Proof.Machine

/-- TICK (R56). The system-time counter reaches the start of the next frame, and the frame number advances. -/
def execTick (temps energies : List Nat) (s : State) : Host.Outcome State Fault Refusal :=
  s.does (tick temps energies)

/-- SET_UP_TICK (R736). While frames are disabled, a tick applies waiting set-up writes and checks without advancing the frame number. -/
def execSetUpTick (temps energies : List Nat) (s : State) : Host.Outcome State Fault Refusal :=
  s.does (setUpTick temps energies)

/-- STRETCH_LIMIT (R53). A stretched frame unfinished after its third further period is abandoned and undone. -/
def execStretchLimit (part at_ : Nat) (s : State) : Host.Outcome State Fault Refusal :=
  s.doesIf (decide (part < 64)) (stretchLimit part at_)

/-- STEP_FRAME_LIMIT (R48). The 64th frame of a step ends without a COMMIT, so the step is undone and its operations complete with status 0x31. -/
def execStepFrameLimit (part at_ : Nat) (s : State) : Host.Outcome State Fault Refusal :=
  s.doesIf (decide (part < 64)) (stepFrameLimit part at_)

/-- INTAKE_BOUNDARY (R30). Admission closes, and unadmitted descriptors wait for the next frame. -/
def execIntakeBoundary (at_ : Nat) (s : State) : Host.Outcome State Fault Refusal :=
  s.does (intakeBoundary at_)

/-- WORK_BOUNDARY (R30). The deadline of work-phase tasks passes, and missing close notices, EXCHANGEs and INGESTs are resolved. -/
def execWorkBoundary (at_ : Nat) (s : State) : Host.Outcome State Fault Refusal :=
  s.does (workBoundary at_)

/-- REDUCE_BOUNDARY (R34). Every REDUCE of the frame is closed to further contributions, and cut-off barriers release partially. -/
def execReduceBoundary (at_ : Nat) (s : State) : Host.Outcome State Fault Refusal :=
  s.does (reduceBoundary at_)

/-- COMMIT_BOUNDARY (R30). The deadline of COMMIT passes, with FENCE expiry and missing verdicts or results resolved. -/
def execCommitBoundary (at_ : Nat) (s : State) : Host.Outcome State Fault Refusal :=
  s.does (commitBoundary at_)

/-- SCHEDULER_TICK (R414). At the 1 µs scheduler tick, regulators refill, delayed tasks wake, deadlines are checked and FENCE words are polled. -/
def execSchedulerTick (at_ : Nat) (s : State) : Host.Outcome State Fault Refusal :=
  s.does (schedulerTick at_)

/-- TICK_MESSAGE (R67). A follower receives a tick message, computes its offset, slews or steps its counter, and forwards the message. -/
def execTickMessage (rx : Rx) (depth master : Nat) (staged : Bool) (frame time : Nat) (correction : Int) (period stPeriod phase stPhase applyAt : Nat) (s : State) : Host.Outcome State Fault Refusal :=
  s.receives rx 3 (.tick depth master staged frame time correction period stPeriod phase stPhase applyAt)

/-- TICK_HOLDOVER (R71). No valid tick message arrives for a period, so the follower holds its rate and sets HOLDOVER. -/
def execTickHoldover (at_ : Nat) (s : State) : Host.Outcome State Fault Refusal :=
  s.does (tickHoldover at_)

/-- HOLDOVER_LIMIT (R71). After 100 ms without a tick message, the follower becomes out of step. -/
def execHoldoverLimit (at_ : Nat) (s : State) : Host.Outcome State Fault Refusal :=
  s.does (holdoverLimit at_)

/-- BACKUP_MASTER (R638). A backup follower that has held HOLDOVER for 10 ms becomes time master. -/
def execBackupMaster (at_ : Nat) (s : State) : Host.Outcome State Fault Refusal :=
  s.does (backupMaster at_)

/-- STRETCH (R54). A stretch notice from a package of the same job stretches the local frame, or its contributions become stragglers. -/
def execStretch (rx : Rx) (group frame : Nat) (s : State) : Host.Outcome State Fault Refusal :=
  s.receives rx 3 (.stretch group frame)

/-- FRM_PERIOD (R38). A write of FRM_PERIOD stages a new period for a later frame. -/
def execFrmPeriod (v : Word) (s : State) : Host.Outcome State Fault Refusal :=
  s.writes true .frmPeriod v

/-- FRM_PHASE (R38). A write of FRM_PHASE stages new phase boundaries for a later frame. -/
def execFrmPhase (v : Word) (s : State) : Host.Outcome State Fault Refusal :=
  s.writes true .frmPhase v

/-- FRM_EPOCH (R56). A write of the tick origin moves coming ticks until the first frame starts. -/
def execFrmEpoch (v : Word) (s : State) : Host.Outcome State Fault Refusal :=
  s.writes true .frmEpoch v

/-- FRAMES_ENABLE (R76). Setting FRM_CTRL.ENABLE starts frames at the next tick under R56. -/
def execFramesEnable (s : State) : Host.Outcome State Fault Refusal :=
  .next (framesWrite true s)

/-- FRAMES_DISABLE (R77). Clearing FRM_CTRL.ENABLE completes the frame in progress and admits nothing further. -/
def execFramesDisable (s : State) : Host.Outcome State Fault Refusal :=
  .next (framesWrite false s)

end Sys2Proof.Machine
end

