-- ==== Sys2Proof/Machine/CmdHost.lean ====
section
/-! DEFINITION. Commands of the host port, contexts, partitions, BAR4, SPDM and set-up registers (ch. 16, ch. 21). -/

namespace Sys2Proof.Machine

/-- SQ_TAIL (R587). A doorbell write records the ring's new tail for the next intake turn, or may wake the package. -/
def execSqTail (fn page value at_ : Nat) (s : State) : Host.Outcome State Fault Refusal :=
  s.does (sqTail fn page value at_)

/-- CQ_HEAD (R584). A doorbell write reports the completions the host has read and frees completion slots. -/
def execCqHead (fn page value at_ : Nat) (s : State) : Host.Outcome State Fault Refusal :=
  s.does (cqHead fn page value at_)

/-- DOORBELL_RESET (R586). Writing 1 to the RESET register of a doorbell page starts a context reset. -/
def execDoorbellReset (fn page value at_ : Nat) (s : State) : Host.Outcome State Fault Refusal :=
  s.does (doorbellReset fn page value at_)

/-- MODERATION_TIMER (R590). A vector's moderation timer expires, and one message covers its pending interrupts. -/
def execModerationTimer (fn vec at_ : Nat) (s : State) : Host.Outcome State Fault Refusal :=
  s.does (moderationTimer fn vec at_)

/-- CONTEXT_ENABLE (R571). Setting CTX_CTRL.ENABLE checks function, vector, ring, segments and partition. -/
def execContextEnable (ctx : Nat) (v : Word) (s : State) : Host.Outcome State Fault Refusal :=
  s.writes (decide (ctx < 8192)) (.ctxCtrl ctx) v

/-- CONTEXT_RESET (R592). A context reset stops fetching, removes its tasks, drains, restores and releases its resources. -/
def execContextReset (ctx : Nat) (s : State) : Host.Outcome State Fault Refusal :=
  .next (contextResetWrite ctx s)

/-- CONTEXT_RESET_DONE (R592). At the tick after the reset completions, ENABLE, ACTIVE and RESET_BUSY are cleared. -/
def execContextResetDone (ctx : Nat) (s : State) : Host.Outcome State Fault Refusal :=
  s.doesIf (decide (ctx < 8192)) (contextResetDone ctx)

/-- SEG_RELOAD (R576). A write of SEG_RELOAD rereads and checks the segment table for later descriptors. -/
def execSegReload (ctx : Nat) (s : State) : Host.Outcome State Fault Refusal :=
  .next (segReloadWrite ctx s)

/-- PARTITION_SET_UP (R566). HST_PART_CTRL with ENABLE 1 is checked at the next tick and becomes active or is refused. -/
def execPartitionSetUp (part : Nat) (v : Word) (s : State) : Host.Outcome State Fault Refusal :=
  s.writes (decide (part < 64)) (.hstPartCtrl part) v

/-- PARTITION_TEAR_DOWN (R567). Clearing a partition's ENABLE tears it down at the next tick when no context is enabled. -/
def execPartitionTearDown (part : Nat) (s : State) : Host.Outcome State Fault Refusal :=
  s.writes (decide (part < 64)) (.hstPartCtrl part) (F.hstPartCtrl_ENABLE.put (s.reg (.hstPartCtrl part)) 0)

/-- FLR_VF (R594). An FLR of a virtual function resets every context of that function within 10 ms. -/
def execFlrVf (fn at_ : Nat) (s : State) : Host.Outcome State Fault Refusal :=
  s.does (flrVf fn at_)

/-- FLR_PF (R594). An FLR of the physical function resets every context and partition, and SR-IOV state, within 100 ms. -/
def execFlrPf (at_ : Nat) (s : State) : Host.Outcome State Fault Refusal :=
  s.does (flrPf at_)

/-- ATS_INVALIDATION (R580). A host ATS invalidation stops the named translations and completes within 50 µs. -/
def execAtsInvalidation (fn pasid page pages : Nat) (s : State) : Host.Outcome State Fault Refusal :=
  s.does (atsInvalidation fn pasid page pages)

/-- HOST_LINK_DOWN (R561). While the host link is down, space 2 rings are not fetched, and undeliverable completions are lost. -/
def execHostLinkDown (at_ : Nat) (s : State) : Host.Outcome State Fault Refusal :=
  s.does (hostLinkDown at_)

/-- HOST_LINK_UP (R561). The host link completes PCIe training as a retimer, and the front-end resumes fetching from rings in space 2. -/
def execHostLinkUp (rate width : Nat) (flit rev vfEnable : Bool) (numVfs at_ : Nat) (s : State) : Host.Outcome State Fault Refusal :=
  s.does (hostLinkUp rate width flit rev vfEnable numVfs at_)

/-- HOST_ACCESS_FAILURE (R562). A run-time host access fails, so the operation completes with status 0x21 and the frame is tainted. -/
def execHostAccessFailure (ctx slot : Nat) (s : State) : Host.Outcome State Fault Refusal :=
  s.does (hostAccessFailure ctx slot)

/-- BAR4_READ (R564). A BAR4 read reaches device HBM or SRAM, or reads zero for an unusable offset. -/
def execBar4Read (off len : Nat) (s : State) : Host.Outcome State Fault Refusal :=
  s.does (bar4Read off len)

/-- BAR4_WRITE (R564). A BAR4 write reaches device HBM or SRAM, or is discarded for an unusable offset. -/
def execBar4Write (off : Nat) (data : List Byte) (s : State) : Host.Outcome State Fault Refusal :=
  s.does (bar4Write off data)

/-- GET_VERSION (R595). The SPDM GET_VERSION request is answered through the DOE mailbox. -/
def execSpdmVersion (req : List Byte) (s : State) : Host.Outcome State Fault Refusal :=
  s.does (spdmVersion req)

/-- GET_CAPABILITIES (R595). The SPDM GET_CAPABILITIES request is answered. -/
def execSpdmCapabilities (req : List Byte) (s : State) : Host.Outcome State Fault Refusal :=
  s.does (spdmCapabilities req)

/-- NEGOTIATE_ALGORITHMS (R595). The SPDM NEGOTIATE_ALGORITHMS request is answered. -/
def execSpdmAlgorithms (req : List Byte) (s : State) : Host.Outcome State Fault Refusal :=
  s.does (spdmAlgorithms req)

/-- GET_DIGESTS (R595). The SPDM GET_DIGESTS request is answered. -/
def execSpdmDigests (req : List Byte) (s : State) : Host.Outcome State Fault Refusal :=
  s.does (spdmDigests req)

/-- GET_CERTIFICATE (R595). The SPDM GET_CERTIFICATE request is answered. -/
def execSpdmCertificate (req : List Byte) (s : State) : Host.Outcome State Fault Refusal :=
  s.does (spdmCertificate req)

/-- CHALLENGE (R595). The SPDM CHALLENGE request is answered. -/
def execSpdmChallenge (req : List Byte) (s : State) : Host.Outcome State Fault Refusal :=
  s.does (spdmChallenge req)

/-- GET_MEASUREMENTS (R595). The SPDM GET_MEASUREMENTS request returns the measurement blocks. -/
def execSpdmMeasurements (op : Nat) (req : List Byte) (s : State) : Host.Outcome State Fault Refusal :=
  s.does (spdmMeasurements op req)

/-- KEY_EXCHANGE (R595). The SPDM KEY_EXCHANGE request starts a session. -/
def execSpdmKeyExchange (req : List Byte) (s : State) : Host.Outcome State Fault Refusal :=
  s.does (spdmKeyExchange req)

/-- FINISH (R595). The SPDM FINISH request completes session set-up. -/
def execSpdmFinish (req : List Byte) (s : State) : Host.Outcome State Fault Refusal :=
  s.does (spdmFinish req)

/-- END_SESSION (R595). The SPDM END_SESSION request ends a session. -/
def execSpdmEndSession (req : List Byte) (s : State) : Host.Outcome State Fault Refusal :=
  s.does (spdmEndSession req)

/-- IDE_KEY_MANAGEMENT (R596). IDE keys are accepted only inside an SPDM session. -/
def execIdeKeys (stream : Nat) (set : Bool) (s : State) : Host.Outcome State Fault Refusal :=
  s.does (ideKeys stream set)

/-- DEV_LOCK (R737). A write of DEV_LOCK locks groups of set-up registers until package reset. -/
def execDevLock (v : Word) (s : State) : Host.Outcome State Fault Refusal :=
  s.writes true .devLock v

/-- REGISTER_WRITE (R735). A BAR0 write to a register without a row of its own applies under size, lock, range and timing rules. -/
def execRegisterWrite (addr size value : Nat) (s : State) : Host.Outcome State Fault Refusal :=
  .next (s.barWrite addr size value)

/-- VF_BAR0_WRITE (R590). A write to VF BAR0 sets a virtual function's vector moderation or MSI-X table entry, and clearing a mask sends a held message. -/
def execVfBar0Write (fn off size value : Nat) (s : State) : Host.Outcome State Fault Refusal :=
  s.does (vfBar0Write fn off size value)

end Sys2Proof.Machine
end

