-- ==== Sys2Proof/Machine/CmdNet.lean ====
section
/-! DEFINITION. Commands of the straits: the messages that arrive, and the link itself (ch. 5, ch. 14). -/

namespace Sys2Proof.Machine

/-- POSTED_WRITE (R213). A remote posted write is applied in sequence order, or discarded as a duplicate, or failed with a late error. -/
def execPostedWrite (rx : Rx) (ctx : Nat) (relaxed : Bool) (handle e2e addr : Nat) (add : Bool) (data : List Byte) (s : State) : Host.Outcome State Fault Refusal :=
  s.receives rx 0 (.postedWrite ctx relaxed handle e2e addr add data)

/-- POSTED_WRITE_RESEND (R508). A posted write unacknowledged 20 µs after sending is resent along the current route. -/
def execPostedWriteResend (dst at_ : Nat) (s : State) : Host.Outcome State Fault Refusal :=
  s.does (postedWriteResend dst at_)

/-- E2E_ACK (R215). A cumulative end-to-end acknowledgement releases acknowledged posted writes. -/
def execE2eAck (rx : Rx) (vc nextSeq : Nat) (s : State) : Host.Outcome State Fault Refusal :=
  s.receives rx 2 (.e2eAck vc nextSeq)

/-- LATE_ERROR (R217). A late-error message taints the frame of the issuing partition and fails its operation. -/
def execLateError (rx : Rx) (ctx reason frame tag addr e2e : Nat) (s : State) : Host.Outcome State Fault Refusal :=
  s.receives rx 3 (.lateError ctx reason frame tag addr e2e)

/-- OP_BIND (R501). An operation binding records a handle and TAG for later late errors. -/
def execOpBind (rx : Rx) (ctx handle tag frame : Nat) (s : State) : Host.Outcome State Fault Refusal :=
  s.receives rx 0 (.opBind ctx handle tag frame)

/-- GRAD_RECORD (R204). A gradient record is combined in transit, or added into the row's accumulator at its home. -/
def execGradRecord (rx : Rx) (bf16 : Bool) (segment first ctx count row key : Nat) (vals : List W32) (s : State) : Host.Outcome State Fault Refusal :=
  s.receives rx 0 (.gradRecord bf16 segment first ctx count row key vals)

/-- CLOSE_NOTICE (R209). A sender's contribution count arrives, and the home's ledger may close. -/
def execCloseNotice (rx : Rx) (ctx key count handle frame : Nat) (s : State) : Host.Outcome State Fault Refusal :=
  s.receives rx 0 (.closeNotice ctx key count handle frame)

/-- COLLECTIVE (R537). A collective piece is received, staged, deduplicated or consumed. -/
def execCollective (rx : Rx) (ctx group chunk part : Nat) (last : Bool) (data : List Byte) (s : State) : Host.Outcome State Fault Refusal :=
  s.receives rx 0 (.collective ctx group chunk part last data)

/-- READ_REQ (R389). A remote read request is served from local memory and answered. -/
def execReadReq (rx : Rx) (ctx tag len addr : Nat) (s : State) : Host.Outcome State Fault Refusal :=
  s.receives rx 1 (.readReq ctx tag len addr)

/-- ROW_REQ (R232). An owner resolves a requested row, serves or forwards it, and updates its sketch. -/
def execRowReq (rx : Rx) (ctx tiers requester tag colFirst colCount row key version : Nat) (s : State) : Host.Outcome State Fault Refusal :=
  s.receives rx 1 (.rowReq ctx tiers requester tag colFirst colCount row key version)

/-- READ_RESP (R232). Row or read data arrives and is placed by its tag, or discarded when the tag is stale. -/
def execReadResp (rx : Rx) (status part tag homeAddr : Nat) (last : Bool) (data : List Byte) (s : State) : Host.Outcome State Fault Refusal :=
  s.receives rx 2 (.readResp status part tag homeAddr last data)

/-- ROW_WRITE (R239). A row's contents are written at its home under BUSY and ROW_VER, while reads wait. -/
def execRowWrite (rx : Rx) (ctx handle e2e requester tag key row : Nat) (undo : Bool) (data : List Byte) (s : State) : Host.Outcome State Fault Refusal :=
  s.receives rx 0 (.rowWrite ctx handle e2e requester tag key row undo data)

/-- VERDICT (R370). A commit verdict from a group member arrives. -/
def execVerdict (rx : Rx) (group vote frame : Nat) (s : State) : Host.Outcome State Fault Refusal :=
  s.receives rx 3 (.verdict group vote frame)

/-- WAKE (R454). A link wake message wakes a sleeping package when WAKE_LINK is 1. -/
def execWake (rx : Rx) (s : State) : Host.Outcome State Fault Refusal :=
  s.receives rx 3 (.wake)

/-- HELLO (R518). A strait HELLO sets the negotiated version and checks the cabling. -/
def execHello (strait version pkg port at_ : Nat) (s : State) : Host.Outcome State Fault Refusal :=
  s.doesIf (decide (strait < 32)) (helloIn strait version pkg port at_)

/-- STATUS_FLIT (R493). A STATUS flit delivers acknowledgements, NAKs, credits, lane requests and timestamps. -/
def execStatusFlit (strait : Nat) (payload : StatusFlit) (at_ code : Nat) (s : State) : Host.Outcome State Fault Refusal :=
  s.doesIf (decide (strait < 32)) (statusFlitIn strait payload at_ code)

/-- STATUS_FLIT_DUE (R497). After 128 flits or 500 ns, or on a gap, the receiver sends a STATUS flit. -/
def execStatusFlitDue (strait at_ : Nat) (s : State) : Host.Outcome State Fault Refusal :=
  s.doesIf (decide (strait < 32)) (statusFlitDue strait at_)

/-- FLIT_RETRY_TIMEOUT (R495). A flit unacknowledged 2 µs after its last send is resent, and the link retrains after 8 resends. -/
def execFlitRetryTimeout (strait vc at_ : Nat) (s : State) : Host.Outcome State Fault Refusal :=
  s.doesIf (decide (strait < 32)) (flitRetryTimeout strait vc at_)

/-- LANE_FAULT (R510). A receiving lane sees no light for 200 ns or too many corrected symbols. -/
def execLaneFault (strait fiber wl counter at_ : Nat) (s : State) : Host.Outcome State Fault Refusal :=
  s.doesIf (decide (strait < 32)) (laneFault strait fiber wl counter at_)

/-- LANE_SWITCH (R511). The codeword counter reaches SWITCH_AT, and both ends exclude the faulty wavelength. -/
def execLaneSwitch (strait counter at_ : Nat) (s : State) : Host.Outcome State Fault Refusal :=
  s.doesIf (decide (strait < 32)) (laneSwitch strait counter at_)

/-- LIGHT_LOSS (R513). All receive lanes of a strait lose light, and the strait is marked down within 10 µs. -/
def execLightLoss (strait at_ : Nat) (s : State) : Host.Outcome State Fault Refusal :=
  s.doesIf (decide (strait < 32)) (lightLoss strait at_)

/-- STRAIT_DOWN (R507). A strait goes down, and its destinations are rerouted with unacknowledged flits and combine records moved. -/
def execStraitDown (strait at_ : Nat) (s : State) : Host.Outcome State Fault Refusal :=
  s.doesIf (decide (strait < 32)) (straitDown strait at_)

/-- RETRAIN_TIMEOUT (R496). A retraining link not up within 1 ms is marked down. -/
def execRetrainTimeout (strait at_ : Nat) (s : State) : Host.Outcome State Fault Refusal :=
  s.doesIf (decide (strait < 32)) (retrainTimeout strait at_)

/-- RETRAIN (R496). A write of STR_CTRL.RETRAIN retrains the link with retry state kept. -/
def execRetrain (strait : Nat) (s : State) : Host.Outcome State Fault Refusal :=
  s.writes (decide (strait < 32)) (.strCtrl strait) (F.strCtrl_RETRAIN.put (s.reg (.strCtrl strait)) 1)

/-- STRAIT_DISABLE (R523). Clearing STR_CTRL.ENABLE marks the strait down before its light goes out. -/
def execStraitDisable (strait : Nat) (s : State) : Host.Outcome State Fault Refusal :=
  s.writes (decide (strait < 32)) (.strCtrl strait) (F.strCtrl_ENABLE.put (s.reg (.strCtrl strait)) 0)

/-- LINK_TRAINING (R516). An enabled strait receiving light recovers clocks, deskews, exchanges HELLO, measures delay and comes up. -/
def execLinkTraining (strait txDown rxDown at_ : Nat) (s : State) : Host.Outcome State Fault Refusal :=
  s.doesIf (decide (strait < 32)) (linkTraining strait txDown rxDown at_)

/-- RECALIBRATION (R515). A lane is recalibrated in background, on the spare or in a bounded slot, and the delay is measured again. -/
def execRecalibration (strait at_ : Nat) (s : State) : Host.Outcome State Fault Refusal :=
  s.doesIf (decide (strait < 32)) (recalibration strait at_)

/-- KEEPALIVE_WAKE_RETRAIN (R521). On wake, each strait retrains from the keep-alive wavelength to all working lanes within 150 µs. -/
def execKeepaliveWake (strait at_ : Nat) (s : State) : Host.Outcome State Fault Refusal :=
  s.doesIf (decide (strait < 32)) (keepaliveWake strait at_)

end Sys2Proof.Machine
end

