-- ==== Sys2Proof/Machine/CmdOps.lean ====
section
/-! DEFINITION. Commands of descriptors and operations: each operation command has an admission step and a run step (ch. 3–10; log entry 11). -/

namespace Sys2Proof.Machine

/-- NOP (R100). A NOP descriptor is fetched during intake, checked and completed. -/
def execNop (step : OpStep) (ctx : Nat) (s : State) : Host.Outcome State Fault Refusal :=
  s.operates step .nop ctx nopOp

/-- INGEST (R618). Accepted stream-port frames of a channel are copied to slot A and may be appended to a graph. -/
def execIngest (step : OpStep) (ctx : Nat) (s : State) : Host.Outcome State Fault Refusal :=
  s.operates step .ingest ctx ingestOp

/-- SAMPLE (R166). Neighbourhoods are sampled around seeds and written as deduplicated subgraph blocks. -/
def execSample (step : OpStep) (ctx : Nat) (s : State) : Host.Outcome State Fault Refusal :=
  s.operates step .sample ctx sampleOp

/-- GATHER (R175). Rows named by the index tensor are read from their tiers into the output, writing route-chart entries. -/
def execGather (step : OpStep) (ctx : Nat) (s : State) : Host.Outcome State Fault Refusal :=
  s.operates step .gather ctx gatherOp

/-- AGGREGATE (R310). Child rows are reduced per parent node of one hop, forward or backward. -/
def execAggregate (step : OpStep) (ctx : Nat) (s : State) : Host.Outcome State Fault Refusal :=
  s.operates step .aggregate ctx aggregateOp

/-- DENSE (R302). A matrix product is computed tile by tile in the fixed summation order of its shape. -/
def execDense (step : OpStep) (ctx : Nat) (s : State) : Host.Outcome State Fault Refusal :=
  s.operates step .dense ctx denseOp

/-- EPILOGUE (R315). Each element passes through a micro-op program and is narrowed into slot B. -/
def execEpilogue (step : OpStep) (ctx : Nat) (s : State) : Host.Outcome State Fault Refusal :=
  s.operates step .epilogue ctx epilogueOp

/-- LOSS (R97). Loss and gradient outputs are computed from scores and labels. -/
def execLoss (step : OpStep) (ctx : Nat) (s : State) : Host.Outcome State Fault Refusal :=
  s.operates step .loss ctx lossOp

/-- SCATTER (R194). The route chart is replayed in reverse, and row gradients are sent toward their homes. -/
def execScatter (step : OpStep) (ctx : Nat) (s : State) : Host.Outcome State Fault Refusal :=
  s.operates step .scatter ctx scatterOp

/-- UPDATE (R357). The fused update units apply the optimiser to a parameter tensor behind the undo log. -/
def execUpdate (step : OpStep) (ctx : Nat) (s : State) : Host.Outcome State Fault Refusal :=
  s.operates step .update ctx updateOp

/-- UPDATE_TABLE (R357). Table rows that received gradients are updated in place at their homes. -/
def execUpdateTable (step : OpStep) (ctx : Nat) (s : State) : Host.Outcome State Fault Refusal :=
  s.operates step .updateTable ctx updateTableOp

/-- EXCHANGE (R546). Tensor blocks are passed around a ring or all-to-all among group members. -/
def execExchange (step : OpStep) (ctx : Nat) (s : State) : Host.Outcome State Fault Refusal :=
  s.operates step .exchange ctx exchangeOp

/-- REDUCE (R540). Contributions are sent to piece owners, and combined results are written on every member. -/
def execReduce (step : OpStep) (ctx : Nat) (s : State) : Host.Outcome State Fault Refusal :=
  s.operates step .reduce ctx reduceOp

/-- PREDICT (R343). Neurons are scored with a low-rank product, and a mask of active and audited neurons is written. -/
def execPredict (step : OpStep) (ctx : Nat) (s : State) : Host.Outcome State Fault Refusal :=
  s.operates step .predict ctx predictOp

/-- COPY_PLAIN (R336). COPY MODE 0 copies a tensor unchanged. -/
def execCopyPlain (step : OpStep) (ctx : Nat) (s : State) : Host.Outcome State Fault Refusal :=
  s.operates step .copyPlain ctx copyPlainOp

/-- COPY_COMPRESS (R337). COPY MODE 1 stores the tensor in the zero run-length format. -/
def execCopyCompress (step : OpStep) (ctx : Nat) (s : State) : Host.Outcome State Fault Refusal :=
  s.operates step .copyCompress ctx copyCompressOp

/-- COPY_EXPAND (R336). COPY MODE 2 expands a compressed tensor to dense form. -/
def execCopyExpand (step : OpStep) (ctx : Nat) (s : State) : Host.Outcome State Fault Refusal :=
  s.operates step .copyExpand ctx copyExpandOp

/-- COPY_GROUP (R340). COPY MODE 3 reorders rows by non-zero-count bucket and writes the permutation. -/
def execCopyGroup (step : OpStep) (ctx : Nat) (s : State) : Host.Outcome State Fault Refusal :=
  s.operates step .copyGroup ctx copyGroupOp

/-- VERSION_SWITCH (R243). TABLE FUNCTION 0 checks a staged descriptor and holds the table's later descriptors until the switch tick. -/
def execVersionSwitch (step : OpStep) (ctx : Nat) (s : State) : Host.Outcome State Fault Refusal :=
  s.operates step .versionSwitch ctx versionSwitchOp

/-- ROW_BY_ROW_REPLACE (R250). TABLE FUNCTION 1 writes new contents to named rows at their homes, logged for undo. -/
def execRowReplace (step : OpStep) (ctx : Nat) (s : State) : Host.Outcome State Fault Refusal :=
  s.operates step .rowReplace ctx rowReplaceOp

/-- MIGRATE_ROWS (R266). TABLE FUNCTION 2 queues moves of named rows into guest slots of a target shard. -/
def execMigrateRows (step : OpStep) (ctx : Nat) (s : State) : Host.Outcome State Fault Refusal :=
  s.operates step .migrateRows ctx migrateRowsOp

/-- HOT_SET_REFRESH (R256). TABLE FUNCTION 3 queues moves of named rows into hot slots or back to their tails. -/
def execHotSetRefresh (step : OpStep) (ctx : Nat) (s : State) : Host.Outcome State Fault Refusal :=
  s.operates step .hotSetRefresh ctx hotSetRefreshOp

/-- SKETCH_READ (R264). TABLE FUNCTION 4 copies a snapshot of the owned sketches and clears their flags. -/
def execSketchRead (step : OpStep) (ctx : Nat) (s : State) : Host.Outcome State Fault Refusal :=
  s.operates step .sketchRead ctx sketchReadOp

/-- FENCE (R105). A FENCE waits for earlier descriptors, the drain and an optional sync-word condition. -/
def execFence (step : OpStep) (ctx : Nat) (s : State) : Host.Outcome State Fault Refusal :=
  s.operates step .fence ctx fenceOp

/-- COMMIT (R368). When the step's work has finished, the drain, verdict, commit or abort and completion writing run. -/
def execCommit (step : OpStep) (ctx : Nat) (s : State) : Host.Outcome State Fault Refusal :=
  s.operates step .commit ctx commitOp

/-- SIGNAL_WRITE (R457). SIGNAL KIND 0 stores a value into a sync word. -/
def execSignalWrite (step : OpStep) (ctx : Nat) (s : State) : Host.Outcome State Fault Refusal :=
  s.operates step .signalWrite ctx signalWriteOp

/-- SIGNAL_ATOMIC_ADD (R457). SIGNAL KIND 1 adds a value to a sync word. -/
def execSignalAdd (step : OpStep) (ctx : Nat) (s : State) : Host.Outcome State Fault Refusal :=
  s.operates step .signalAdd ctx signalAddOp

/-- SIGNAL_VECTOR (R589). SIGNAL KIND 2 raises an MSI-X vector of the context's function. -/
def execSignalVector (step : OpStep) (ctx : Nat) (s : State) : Host.Outcome State Fault Refusal :=
  s.operates step .signalVector ctx signalVectorOp

/-- POOL_ALLOCATE (R758). CONTROL 0x01 allocates the lowest free run of the partition's buffer pool. -/
def execPoolAllocate (step : OpStep) (ctx : Nat) (s : State) : Host.Outcome State Fault Refusal :=
  s.operates step .poolAllocate ctx poolAllocateOp

/-- POOL_FREE (R123). CONTROL 0x02 frees a pool buffer, refusing a wrong owner or a double free. -/
def execPoolFree (step : OpStep) (ctx : Nat) (s : State) : Host.Outcome State Fault Refusal :=
  s.operates step .poolFree ctx poolFreeOp

/-- RANDOM_STREAM_REWIND (R386). CONTROL 0x03 sets a stream's position for operations admitted after it. -/
def execStreamRewind (step : OpStep) (ctx : Nat) (s : State) : Host.Outcome State Fault Refusal :=
  s.operates step .streamRewind ctx streamRewindOp

/-- STRAGGLER_POLICY (R375). CONTROL 0x04 sets the context's straggler policy to carry or drop. -/
def execStragglerPolicy (step : OpStep) (ctx : Nat) (s : State) : Host.Outcome State Fault Refusal :=
  s.operates step .stragglerPolicy ctx stragglerPolicyOp

/-- GROUP_DEFINE (R524). CONTROL 0x05 defines or deletes a ranked package group. -/
def execGroupDefine (step : OpStep) (ctx : Nat) (s : State) : Host.Outcome State Fault Refusal :=
  s.operates step .groupDefine ctx groupDefineOp

/-- CHART_RELEASE (R190). CONTROL 0x06 releases a live gather record and frees its units. -/
def execChartRelease (step : OpStep) (ctx : Nat) (s : State) : Host.Outcome State Fault Refusal :=
  s.operates step .chartRelease ctx chartReleaseOp

/-- DEDUP_BLOCK_OPEN (R172). A cluster waiting for the region dedup hash opens its next block when another block closes. -/
def execDedupBlockOpen (cluster closing : Nat) (s : State) : Host.Outcome State Fault Refusal :=
  s.does (dedupBlockOpen cluster closing)

/-- REGION_MERGE_EMIT (R198). After every chunk is replayed, the region merge unit emits one merged record per row key and segment. -/
def execRegionMergeEmit (ctx region : Nat) (s : State) : Host.Outcome State Fault Refusal :=
  s.doesIf (decide (region < 128)) (regionMergeEmit ctx region)

/-- REDUCE_PIECE_COMBINE (R542). A piece owner combines the piece when every contribution is in, or at the cut-off, and sends the result and counts. -/
def execReducePieceCombine (ctx piece : Nat) (s : State) : Host.Outcome State Fault Refusal :=
  s.does (reducePieceCombine ctx piece)

/-- ABORT_RESTORE (R367). The logged contents are restored in reverse order, and the undo reservation is released at the end. -/
def execAbortRestore (part : Nat) (s : State) : Host.Outcome State Fault Refusal :=
  s.doesIf (decide (part < 64)) (abortRestore part)

/-- PRIMARY_OPERATION_START (R101). A primary operation starts when the previous one has finished on every cluster. -/
def execPrimaryStart (part : Nat) (s : State) : Host.Outcome State Fault Refusal :=
  s.doesIf (decide (part < 64)) (primaryStart part)

/-- SECONDARY_OPERATION_START (R102). A secondary operation starts when its predecessors and earlier FENCEs have finished. -/
def execSecondaryStart (ctx : Nat) (s : State) : Host.Outcome State Fault Refusal :=
  s.doesIf (decide (ctx < 8192)) (secondaryStart ctx)

/-- TASK_DISPATCH (R434). A free core takes the earliest-deadline payable task, and its charge is made. -/
def execTaskDispatch (core at_ : Nat) (s : State) : Host.Outcome State Fault Refusal :=
  s.doesIf (decide (core < 16384)) (taskDispatch core at_)

/-- TASK_FINISH (R305). A task's last tile drains, and the core becomes free at the tile boundary. -/
def execTaskFinish (core at_ : Nat) (s : State) : Host.Outcome State Fault Refusal :=
  s.doesIf (decide (core < 16384)) (taskFinish core at_)

/-- COMPLETION_WRITE (R117). In the commit phase after the drain, the frame's completions are written in ring order. -/
def execCompletionWrite (part : Nat) (s : State) : Host.Outcome State Fault Refusal :=
  s.doesIf (decide (part < 64)) (completionWrite part)

/-- CREDIT_WAIT_STEP_DOWN (R438). A region whose tasks waited for credit for 10 ticks in a frame steps down one clock state. -/
def execCreditWaitStepDown (region : Nat) (s : State) : Host.Outcome State Fault Refusal :=
  s.doesIf (decide (region < 128)) (creditWaitStepDown region)

/-- CREDIT_STEP_UP (R439). A region with no credit waits for 8 frames steps up one clock state, up to PMAX. -/
def execCreditStepUp (region : Nat) (s : State) : Host.Outcome State Fault Refusal :=
  s.doesIf (decide (region < 128)) (creditStepUp region)

/-- LAG_ALARM (R442). An unfetched descriptor has waited beyond SCH_LAG.LIMIT, so ALARM is set and an event is logged. -/
def execLagAlarm (ctx at_ : Nat) (s : State) : Host.Outcome State Fault Refusal :=
  s.doesIf (decide (ctx < 8192)) (lagAlarm ctx at_)

/-- ALIAS_REBUILD (R151). A queued alias rebuild builds a node's table into the unused array in background. -/
def execAliasRebuild (s : State) : Host.Outcome State Fault Refusal :=
  s.does aliasRebuild

/-- ROW_MOVE_COPY (R258). The owner copies a moving row and its state in slack or idle gaps. -/
def execRowMoveCopy (s : State) : Host.Outcome State Fault Refusal :=
  s.does rowMoveCopy

/-- SKETCH_DECAY (R262, R450). Every DECAY_FRAMES frames, every sketch counter is halved in background. -/
def execSketchDecay (s : State) : Host.Outcome State Fault Refusal :=
  s.does sketchDecay

end Sys2Proof.Machine
end

