-- ==== Sys2Proof/Machine/CmdSync.lean ====
section
/-! DEFINITION. Commands of the sync ports, monitors and barriers (ch. 13). -/

namespace Sys2Proof.Machine

/-- LOAD (R457). A sync-port LOAD reads a sync word. -/
def execSyncLoad (core ctx addr : Nat) (s : State) : Host.Outcome State Fault Refusal :=
  s.doesIf (decide (core < 16384)) (syncLoad core ctx addr)

/-- STORE (R457). A sync-port STORE writes a sync word and re-evaluates monitors. -/
def execSyncStore (core ctx addr value : Nat) (s : State) : Host.Outcome State Fault Refusal :=
  s.doesIf (decide (core < 16384)) (syncStore core ctx addr value)

/-- SYNC_ADD (R457). A sync-port ADD adds to a sync word and returns the old value to local cores. -/
def execSyncAdd (core ctx addr value : Nat) (s : State) : Host.Outcome State Fault Refusal :=
  s.doesIf (decide (core < 16384)) (syncAdd core ctx addr value)

/-- ARM (R462). ARM sets a monitor to a word, compare value and condition. -/
def execArm (core mon off cmp cond : Nat) (s : State) : Host.Outcome State Fault Refusal :=
  s.doesIf (decide (core < 16384)) (syncArm core mon off cmp cond)

/-- DISARM (R463). DISARM clears a monitor. -/
def execDisarm (core mon : Nat) (s : State) : Host.Outcome State Fault Refusal :=
  s.doesIf (decide (core < 16384)) (syncDisarm core mon)

/-- WAIT (R464). WAIT returns satisfied monitors at once, or stops the core's clock until a monitor is satisfied or the limit passes. -/
def execWait (core limit at_ : Nat) (s : State) : Host.Outcome State Fault Refusal :=
  s.doesIf (decide (core < 16384)) (syncWait core limit at_)

/-- WAIT_LIMIT_EXPIRY (R464). A waiting core's limit of L cycles expires, and WAIT returns 0. -/
def execWaitLimitExpiry (core at_ : Nat) (s : State) : Host.Outcome State Fault Refusal :=
  s.doesIf (decide (core < 16384)) (waitLimitExpiry core at_)

/-- ARRIVE (R471). A core's barrier arrival is counted once its earlier writes have been applied. -/
def execArrive (core bar : Nat) (s : State) : Host.Outcome State Fault Refusal :=
  s.doesIf (decide (core < 16384)) (arrive core bar)

/-- BARRIER_RELEASE (R473). The root has every token, so it advances the generation and writes the release value to every participant. -/
def execBarrierRelease (part bar unit : Nat) (s : State) : Host.Outcome State Fault Refusal :=
  s.doesIf (decide (part < 64)) (barrierRelease part bar unit)

/-- BARRIER (R476). A system barrier token or release message arrives on the control channel. -/
def execBarrier (rx : Rx) (bar : Nat) (release part : Bool) (generation group frame : Nat) (s : State) : Host.Outcome State Fault Refusal :=
  s.receives rx 3 (.barrier bar release part generation group frame)

/-- WATCH (R468). A watch notice reports that a FENCE's sync-word condition holds. -/
def execWatch (rx : Rx) (ctx submit frame : Nat) (s : State) : Host.Outcome State Fault Refusal :=
  s.receives rx 3 (.watch ctx submit frame)

end Sys2Proof.Machine
end

