-- ==== Sys2Proof/Machine/CmdVector.lean ====
section
/-! DEFINITION. The micro-ops as commands on the lanes of a core's vector unit (ch. 8, R317–R321). -/

namespace Sys2Proof.Machine

/-- MOV (R318). Micro-op MOV copies a register. -/
def execMov (d : VReg) (a : Nat) (s : State) : Host.Outcome State Fault Refusal :=
  s.lanesDo d.core (fun _ u => u.map1 d.reg a (fun x => unlessNan [x] x))

/-- CONST (R318). Micro-op CONST loads IMM read as BF16. -/
def execConst (d : VReg) (imm : Nat) (s : State) : Host.Outcome State Fault Refusal :=
  s.lanesDo d.core (fun _ u => u.each d.reg (fun _ => mvConst imm))

/-- CONSTLO (R318). Micro-op CONSTLO replaces the low 16 bits of a register. -/
def execConstLo (d : VReg) (imm : Nat) (s : State) : Host.Outcome State Fault Refusal :=
  s.lanesDo d.core (fun _ u => u.map1 d.reg d.reg (fun x => mvConstLo x imm))

/-- LDAUX (R316). Micro-op LDAUX reads an auxiliary element with a broadcast mode. -/
def execLdaux (d : VReg) (mod : Nat) (s : State) : Host.Outcome State Fault Refusal :=
  s.lanesDo d.core (fun s u => s.vuLdaux u d.reg mod)

/-- LDIDX (R318). Micro-op LDIDX loads the row or column index. -/
def execLdidx (d : VReg) (mod : Nat) (s : State) : Host.Outcome State Fault Refusal :=
  s.lanesDo d.core (fun _ u => vuLdidx u d.reg mod)

/-- ADD (R318). Micro-op ADD adds two registers. -/
def execAdd (d : VReg) (a b : Nat) (s : State) : Host.Outcome State Fault Refusal :=
  s.lanesDo d.core (fun _ u => u.map2 d.reg a b mvAdd)

/-- SUB (R318). Micro-op SUB subtracts two registers. -/
def execSub (d : VReg) (a b : Nat) (s : State) : Host.Outcome State Fault Refusal :=
  s.lanesDo d.core (fun _ u => u.map2 d.reg a b mvSub)

/-- MUL (R318). Micro-op MUL multiplies two registers. -/
def execMul (d : VReg) (a b : Nat) (s : State) : Host.Outcome State Fault Refusal :=
  s.lanesDo d.core (fun _ u => u.map2 d.reg a b mvMul)

/-- DIV (R318). Micro-op DIV divides with correct rounding. -/
def execDiv (d : VReg) (a b : Nat) (s : State) : Host.Outcome State Fault Refusal :=
  s.lanesDo d.core (fun _ u => u.map2 d.reg a b mvDiv)

/-- MAX (R295). Micro-op MAX takes the maximum under the NaN and zero ordering. -/
def execMax (d : VReg) (a b : Nat) (s : State) : Host.Outcome State Fault Refusal :=
  s.lanesDo d.core (fun _ u => u.map2 d.reg a b mvMax)

/-- MIN (R295). Micro-op MIN takes the minimum under the NaN and zero ordering. -/
def execMin (d : VReg) (a b : Nat) (s : State) : Host.Outcome State Fault Refusal :=
  s.lanesDo d.core (fun _ u => u.map2 d.reg a b mvMin)

/-- LEAKY (R318). Micro-op LEAKY scales negative values by a second register. -/
def execLeaky (d : VReg) (a b : Nat) (s : State) : Host.Outcome State Fault Refusal :=
  s.lanesDo d.core (fun _ u => u.map2 d.reg a b mvLeaky)

/-- CMPGT (R318). Micro-op CMPGT gives 1.0 when the first register is greater. -/
def execCmpGt (d : VReg) (a b : Nat) (s : State) : Host.Outcome State Fault Refusal :=
  s.lanesDo d.core (fun _ u => u.map2 d.reg a b mvCmpGt)

/-- CMPGE (R318). Micro-op CMPGE gives 1.0 when the first register is greater or equal. -/
def execCmpGe (d : VReg) (a b : Nat) (s : State) : Host.Outcome State Fault Refusal :=
  s.lanesDo d.core (fun _ u => u.map2 d.reg a b mvCmpGe)

/-- CMPEQ (R318). Micro-op CMPEQ gives 1.0 when the registers are equal. -/
def execCmpEq (d : VReg) (a b : Nat) (s : State) : Host.Outcome State Fault Refusal :=
  s.lanesDo d.core (fun _ u => u.map2 d.reg a b mvCmpEq)

/-- FMA (R318). Micro-op FMA computes a fused multiply-add with one rounding. -/
def execFma (d : VReg) (a b c : Nat) (s : State) : Host.Outcome State Fault Refusal :=
  s.lanesDo d.core (fun _ u => u.map3 d.reg a b c mvFma)

/-- CLAMP (R318). Micro-op CLAMP bounds a value between two registers. -/
def execClamp (d : VReg) (a b c : Nat) (s : State) : Host.Outcome State Fault Refusal :=
  s.lanesDo d.core (fun _ u => u.map3 d.reg a b c mvClamp)

/-- SEL (R318). Micro-op SEL selects between two registers by a condition. -/
def execSel (d : VReg) (a b c : Nat) (s : State) : Host.Outcome State Fault Refusal :=
  s.lanesDo d.core (fun _ u => u.map3 d.reg a b c mvSel)

/-- RCP (R318). Micro-op RCP computes a reciprocal within 1 ulp. -/
def execRcp (d : VReg) (a : Nat) (s : State) : Host.Outcome State Fault Refusal :=
  s.lanesDo d.core (fun _ u => u.map1 d.reg a rcp32)

/-- SQRT (R318). Micro-op SQRT computes a correctly rounded square root. -/
def execSqrt (d : VReg) (a : Nat) (s : State) : Host.Outcome State Fault Refusal :=
  s.lanesDo d.core (fun _ u => u.map1 d.reg a mvSqrt)

/-- RSQRT (R318). Micro-op RSQRT computes a reciprocal square root within 1 ulp. -/
def execRsqrt (d : VReg) (a : Nat) (s : State) : Host.Outcome State Fault Refusal :=
  s.lanesDo d.core (fun _ u => u.map1 d.reg a rsqrt32)

/-- ABS (R318). Micro-op ABS clears the sign. -/
def execAbs (d : VReg) (a : Nat) (s : State) : Host.Outcome State Fault Refusal :=
  s.lanesDo d.core (fun _ u => u.map1 d.reg a mvAbs)

/-- NEG (R318). Micro-op NEG inverts the sign. -/
def execNeg (d : VReg) (a : Nat) (s : State) : Host.Outcome State Fault Refusal :=
  s.lanesDo d.core (fun _ u => u.map1 d.reg a mvNeg)

/-- RELU (R318). Micro-op RELU passes positive values and gives +0 otherwise. -/
def execRelu (d : VReg) (a : Nat) (s : State) : Host.Outcome State Fault Refusal :=
  s.lanesDo d.core (fun _ u => u.map1 d.reg a mvRelu)

/-- ISFIN (R318). Micro-op ISFIN gives 1.0 for a finite value. -/
def execIsFin (d : VReg) (a : Nat) (s : State) : Host.Outcome State Fault Refusal :=
  s.lanesDo d.core (fun _ u => u.map1 d.reg a mvIsFin)

/-- FLOOR (R318). Micro-op FLOOR gives the largest integral value not above the input. -/
def execFloor (d : VReg) (a : Nat) (s : State) : Host.Outcome State Fault Refusal :=
  s.lanesDo d.core (fun _ u => u.map1 d.reg a mvFloor)

/-- ROUNDI (R318). Micro-op ROUNDI rounds to the nearest integral value, ties to even. -/
def execRoundI (d : VReg) (a : Nat) (s : State) : Host.Outcome State Fault Refusal :=
  s.lanesDo d.core (fun _ u => u.map1 d.reg a mvRound)

/-- EXP (R319). Micro-op EXP computes e to the power of the input within 2 ulp. -/
def execExp (d : VReg) (a : Nat) (s : State) : Host.Outcome State Fault Refusal :=
  s.lanesDo d.core (fun _ u => u.map1 d.reg a (trans32 0x18))

/-- LOG (R319). Micro-op LOG computes the natural logarithm within 2 ulp. -/
def execLog (d : VReg) (a : Nat) (s : State) : Host.Outcome State Fault Refusal :=
  s.lanesDo d.core (fun _ u => u.map1 d.reg a (trans32 0x19))

/-- TANH (R319). Micro-op TANH computes tanh within 2 ulp. -/
def execTanh (d : VReg) (a : Nat) (s : State) : Host.Outcome State Fault Refusal :=
  s.lanesDo d.core (fun _ u => u.map1 d.reg a (trans32 0x1A))

/-- SIGMOID (R319). Micro-op SIGMOID computes the logistic function within 2 ulp. -/
def execSigmoid (d : VReg) (a : Nat) (s : State) : Host.Outcome State Fault Refusal :=
  s.lanesDo d.core (fun _ u => u.map1 d.reg a (trans32 0x1B))

/-- ERF (R319). Micro-op ERF computes erf within 2 ulp. -/
def execErf (d : VReg) (a : Nat) (s : State) : Host.Outcome State Fault Refusal :=
  s.lanesDo d.core (fun _ u => u.map1 d.reg a (trans32 0x1C))

/-- COS (R319). Micro-op COS computes the cosine within 2^−22 absolute. -/
def execCos (d : VReg) (a : Nat) (s : State) : Host.Outcome State Fault Refusal :=
  s.lanesDo d.core (fun _ u => u.map1 d.reg a (trans32 0x1D))

/-- GELU (R319). Micro-op GELU computes the Gaussian error linear unit. -/
def execGelu (d : VReg) (a : Nat) (s : State) : Host.Outcome State Fault Refusal :=
  s.lanesDo d.core (fun _ u => u.map1 d.reg a (trans32 0x22))

/-- SILU (R319). Micro-op SILU computes the input times its sigmoid. -/
def execSilu (d : VReg) (a : Nat) (s : State) : Host.Outcome State Fault Refusal :=
  s.lanesDo d.core (fun _ u => u.map1 d.reg a (trans32 0x23))

/-- SOFTPLUS (R319). Micro-op SOFTPLUS computes log(1 + e^x). -/
def execSoftplus (d : VReg) (a : Nat) (s : State) : Host.Outcome State Fault Refusal :=
  s.lanesDo d.core (fun _ u => u.map1 d.reg a (trans32 0x24))

/-- RNDFMT (R318). Micro-op RNDFMT rounds to a narrower format and widens back. -/
def execRndFmt (d : VReg) (a mod : Nat) (s : State) : Host.Outcome State Fault Refusal :=
  s.lanesDo d.core (fun _ u => u.map1 d.reg a (fun x => mvRndFmt x (mod % 16)))

/-- RSUM (R321). Micro-op RSUM sums a register over the row in the matrix engine. -/
def execRsum (d : VReg) (a : Nat) (s : State) : Host.Outcome State Fault Refusal :=
  s.lanesDo d.core (fun s u => s.vuRsum u d.reg a)

/-- RMAX (R321). Micro-op RMAX takes the row maximum. -/
def execRmax (d : VReg) (a : Nat) (s : State) : Host.Outcome State Fault Refusal :=
  s.lanesDo d.core (fun _ u => vuRext u d.reg a FV.maxv)

/-- RMIN (R321). Micro-op RMIN takes the row minimum. -/
def execRmin (d : VReg) (a : Nat) (s : State) : Host.Outcome State Fault Refusal :=
  s.lanesDo d.core (fun _ u => vuRext u d.reg a FV.minv)

/-- RDOT (R321). Micro-op RDOT sums products over the row. -/
def execRdot (d : VReg) (a b : Nat) (s : State) : Host.Outcome State Fault Refusal :=
  s.lanesDo d.core (fun s u => s.vuRdot u d.reg a b)

/-- RAND (R321). Micro-op RAND produces a uniform value in [0, 1) from the named stream word. -/
def execRand (d : VReg) (s : State) : Host.Outcome State Fault Refusal :=
  s.lanesDo d.core (fun s u => s.vuRand u d.reg)

/-- OUT (R318). Micro-op OUT ends the program with the result register, which is converted and stored. -/
def execOut (a : VReg) (s : State) : Host.Outcome State Fault Refusal :=
  s.lanesDo a.core (fun _ u => vuOut u a.reg)

end Sys2Proof.Machine
end

