-- ==== Sys2Proof/Machine/Dispatch.lean ====
section
/-! DEFINITION. One arm per command: its meaning. -/

namespace Sys2Proof.Machine
open Sys2Proof

/-- The effect of a command on everything but the queue. -/
def exec (i : Instr) (s : State) : Host.Outcome State Fault Refusal :=
  match i with
  | .powerGood => Sys2Proof.Machine.execPowerGood s
  | .railFault vcsw => Sys2Proof.Machine.execRailFault vcsw s
  | .crystalWindow count gap at_ => Sys2Proof.Machine.execCrystalWindow count gap at_ s
  | .clockHoldoverLimit at_ => Sys2Proof.Machine.execClockHoldoverLimit at_ s
  | .xtalReturn => Sys2Proof.Machine.execXtalReturn s
  | .pllRetune kind unit => Sys2Proof.Machine.execPllRetune kind unit s
  | .pllFail kind unit at_ => Sys2Proof.Machine.execPllFail kind unit at_ s
  | .harbourModeOpen dies cores regions at_ => Sys2Proof.Machine.execHarbourModeOpen dies cores regions at_ s
  | .fullServiceOpen dark at_ => Sys2Proof.Machine.execFullServiceOpen dark at_ s
  | .firmwareUpdate => Sys2Proof.Machine.execFirmwareUpdate s
  | .commitSvn => Sys2Proof.Machine.execCommitSvn s
  | .packageReset => Sys2Proof.Machine.execPackageReset s
  | .dieReset die stat cores at_ => Sys2Proof.Machine.execDieReset die stat cores at_ s
  | .shellInserted shell image at_ => Sys2Proof.Machine.execShellInserted shell image at_ s
  | .shellRemoved shell at_ => Sys2Proof.Machine.execShellRemoved shell at_ s
  | .addrToken cell chassis nextPos conflict full => Sys2Proof.Machine.execAddrToken cell chassis nextPos conflict full s
  | .statusCell power at_ => Sys2Proof.Machine.execStatusCell power at_ s
  | .regReadCell cell off tag => Sys2Proof.Machine.execRegReadCell cell off tag s
  | .regWriteCell cell off tag value => Sys2Proof.Machine.execRegWriteCell cell off tag value s
  | .resetCell cell domain index inFifo stat cores at_ => Sys2Proof.Machine.execResetCell cell domain index inFifo stat cores at_ s
  | .wakeCell cell at_ => Sys2Proof.Machine.execWakeCell cell at_ s
  | .pkgOff cell pkg at_ => Sys2Proof.Machine.execPkgOff cell pkg at_ s
  | .flashWriteCell cell off data => Sys2Proof.Machine.execFlashWriteCell cell off data s
  | .ringHead => Sys2Proof.Machine.execRingHead s
  | .receiverLock => Sys2Proof.Machine.execReceiverLock s
  | .tick temps energies => Sys2Proof.Machine.execTick temps energies s
  | .setUpTick temps energies => Sys2Proof.Machine.execSetUpTick temps energies s
  | .stretchLimit part at_ => Sys2Proof.Machine.execStretchLimit part at_ s
  | .stepFrameLimit part at_ => Sys2Proof.Machine.execStepFrameLimit part at_ s
  | .intakeBoundary at_ => Sys2Proof.Machine.execIntakeBoundary at_ s
  | .workBoundary at_ => Sys2Proof.Machine.execWorkBoundary at_ s
  | .reduceBoundary at_ => Sys2Proof.Machine.execReduceBoundary at_ s
  | .commitBoundary at_ => Sys2Proof.Machine.execCommitBoundary at_ s
  | .schedulerTick at_ => Sys2Proof.Machine.execSchedulerTick at_ s
  | .tickMessage rx depth master staged frame time correction period stPeriod phase stPhase applyAt => Sys2Proof.Machine.execTickMessage rx depth master staged frame time correction period stPeriod phase stPhase applyAt s
  | .tickHoldover at_ => Sys2Proof.Machine.execTickHoldover at_ s
  | .holdoverLimit at_ => Sys2Proof.Machine.execHoldoverLimit at_ s
  | .backupMaster at_ => Sys2Proof.Machine.execBackupMaster at_ s
  | .stretch rx group frame => Sys2Proof.Machine.execStretch rx group frame s
  | .frmPeriod v => Sys2Proof.Machine.execFrmPeriod v s
  | .frmPhase v => Sys2Proof.Machine.execFrmPhase v s
  | .frmEpoch v => Sys2Proof.Machine.execFrmEpoch v s
  | .framesEnable => Sys2Proof.Machine.execFramesEnable s
  | .framesDisable => Sys2Proof.Machine.execFramesDisable s
  | .nop step ctx => Sys2Proof.Machine.execNop step ctx s
  | .ingest step ctx => Sys2Proof.Machine.execIngest step ctx s
  | .sample step ctx => Sys2Proof.Machine.execSample step ctx s
  | .gather step ctx => Sys2Proof.Machine.execGather step ctx s
  | .aggregate step ctx => Sys2Proof.Machine.execAggregate step ctx s
  | .dense step ctx => Sys2Proof.Machine.execDense step ctx s
  | .epilogue step ctx => Sys2Proof.Machine.execEpilogue step ctx s
  | .loss step ctx => Sys2Proof.Machine.execLoss step ctx s
  | .scatter step ctx => Sys2Proof.Machine.execScatter step ctx s
  | .update step ctx => Sys2Proof.Machine.execUpdate step ctx s
  | .updateTable step ctx => Sys2Proof.Machine.execUpdateTable step ctx s
  | .exchange step ctx => Sys2Proof.Machine.execExchange step ctx s
  | .reduce step ctx => Sys2Proof.Machine.execReduce step ctx s
  | .predict step ctx => Sys2Proof.Machine.execPredict step ctx s
  | .copyPlain step ctx => Sys2Proof.Machine.execCopyPlain step ctx s
  | .copyCompress step ctx => Sys2Proof.Machine.execCopyCompress step ctx s
  | .copyExpand step ctx => Sys2Proof.Machine.execCopyExpand step ctx s
  | .copyGroup step ctx => Sys2Proof.Machine.execCopyGroup step ctx s
  | .versionSwitch step ctx => Sys2Proof.Machine.execVersionSwitch step ctx s
  | .rowReplace step ctx => Sys2Proof.Machine.execRowReplace step ctx s
  | .migrateRows step ctx => Sys2Proof.Machine.execMigrateRows step ctx s
  | .hotSetRefresh step ctx => Sys2Proof.Machine.execHotSetRefresh step ctx s
  | .sketchRead step ctx => Sys2Proof.Machine.execSketchRead step ctx s
  | .fence step ctx => Sys2Proof.Machine.execFence step ctx s
  | .commit step ctx => Sys2Proof.Machine.execCommit step ctx s
  | .signalWrite step ctx => Sys2Proof.Machine.execSignalWrite step ctx s
  | .signalAdd step ctx => Sys2Proof.Machine.execSignalAdd step ctx s
  | .signalVector step ctx => Sys2Proof.Machine.execSignalVector step ctx s
  | .poolAllocate step ctx => Sys2Proof.Machine.execPoolAllocate step ctx s
  | .poolFree step ctx => Sys2Proof.Machine.execPoolFree step ctx s
  | .streamRewind step ctx => Sys2Proof.Machine.execStreamRewind step ctx s
  | .stragglerPolicy step ctx => Sys2Proof.Machine.execStragglerPolicy step ctx s
  | .groupDefine step ctx => Sys2Proof.Machine.execGroupDefine step ctx s
  | .chartRelease step ctx => Sys2Proof.Machine.execChartRelease step ctx s
  | .dedupBlockOpen cluster closing => Sys2Proof.Machine.execDedupBlockOpen cluster closing s
  | .regionMergeEmit ctx region => Sys2Proof.Machine.execRegionMergeEmit ctx region s
  | .reducePieceCombine ctx piece => Sys2Proof.Machine.execReducePieceCombine ctx piece s
  | .abortRestore part => Sys2Proof.Machine.execAbortRestore part s
  | .primaryStart part => Sys2Proof.Machine.execPrimaryStart part s
  | .secondaryStart ctx => Sys2Proof.Machine.execSecondaryStart ctx s
  | .taskDispatch core at_ => Sys2Proof.Machine.execTaskDispatch core at_ s
  | .taskFinish core at_ => Sys2Proof.Machine.execTaskFinish core at_ s
  | .completionWrite part => Sys2Proof.Machine.execCompletionWrite part s
  | .creditWaitStepDown region => Sys2Proof.Machine.execCreditWaitStepDown region s
  | .creditStepUp region => Sys2Proof.Machine.execCreditStepUp region s
  | .lagAlarm ctx at_ => Sys2Proof.Machine.execLagAlarm ctx at_ s
  | .aliasRebuild => Sys2Proof.Machine.execAliasRebuild s
  | .rowMoveCopy => Sys2Proof.Machine.execRowMoveCopy s
  | .sketchDecay => Sys2Proof.Machine.execSketchDecay s
  | .mov d a => Sys2Proof.Machine.execMov d a s
  | .const d imm => Sys2Proof.Machine.execConst d imm s
  | .constLo d imm => Sys2Proof.Machine.execConstLo d imm s
  | .ldaux d mod => Sys2Proof.Machine.execLdaux d mod s
  | .ldidx d mod => Sys2Proof.Machine.execLdidx d mod s
  | .add d a b => Sys2Proof.Machine.execAdd d a b s
  | .sub d a b => Sys2Proof.Machine.execSub d a b s
  | .mul d a b => Sys2Proof.Machine.execMul d a b s
  | .div d a b => Sys2Proof.Machine.execDiv d a b s
  | .max d a b => Sys2Proof.Machine.execMax d a b s
  | .min d a b => Sys2Proof.Machine.execMin d a b s
  | .leaky d a b => Sys2Proof.Machine.execLeaky d a b s
  | .cmpGt d a b => Sys2Proof.Machine.execCmpGt d a b s
  | .cmpGe d a b => Sys2Proof.Machine.execCmpGe d a b s
  | .cmpEq d a b => Sys2Proof.Machine.execCmpEq d a b s
  | .fma d a b c => Sys2Proof.Machine.execFma d a b c s
  | .clamp d a b c => Sys2Proof.Machine.execClamp d a b c s
  | .sel d a b c => Sys2Proof.Machine.execSel d a b c s
  | .rcp d a => Sys2Proof.Machine.execRcp d a s
  | .sqrt d a => Sys2Proof.Machine.execSqrt d a s
  | .rsqrt d a => Sys2Proof.Machine.execRsqrt d a s
  | .abs d a => Sys2Proof.Machine.execAbs d a s
  | .neg d a => Sys2Proof.Machine.execNeg d a s
  | .relu d a => Sys2Proof.Machine.execRelu d a s
  | .isFin d a => Sys2Proof.Machine.execIsFin d a s
  | .floor d a => Sys2Proof.Machine.execFloor d a s
  | .roundI d a => Sys2Proof.Machine.execRoundI d a s
  | .exp d a => Sys2Proof.Machine.execExp d a s
  | .log d a => Sys2Proof.Machine.execLog d a s
  | .tanh d a => Sys2Proof.Machine.execTanh d a s
  | .sigmoid d a => Sys2Proof.Machine.execSigmoid d a s
  | .erf d a => Sys2Proof.Machine.execErf d a s
  | .cos d a => Sys2Proof.Machine.execCos d a s
  | .gelu d a => Sys2Proof.Machine.execGelu d a s
  | .silu d a => Sys2Proof.Machine.execSilu d a s
  | .softplus d a => Sys2Proof.Machine.execSoftplus d a s
  | .rndFmt d a mod => Sys2Proof.Machine.execRndFmt d a mod s
  | .rsum d a => Sys2Proof.Machine.execRsum d a s
  | .rmax d a => Sys2Proof.Machine.execRmax d a s
  | .rmin d a => Sys2Proof.Machine.execRmin d a s
  | .rdot d a b => Sys2Proof.Machine.execRdot d a b s
  | .rand d => Sys2Proof.Machine.execRand d s
  | .out a => Sys2Proof.Machine.execOut a s
  | .syncLoad core ctx addr => Sys2Proof.Machine.execSyncLoad core ctx addr s
  | .syncStore core ctx addr value => Sys2Proof.Machine.execSyncStore core ctx addr value s
  | .syncAdd core ctx addr value => Sys2Proof.Machine.execSyncAdd core ctx addr value s
  | .arm core mon off cmp cond => Sys2Proof.Machine.execArm core mon off cmp cond s
  | .disarm core mon => Sys2Proof.Machine.execDisarm core mon s
  | .wait core limit at_ => Sys2Proof.Machine.execWait core limit at_ s
  | .waitLimitExpiry core at_ => Sys2Proof.Machine.execWaitLimitExpiry core at_ s
  | .arrive core bar => Sys2Proof.Machine.execArrive core bar s
  | .barrierRelease part bar unit => Sys2Proof.Machine.execBarrierRelease part bar unit s
  | .barrier rx bar release part generation group frame => Sys2Proof.Machine.execBarrier rx bar release part generation group frame s
  | .watch rx ctx submit frame => Sys2Proof.Machine.execWatch rx ctx submit frame s
  | .postedWrite rx ctx relaxed handle e2e addr add data => Sys2Proof.Machine.execPostedWrite rx ctx relaxed handle e2e addr add data s
  | .postedWriteResend dst at_ => Sys2Proof.Machine.execPostedWriteResend dst at_ s
  | .e2eAck rx vc nextSeq => Sys2Proof.Machine.execE2eAck rx vc nextSeq s
  | .lateError rx ctx reason frame tag addr e2e => Sys2Proof.Machine.execLateError rx ctx reason frame tag addr e2e s
  | .opBind rx ctx handle tag frame => Sys2Proof.Machine.execOpBind rx ctx handle tag frame s
  | .gradRecord rx bf16 segment first ctx count row key vals => Sys2Proof.Machine.execGradRecord rx bf16 segment first ctx count row key vals s
  | .closeNotice rx ctx key count handle frame => Sys2Proof.Machine.execCloseNotice rx ctx key count handle frame s
  | .collective rx ctx group chunk part last data => Sys2Proof.Machine.execCollective rx ctx group chunk part last data s
  | .readReq rx ctx tag len addr => Sys2Proof.Machine.execReadReq rx ctx tag len addr s
  | .rowReq rx ctx tiers requester tag colFirst colCount row key version => Sys2Proof.Machine.execRowReq rx ctx tiers requester tag colFirst colCount row key version s
  | .readResp rx status part tag homeAddr last data => Sys2Proof.Machine.execReadResp rx status part tag homeAddr last data s
  | .rowWrite rx ctx handle e2e requester tag key row undo data => Sys2Proof.Machine.execRowWrite rx ctx handle e2e requester tag key row undo data s
  | .verdict rx group vote frame => Sys2Proof.Machine.execVerdict rx group vote frame s
  | .wake rx => Sys2Proof.Machine.execWake rx s
  | .hello strait version pkg port at_ => Sys2Proof.Machine.execHello strait version pkg port at_ s
  | .statusFlit strait payload at_ code => Sys2Proof.Machine.execStatusFlit strait payload at_ code s
  | .statusFlitDue strait at_ => Sys2Proof.Machine.execStatusFlitDue strait at_ s
  | .flitRetryTimeout strait vc at_ => Sys2Proof.Machine.execFlitRetryTimeout strait vc at_ s
  | .laneFault strait fiber wl counter at_ => Sys2Proof.Machine.execLaneFault strait fiber wl counter at_ s
  | .laneSwitch strait counter at_ => Sys2Proof.Machine.execLaneSwitch strait counter at_ s
  | .lightLoss strait at_ => Sys2Proof.Machine.execLightLoss strait at_ s
  | .straitDown strait at_ => Sys2Proof.Machine.execStraitDown strait at_ s
  | .retrainTimeout strait at_ => Sys2Proof.Machine.execRetrainTimeout strait at_ s
  | .retrain strait => Sys2Proof.Machine.execRetrain strait s
  | .straitDisable strait => Sys2Proof.Machine.execStraitDisable strait s
  | .linkTraining strait txDown rxDown at_ => Sys2Proof.Machine.execLinkTraining strait txDown rxDown at_ s
  | .recalibration strait at_ => Sys2Proof.Machine.execRecalibration strait at_ s
  | .keepaliveWake strait at_ => Sys2Proof.Machine.execKeepaliveWake strait at_ s
  | .dataFrame rx payload => Sys2Proof.Machine.execDataFrame rx payload s
  | .credit rx => Sys2Proof.Machine.execCredit rx s
  | .ack rx => Sys2Proof.Machine.execAck rx s
  | .nak rx => Sys2Proof.Machine.execNak rx s
  | .helloFrame rx version nexts allots => Sys2Proof.Machine.execHelloFrame rx version nexts allots s
  | .readData rx payload => Sys2Proof.Machine.execReadData rx payload s
  | .writeAck rx => Sys2Proof.Machine.execWriteAck rx s
  | .frameResendTimeout ferry channel at_ => Sys2Proof.Machine.execFrameResendTimeout ferry channel at_ s
  | .flashTimeout ferry tag at_ => Sys2Proof.Machine.execFlashTimeout ferry tag at_ s
  | .ferryReset ferry inFifo at_ => Sys2Proof.Machine.execFerryReset ferry inFifo at_ s
  | .ferryLaneLoss ferry at_ => Sys2Proof.Machine.execFerryLaneLoss ferry at_ s
  | .ferryTraining ferry lanes at_ => Sys2Proof.Machine.execFerryTraining ferry lanes at_ s
  | .channelEnable ferry channel v => Sys2Proof.Machine.execChannelEnable ferry channel v s
  | .sqTail fn page value at_ => Sys2Proof.Machine.execSqTail fn page value at_ s
  | .cqHead fn page value at_ => Sys2Proof.Machine.execCqHead fn page value at_ s
  | .doorbellReset fn page value at_ => Sys2Proof.Machine.execDoorbellReset fn page value at_ s
  | .moderationTimer fn vec at_ => Sys2Proof.Machine.execModerationTimer fn vec at_ s
  | .contextEnable ctx v => Sys2Proof.Machine.execContextEnable ctx v s
  | .contextReset ctx => Sys2Proof.Machine.execContextReset ctx s
  | .contextResetDone ctx => Sys2Proof.Machine.execContextResetDone ctx s
  | .segReload ctx => Sys2Proof.Machine.execSegReload ctx s
  | .partitionSetUp part v => Sys2Proof.Machine.execPartitionSetUp part v s
  | .partitionTearDown part => Sys2Proof.Machine.execPartitionTearDown part s
  | .flrVf fn at_ => Sys2Proof.Machine.execFlrVf fn at_ s
  | .flrPf at_ => Sys2Proof.Machine.execFlrPf at_ s
  | .atsInvalidation fn pasid page pages => Sys2Proof.Machine.execAtsInvalidation fn pasid page pages s
  | .hostLinkDown at_ => Sys2Proof.Machine.execHostLinkDown at_ s
  | .hostLinkUp rate width flit rev vfEnable numVfs at_ => Sys2Proof.Machine.execHostLinkUp rate width flit rev vfEnable numVfs at_ s
  | .hostAccessFailure ctx slot => Sys2Proof.Machine.execHostAccessFailure ctx slot s
  | .bar4Read off len => Sys2Proof.Machine.execBar4Read off len s
  | .bar4Write off data => Sys2Proof.Machine.execBar4Write off data s
  | .spdmVersion req => Sys2Proof.Machine.execSpdmVersion req s
  | .spdmCapabilities req => Sys2Proof.Machine.execSpdmCapabilities req s
  | .spdmAlgorithms req => Sys2Proof.Machine.execSpdmAlgorithms req s
  | .spdmDigests req => Sys2Proof.Machine.execSpdmDigests req s
  | .spdmCertificate req => Sys2Proof.Machine.execSpdmCertificate req s
  | .spdmChallenge req => Sys2Proof.Machine.execSpdmChallenge req s
  | .spdmMeasurements op req => Sys2Proof.Machine.execSpdmMeasurements op req s
  | .spdmKeyExchange req => Sys2Proof.Machine.execSpdmKeyExchange req s
  | .spdmFinish req => Sys2Proof.Machine.execSpdmFinish req s
  | .spdmEndSession req => Sys2Proof.Machine.execSpdmEndSession req s
  | .ideKeys stream set => Sys2Proof.Machine.execIdeKeys stream set s
  | .devLock v => Sys2Proof.Machine.execDevLock v s
  | .registerWrite addr size value => Sys2Proof.Machine.execRegisterWrite addr size value s
  | .vfBar0Write fn off size value => Sys2Proof.Machine.execVfBar0Write fn off size value s
  | .irqCpEoi cp => Sys2Proof.Machine.execIrqCpEoi cp s
  | .irqHostAck v => Sys2Proof.Machine.execIrqHostAck v s
  | .irqDelivery target at_ => Sys2Proof.Machine.execIrqDelivery target at_ s
  | .cpHoldTimer cp at_ => Sys2Proof.Machine.execCpHoldTimer cp at_ s
  | .eventRecordWrite ok at_ => Sys2Proof.Machine.execEventRecordWrite ok at_ s
  | .eventCoalescing typ src detail => Sys2Proof.Machine.execEventCoalescing typ src detail s
  | .eventsLost => Sys2Proof.Machine.execEventsLost s
  | .evtRingHead v => Sys2Proof.Machine.execEvtRingHead v s
  | .eventRingEnable v => Sys2Proof.Machine.execEventRingEnable v s
  | .telemetrySnapshot => Sys2Proof.Machine.execTelemetrySnapshot s
  | .sStateRequest v => Sys2Proof.Machine.execSStateRequest v s
  | .sStateEntry at_ => Sys2Proof.Machine.execSStateEntry at_ s
  | .sStateWake => Sys2Proof.Machine.execSStateWake s
  | .dieOvertemp die temp at_ => Sys2Proof.Machine.execDieOvertemp die temp at_ s
  | .scrub stack errs at_ => Sys2Proof.Machine.execScrub stack errs at_ s
  | .boundedSlot activity src at_ => Sys2Proof.Machine.execBoundedSlot activity src at_ s
  | .uncorrectableBurst err reader at_ => Sys2Proof.Machine.execUncorrectableBurst err reader at_ s
  | .ceWindowEnd channel => Sys2Proof.Machine.execCeWindowEnd channel s
  | .plannedMapout channel lines at_ => Sys2Proof.Machine.execPlannedMapout channel lines at_ s
  | .immediateMapout channel at_ => Sys2Proof.Machine.execImmediateMapout channel at_ s
  | .coreFault core bad at_ => Sys2Proof.Machine.execCoreFault core bad at_ s
  | .regionFault region at_ => Sys2Proof.Machine.execRegionFault region at_ s
  | .dieFault die at_ => Sys2Proof.Machine.execDieFault die at_ s
  | .recoveryEnd part took at_ => Sys2Proof.Machine.execRecoveryEnd part took at_ s
  | .cpWatchdog cp at_ => Sys2Proof.Machine.execCpWatchdog cp at_ s
  | .packageLost pkg off at_ => Sys2Proof.Machine.execPackageLost pkg off at_ s
  | .shoalEnable v => Sys2Proof.Machine.execShoalEnable v s
  | .shoalInit => Sys2Proof.Machine.execShoalInit s
  | .delta rx part slot sealNo e2e data => Sys2Proof.Machine.execDelta rx part slot sealNo e2e data s
  | .sealNotice rx sealNo count e2e => Sys2Proof.Machine.execSealNotice rx sealNo count e2e s
  | .parityAck rx sealNo e2e => Sys2Proof.Machine.execParityAck rx sealNo e2e s
  | .parityRead rx j part line sealNo tag e2e => Sys2Proof.Machine.execParityRead rx j part line sealNo tag e2e s
  | .parityReadData rx part line tag e2e data => Sys2Proof.Machine.execParityReadData rx part line tag e2e data s
  | .revert rx lost sealNo e2e => Sys2Proof.Machine.execRevert rx lost sealNo e2e s
  | .sealQuery rx lost e2e => Sys2Proof.Machine.execSealQuery rx lost e2e s
  | .sealReport rx j lost sealNo e2e => Sys2Proof.Machine.execSealReport rx j lost sealNo e2e s
  | .protectedWriteStale key len => Sys2Proof.Machine.execProtectedWriteStale key len s
  | .rasAlias v => Sys2Proof.Machine.execRasAlias v s
  | .standbyRebuild first lines => Sys2Proof.Machine.execStandbyRebuild first lines s
  | .spreadRebuild first lines => Sys2Proof.Machine.execSpreadRebuild first lines s

end Sys2Proof.Machine
end

