-- ==== Sys2Proof/Safety.lean ====
section
/-! DEFINITION. What counts as a safe state, and the conditions of commands, in the terms that the statements use. -/

namespace Sys2Proof.Machine

/-! ### What every step keeps -/

/-- The memory lists strictly rising keys and no byte that reads as an unlisted one. -/
def State.memOk (s : State) : Bool := memWf s.mem

/-- The fuse counter is one of its 65 values, an address that is held is a position of a chassis, and reserved lock bits are 0 (R680, R687, R737). -/
def State.hardOk (s : State) : Bool :=
  decide (s.hard.svn ≤ 64) && (!s.hard.cswValid || (decide (s.hard.cswPos < 64) && decide (s.hard.cswChassis < 64)))
    && decide (s.hard.lock.toNat < 256)

/-- Whether a command can reset the package, or turn it off or on: the reset and power commands, RESET_CELL of the package, and register writes, which can reach DEV_RESET (R665, R690, R743). -/
def mayRestart : Instr → Bool
  | .powerGood => true
  | .railFault _ => true
  | .packageReset => true
  | .resetCell _ domain _ _ _ _ _ => domain == 0
  | .registerWrite a size _ => decide (8 < size) || Reg.ofAddr (a / 8 * 8) == some .devReset
  | .regWriteCell _ off _ _ => Reg.ofAddr off == some .devReset
  | _ => false

/-! ### Conditions of commands -/

/-- A cell is good, not this package's own, and for its position (R685). -/
def State.cellForMe (s : State) (h : CellHdr) : Bool := s.hard.vcsw && h.crcOk && !s.cellMine h.src && s.cellMine h.dst

/-- The state once a cell for this package has been counted. -/
def State.cellCounted (s : State) : State := s.onCsw (fun s => s.wrapFld .cswCnt F.cswCnt_CELLS 1)

/-- The core whose vector unit a micro-op command works on, and the vector registers that it writes there; nothing for any other command (R318). -/
def writesLanes : Instr → Option (Nat × List Nat)
  | .mov d _ => some (d.core, [d.reg])
  | .rcp d _ => some (d.core, [d.reg])
  | .sqrt d _ => some (d.core, [d.reg])
  | .rsqrt d _ => some (d.core, [d.reg])
  | .abs d _ => some (d.core, [d.reg])
  | .neg d _ => some (d.core, [d.reg])
  | .relu d _ => some (d.core, [d.reg])
  | .isFin d _ => some (d.core, [d.reg])
  | .floor d _ => some (d.core, [d.reg])
  | .roundI d _ => some (d.core, [d.reg])
  | .exp d _ => some (d.core, [d.reg])
  | .log d _ => some (d.core, [d.reg])
  | .tanh d _ => some (d.core, [d.reg])
  | .sigmoid d _ => some (d.core, [d.reg])
  | .erf d _ => some (d.core, [d.reg])
  | .cos d _ => some (d.core, [d.reg])
  | .gelu d _ => some (d.core, [d.reg])
  | .silu d _ => some (d.core, [d.reg])
  | .softplus d _ => some (d.core, [d.reg])
  | .add d _ _ => some (d.core, [d.reg])
  | .sub d _ _ => some (d.core, [d.reg])
  | .mul d _ _ => some (d.core, [d.reg])
  | .div d _ _ => some (d.core, [d.reg])
  | .max d _ _ => some (d.core, [d.reg])
  | .min d _ _ => some (d.core, [d.reg])
  | .leaky d _ _ => some (d.core, [d.reg])
  | .cmpGt d _ _ => some (d.core, [d.reg])
  | .cmpGe d _ _ => some (d.core, [d.reg])
  | .cmpEq d _ _ => some (d.core, [d.reg])
  | .fma d _ _ _ => some (d.core, [d.reg])
  | .clamp d _ _ _ => some (d.core, [d.reg])
  | .sel d _ _ _ => some (d.core, [d.reg])
  | .const d _ => some (d.core, [d.reg])
  | .constLo d _ => some (d.core, [d.reg])
  | .ldaux d _ => some (d.core, [d.reg])
  | .ldidx d _ => some (d.core, [d.reg])
  | .rndFmt d _ _ => some (d.core, [d.reg])
  | .rsum d _ => some (d.core, [d.reg])
  | .rmax d _ => some (d.core, [d.reg])
  | .rmin d _ => some (d.core, [d.reg])
  | .rdot d _ _ => some (d.core, [d.reg])
  | .rand d => some (d.core, [d.reg])
  | .out a => some (a.core, [])
  | _ => none

/-- The operation command of each kind. -/
def OpCmd.instr (k : OpCmd) (step : OpStep) (ctx : Nat) : Instr :=
  match k with
  | .nop => .nop step ctx
  | .ingest => .ingest step ctx
  | .sample => .sample step ctx
  | .gather => .gather step ctx
  | .aggregate => .aggregate step ctx
  | .dense => .dense step ctx
  | .epilogue => .epilogue step ctx
  | .loss => .loss step ctx
  | .scatter => .scatter step ctx
  | .update => .update step ctx
  | .updateTable => .updateTable step ctx
  | .exchange => .exchange step ctx
  | .reduce => .reduce step ctx
  | .predict => .predict step ctx
  | .copyPlain => .copyPlain step ctx
  | .copyCompress => .copyCompress step ctx
  | .copyExpand => .copyExpand step ctx
  | .copyGroup => .copyGroup step ctx
  | .versionSwitch => .versionSwitch step ctx
  | .rowReplace => .rowReplace step ctx
  | .migrateRows => .migrateRows step ctx
  | .hotSetRefresh => .hotSetRefresh step ctx
  | .sketchRead => .sketchRead step ctx
  | .fence => .fence step ctx
  | .commit => .commit step ctx
  | .signalWrite => .signalWrite step ctx
  | .signalAdd => .signalAdd step ctx
  | .signalVector => .signalVector step ctx
  | .poolAllocate => .poolAllocate step ctx
  | .poolFree => .poolFree step ctx
  | .streamRewind => .streamRewind step ctx
  | .stragglerPolicy => .stragglerPolicy step ctx
  | .groupDefine => .groupDefine step ctx
  | .chartRelease => .chartRelease step ctx

/-- The front-end fetches a context's next descriptor now: the context has its turn, no operation is to be re-run first, and the descriptor is that of a command (R84, R432; log entry 11). -/
def State.fetches (s : State) (k : OpCmd) (ctx : Nat) (x : Ctx) : Prop :=
  s.hard.rails = true ∧ s.ctx? ctx = some x ∧ (s.part (s.partOf ctx)).rerun = [] ∧ s.turnOf (s.partOf ctx) = some ctx
    ∧ (s.nextDesc x).cmd = k

/-- The descriptor that a context fetches now is of a version that is taken, and names no table whose replica is to switch (R3, R4, R245; log entry 73). -/
def State.checks (s : State) (x : Ctx) : Prop :=
  firstFail (versionFails x (s.nextDesc x)) = none ∧ s.tableHeld (s.nextDesc x) = false

/-- Everything that the checks of a descriptor read has been read, and is sound (R135, R162, R243, R401). -/
def State.checkable (s : State) (x : Ctx) (d : Desc) (o : Opc) : Prop :=
  s.admitWants x d o = [] ∧ s.badBurst ((s.admitLocal x d o).filter (fun r => (s.rangeFail x r.1 r.2 true false).isNone)) = none

/-- The operation of a descriptor as it is admitted, with what its ring reserves for it (R85, R107). -/
def State.admitted (s : State) (x : Ctx) (d : Desc) (o : Opc) : Op :=
  { s.newOp x d with held := s.heldBytes x d o, pcost := s.workCost x d o, unit := s.updateUnit x d o }

/-- An operation that starts: a FENCE places its watch, and the tasks of a SCATTER go where its chunks were gathered (R101, R194, R468). -/
def State.begun (s : State) (o : Op) (c : Opc) : State :=
  let s := s.modOp o.seq (fun o => { o with stage := .started })
  if c = .fence then s.placeWatch { o with stage := .started }
  else if c = .scatter then (s.placeReplay o.seq).each (s.regionsOf o.part) State.queueRegs
  else s

/-- The state in which a fetched descriptor is checked: the host's translations of what it names have been asked for (R84, R578). -/
def State.looked (s : State) (x : Ctx) (o : Opc) : State := s.translateDesc x (s.nextDesc x) o

/-- An operation of a context is started and can have its data effect: it is the oldest that a test accepts and that waits for nothing, the host answers where it reaches host memory, and what it reads, with the old bytes of what it writes in place elsewhere, is here and sound, on no fenced channel where it writes (R43, R389, R401, R408, R562; log entry 11). -/
def State.canRun (s : State) (ctx : Nat) (sel : Desc → Bool) (reads : List (Nat × Nat)) (o : Op) : Prop :=
  s.hard.rails = true ∧ s.readyTarget ctx sel = some o ∧ o.reads = [] ∧ o.await = 0 ∧ s.hostSilent o = none
    ∧ s.missing o (reads ++ s.undoReads o) = [] ∧ s.badBurst (reads ++ s.fencedOuts o) = none

/-- A message for this package arrives in order on a strait that carries its channel: the first of the flit that is expected, or a later one of the PACKED flit delivered last (R486, R494, R498). -/
def State.arrivesNext (s : State) (x : Rx) (vc : Nat) : Prop :=
  s.hard.rails = true ∧ x.strait < 32 ∧ s.carries x.strait vc = true ∧ s.isOwn x.dst = true
    ∧ (x.unit = 0 → (x.seq + 2 ^ 32 - ((s.strait x.strait).rxv vc).next) % 2 ^ 32 = 0)
    ∧ (x.unit ≠ 0 → (x.seq + 1) % 2 ^ 32 = ((s.strait x.strait).rxv vc).next ∧ ((s.strait x.strait).rxv vc).unit < x.unit)

/-- Such a message of a flit that has decoded (R486, R494). -/
def State.inOrder (s : State) (x : Rx) (vc : Nat) : Prop := s.arrivesNext x vc ∧ x.code = 0

/-- The state once an in-order flit has been counted and its buffer freed, or a later message of it has been noted (R492, R494, R497, R498). -/
def State.taken (s : State) (x : Rx) (vc : Nat) : State :=
  let s := s.reach x.at_
  if x.unit = 0 then
    let s := s.setStrait x.strait { s.strait x.strait with got := (s.strait x.strait).got + 1 }
    s.modRx x.strait vc (fun r => { r with next := (r.next + 1) % 2 ^ 32, freed := r.freed + 1, unit := 0 })
  else s.modRx x.strait vc (fun r => { r with unit := x.unit })

/-- What follows the action of an in-order message: after the first of a flit, held flits whose turn has come, and then buffers that the staging area gives back. -/
def State.followed (s : State) (x : Rx) (vc : Nat) : State :=
  (if x.unit = 0 then s.deliverHeld x.strait vc 64 else s).releaseOwed

/-- A sequenced frame arrives in order and whole on a channel of a ferry that is up, and no ACK falls due (R603–R607). -/
def State.frameInOrder (s : State) (r : FRx) (typ : Nat) (payload : List Byte) : Prop :=
  s.hard.rails = true ∧ r.ferry < 4 ∧ r.channel < 64 ∧ s.fryUp r.ferry = true ∧ payload.length ≤ 4064 ∧ r.code = 0
    ∧ s.bit (.fryChCfg r.ferry r.channel) F.fryChCfg_ENABLE = true ∧ (typ = 1 ↔ r.channel ≠ 63)
    ∧ (r.alive + 65536 - s.fld (.fryChStatus r.ferry r.channel) F.fryChStatus_RX_NEXT) % 65536 = 0
    ∧ s.checkOf r.ferry r.channel (frameHead typ r.channel r.alive payload.length r.status r.arg r.tag r.end_ ++ payload) = r.check
    ∧ (s.fch r.ferry r.channel).ackSince + 1 < 32

/-- The state once an in-order frame has been accepted (R606, R607). -/
def State.frameTaken (s : State) (r : FRx) : State :=
  let s := s.reach r.at_
  let s := s.setFld (.fryChStatus r.ferry r.channel) F.fryChStatus_RX_NEXT (s.fld (.fryChStatus r.ferry r.channel) F.fryChStatus_RX_NEXT + 1)
  s.setFch r.ferry r.channel { s.fch r.ferry r.channel with ackSince := (s.fch r.ferry r.channel).ackSince + 1 }

/-- A frame that carries no number arrives whole on a ferry that is up (R603). -/
def State.frameHeard (s : State) (r : FRx) : Prop :=
  s.hard.rails = true ∧ r.ferry < 4 ∧ r.channel < 64 ∧ s.fryUp r.ferry = true ∧ r.code = 0

end Sys2Proof.Machine
end

