-- ==== Sys2Proof/Certificates/Slice0/Obligations.lean ====
section
/-! DEFINITION. The statements for the provers. -/

open Sys2Proof Sys2Proof.Machine

/-- A step takes the front command and runs it with the rest of the queue; on an empty queue the block idles (the row's cut; idling is the model's choice, log entry 8). -/
def Obligations.StepRunsFront : Prop :=
  (∀ (c : Instr) (s : State), step { s with pending := c :: s.pending } = exec c s)
  ∧ ∀ s : State, s.pending = [] → step s = .next s

/-- Rails and resets of the package (R665, R743, R745, R690, R738). -/
def Obligations.PowerAndReset : Prop :=
  (∀ s : State, s.hard.rails = false →
    ∃ t, exec .powerGood s = .next t ∧ t.hard = { s.hard with lock := 0, rails := true, vcsw := true } ∧ t.pending = s.pending
      ∧ t.frm = {} ∧ t.ctxs = [] ∧ t.ops = [] ∧ t.parts = [] ∧ t.outbox = s.outbox)
  ∧ (∀ (s : State) (v : Bool),
    ∃ t, exec (.railFault v) s = .next t ∧ t.hard.rails = false ∧ t.hard.lock = 0 ∧ t.hard.svn = s.hard.svn
      ∧ t.hard.cswValid = (s.hard.vcsw && !v && s.hard.cswValid) ∧ t.pending = s.pending
      ∧ t.frm = {} ∧ t.ctxs = [] ∧ t.ops = [] ∧ t.parts = [] ∧ t.outbox = s.outbox)
  ∧ (∀ s : State, s.hard.rails = true →
    ∃ t, exec .packageReset s = .next t ∧ t.hard = { s.hard with lock := 0 } ∧ t.pending = s.pending
      ∧ t.frm = {} ∧ t.ctxs = [] ∧ t.ops = [] ∧ t.parts = [])
  ∧ (∀ (s : State) (d stat : Nat) (cores : List Nat) (at_ : Nat), s.hard.rails = true → d < 8 → 5 ≤ s.stage →
    exec (.dieReset d stat cores at_) s = .next (s.onDev (fun s => (s.reach at_).dieRestart d stat cores)))

/-- Clocks (R671, R673–R675, R677). -/
def Obligations.Clocks : Prop :=
  (∀ (s : State) (count at_ : Nat), s.hard.rails = true → windowOk count false = true → s.fld .clkStatus F.clkStatus_REF = 1 →
    exec (.crystalWindow count false at_) s = .next { ((s.reach at_).setFld .clkXtal F.clkXtal_COUNT count).setFld .clkStatus F.clkStatus_XTAL_OK 1
      with boot := { s.boot with good := s.boot.good + 1 } })
  ∧ (∀ (s : State) (t0 at_ : Nat), s.hard.rails = true → s.boot.holdSince = some t0 → s.fld .clkStatus F.clkStatus_REF = 4 →
    t0 + 10000000 ≤ at_ → s.stage ≠ 1 →
    exec (.clockHoldoverLimit at_) s = .next (s.onDev (fun s => (((s.reach at_).interruptAll 0).setStage 1).lightsOff at_)))
  ∧ (∀ s : State, s.hard.rails = true → s.bit .clkCtrl F.clkCtrl_XTAL_RETURN = true → 16 ≤ s.boot.good →
    2 ≤ s.fld .clkStatus F.clkStatus_REF → exec .xtalReturn s = .next { s with boot := { s.boot with toCrystal := true } })
  ∧ (∀ (s : State) (kind unit : Nat), s.hard.rails = true →
    exec (.pllRetune kind unit) s = .next { s with boot := { s.boot with safe := s.boot.safe.filter (fun x => x ≠ (kind, unit)) } })
  ∧ (∀ (s : State) (unit at_ : Nat), s.hard.rails = true → unit < 128 → unit ∉ s.boot.withheld →
    exec (.pllFail 0 unit at_) s = .next (s.onDev (fun s =>
      ((({ s.reach at_ with boot := { s.boot with safe := insertNew (0, unit) s.boot.safe } } : State).satFld .clkOsc F.clkOsc_PLL_FAIL 1).eventW
        0x0804 753 none none 0 unit).regionFault unit)))

/-- Bring-up's later steps, firmware and shells (R667, R670, R679, R680, R695, R753). -/
def Obligations.ServiceAndFirmware : Prop :=
  (∀ (s : State) (dies cores regions : List Nat) (at_ : Nat), s.hard.rails = true → s.stage = 3 ∨ s.stage = 4 →
    exec (.harbourModeOpen dies cores regions at_) s = .next (s.onDev (fun s => (s.reach at_).openHarbour dies cores regions)))
  ∧ (∀ (s : State) (dark : List Nat) (at_ : Nat), s.hard.rails = true → s.stage = 5 → s.settled dark = true →
    exec (.fullServiceOpen dark at_) s = .next (s.onDev (fun s => if s.bit .frmCtrl F.frmCtrl_ENABLE
      then { s.reach at_ with boot := { s.boot with fullDue := true } } else (s.reach at_).openFull)))
  ∧ (∀ s : State, s.hard.rails = true → bitN s.hard.lock.toNat 5 = false → 3 ≤ s.stage → s.stage ≠ 7 →
    exec .firmwareUpdate s = .next (s.onDev (fun s =>
      if s.stagedOk then (s.storeImage (1 - s.fld .devFw F.devFw_SLOT) s.stagedHead s.stagedBody).setFld .devFwCtrl F.devFwCtrl_RESULT 2
      else s.setFld .devFwCtrl F.devFwCtrl_RESULT 3)))
  ∧ (∀ s : State, s.hard.rails = true → bitN s.hard.lock.toNat 5 = false → 3 ≤ s.stage → s.stage ≠ 7 →
    exec .commitSvn s = .next { s with hard := { s.hard with svn := max s.hard.svn (min s.boot.fwSvn 64) } })
  ∧ (∀ (s : State) (k : Nat) (image : List Byte) (at_ : Nat), s.hard.rails = true → k < 38 →
    exec (.shellInserted k image at_) s = .next (s.onDev (fun s => (s.reach at_).readShell k image)))
  ∧ (∀ (s : State) (k at_ : Nat), s.hard.rails = true → k < 38 → s.bit (.devShell k) F.devShell_PRESENT = true →
    exec (.shellRemoved k at_) s = .next (s.onDev (fun s =>
      ({ (s.reach at_).setReg (.devShell k) (Reg.devShell k).reset with boot := { s.boot with shells := sdel k s.boot.shells } } : State).portGone k at_)))

/-- A cell that arrives for this package alone is counted and acted on (R454, R685, R689–R692), and light comes and goes (R686). -/
def Obligations.CausewayCells : Prop :=
  (∀ (s : State) (power at_ : Nat), s.hard.rails = true → s.hard.vcsw = true → s.hard.cswValid = true → s.cswDark = false → s.boot.statusStage ≠ some s.stage →
    ∃ t, exec (.statusCell power at_) s = .next t ∧ t.boot.statusStage = some s.stage
      ∧ t.outbox = s.outbox ++ [.cell 2 0x7F (s.hard.cswPos % 64) 0 s.boot.cells (s.statusPayload power)])
  ∧ (∀ (s : State) (h : CellHdr) (off tag : Nat), s.cellForMe h = true → s.hard.rails = true → cellServes off = true →
    (Reg.ofAddr off).isSome = true →
    exec (.regReadCell h off tag) s = .next (s.cellCounted.regData off tag (s.cellCounted.barRead off 8) 0))
  ∧ (∀ (s : State) (h : CellHdr) (off tag value : Nat), s.cellForMe h = true → s.hard.rails = true → cellServes off = true →
    s.bit .cswCtrl F.cswCtrl_MGMT_WRITE = true →
    exec (.regWriteCell h off tag value) s = .next ((s.cellCounted.barWrite off 8 value).regData off tag value 0))
  ∧ (∀ (s : State) (h : CellHdr) (n inFifo stat : Nat) (cores : List Nat) (at_ : Nat), s.cellForMe h = true → s.hard.rails = true →
    exec (.resetCell h 0 n inFifo stat cores at_) s = .next s.cellCounted.restart
    ∧ exec (.resetCell h 1 n inFifo stat cores at_) s = .next (s.cellCounted.onDev (dieResetCmd n stat cores at_))
    ∧ exec (.resetCell h 2 n inFifo stat cores at_) s = .next (s.cellCounted.onDev (straitRetrain n at_))
    ∧ exec (.resetCell h 3 n inFifo stat cores at_) s = .next (s.cellCounted.onDev (ferryReset n inFifo at_)))
  ∧ (∀ (s : State) (h : CellHdr) (at_ : Nat), s.cellForMe h = true → s.hard.rails = true →
    exec (.wakeCell h at_) s = .next (s.cellCounted.onDev (fun s => (s.reach at_).wake)))
  ∧ (∀ (s : State) (h : CellHdr) (pkg at_ : Nat), s.cellForMe h = true → s.hard.rails = true → pkg < 4096 →
    exec (.pkgOff h pkg at_) s = .next (s.cellCounted.onDev (fun s => (s.reach at_).declareLost pkg)))
  ∧ (∀ (s : State) (h : CellHdr) (off : Nat) (data : List Byte), s.cellForMe h = true → s.hard.rails = true → s.stage = 2 → off % 32 = 0 →
    s.bit .cswCtrl F.cswCtrl_MGMT_WRITE = true →
    exec (.flashWriteCell h off data) s = .next ((s.cellCounted.onDev (fun s => s.norWr off (data.take 32))).regData off 0 0 0))
  ∧ (∀ s : State, s.hard.vcsw = true → s.stage ≠ 1 → exec .ringHead s = .next (s.onCsw (fun s =>
    (((s.setFld .cswStatus F.cswStatus_LIGHT 0).setFld .cswStatus F.cswStatus_LOCKED 0).setFld .cswStatus F.cswStatus_HEAD 1).relevel 685)))
  ∧ (∀ s : State, s.hard.vcsw = true → exec .receiverLock s = .next (s.onCsw (fun s =>
    (((s.setFld .cswStatus F.cswStatus_LIGHT 1).setFld .cswStatus F.cswStatus_LOCKED 1).setFld .cswStatus F.cswStatus_HEAD 0).relevel 685)))

/-- The addressing token (R687): a package without an address takes NEXT below 64 and the chassis, and forwards the token with NEXT + 1; at 64 it takes nothing and sets FULL; a package with an address keeps it, forwards NEXT or its own position + 1, whichever is more, and sets CONFLICT for another chassis. The package ID is chassis × 64 + position. -/
def Obligations.AddressToken : Prop :=
  (∀ (s : State) (h : CellHdr) (chassis next : Nat) (conflict full : Bool), s.hard.vcsw = true → h.crcOk = true → h.hops < 64 →
    s.hard.cswValid = false → next < 64 →
    ∃ t, exec (.addrToken h chassis next conflict full) s = .next t
      ∧ t.hard = { s.hard with cswValid := true, cswPos := next, cswChassis := chassis % 64 }
      ∧ t.ownId = chassis % 64 * 64 + next
      ∧ t.outbox = s.outbox ++ [.cell 1 h.dst h.src (h.hops + 1) h.seq
          [BitVec.ofNat 8 (chassis % 64), BitVec.ofNat 8 (next + 1), BitVec.ofNat 8 ((if conflict then 1 else 0) + (if full then 2 else 0))]])
  ∧ (∀ (s : State) (h : CellHdr) (chassis next : Nat) (conflict full : Bool), s.hard.vcsw = true → h.crcOk = true → h.hops < 64 →
    s.hard.cswValid = false → 64 ≤ next →
    ∃ t, exec (.addrToken h chassis next conflict full) s = .next t ∧ t.hard = s.hard
      ∧ t.outbox = s.outbox ++ [.cell 1 h.dst h.src (h.hops + 1) h.seq
          [BitVec.ofNat 8 (chassis % 64), BitVec.ofNat 8 next, BitVec.ofNat 8 ((if conflict then 1 else 0) + 2)]])
  ∧ (∀ (s : State) (h : CellHdr) (chassis next : Nat) (conflict full : Bool), s.hard.vcsw = true → h.crcOk = true → h.hops < 64 →
    s.hard.cswValid = true → s.hard.cswPos < 64 → s.hard.cswChassis < 64 →
    ∃ t, exec (.addrToken h chassis next conflict full) s = .next t ∧ t.hard = s.hard
      ∧ (chassis % 64 ≠ s.hard.cswChassis → t.fld .cswStatus F.cswStatus_CONFLICT = 1)
      ∧ t.outbox = s.outbox ++ [.cell 1 h.dst h.src (h.hops + 1) h.seq
          [BitVec.ofNat 8 (chassis % 64), BitVec.ofNat 8 (max next (s.hard.cswPos + 1)),
            BitVec.ofNat 8 ((if conflict = true ∨ chassis % 64 ≠ s.hard.cswChassis then 1 else 0) + (if full then 2 else 0))]])


/-- The commands that start and end frames, and those that bound stretched frames and long steps; at a tick every L0 cache is empty (R48, R53, R56, R57, R396, R736). -/
def Obligations.FrameTicks : Prop :=
  (∀ (s : State) (temps energies : List Nat), s.hard.rails = true → s.open_ = true → s.bit .frmCtrl F.frmCtrl_ENABLE = true →
    exec (.tick temps energies) s = .next (s.onDev (fun s => s.tickNow temps energies)))
  ∧ (∀ (s : State) (temps energies : List Nat), s.hard.rails = true → s.open_ = true → s.bit .frmCtrl F.frmCtrl_ENABLE = false →
    exec (.setUpTick temps energies) s = .next (s.onDev (fun s => s.setUpNow temps energies)))
  ∧ (∀ (s : State) (temps energies : List Nat), (s.tickNow temps energies).l0 = [] ∧ (s.setUpNow temps energies).l0 = [])
  ∧ (∀ (s : State) (p at_ : Nat), s.hard.rails = true → p < 64 → s.tickTime (s.frame + 1) ≤ at_ → 3 ≤ (s.part p).stretch →
    (s.part p).restoring = false → (s.reach at_).unfinished p = true →
    exec (.stretchLimit p at_) s = .next (s.onDev (fun s => (s.reach at_).abandon p)))
  ∧ (∀ (s : State) (p at_ : Nat), s.hard.rails = true → p < 64 → s.tickTime (s.frame + 1) ≤ at_ → 63 ≤ (s.part p).stepFrames →
    (s.part p).stepFirst ≤ s.frame → (s.part p).restoring = false →
    exec (.stepFrameLimit p at_) s = .next (s.onDev (fun s => (s.reach at_).abandon p)))

/-- The boundaries of a frame's phases and the 1 µs scheduler tick (R30–R34, R414). -/
def Obligations.PhaseBoundaries : Prop :=
  (∀ (s : State) (at_ : Nat), s.hard.rails = true → s.frm.phase = .intake → s.frm.lastTick + s.boundary 1 ≤ at_ →
    exec (.intakeBoundary at_) s = .next (s.onDev (fun s => ((s.reach at_).setPhase .work).ringHeaders false)))
  ∧ (∀ (s : State) (at_ : Nat), s.hard.rails = true → s.frm.phase = .work → s.frm.lastTick + s.boundary 2 ≤ at_ →
    exec (.workBoundary at_) s = .next (s.onDev (fun s =>
      (((((s.reach at_).phaseMiss 2).each ((s.reach at_).phaseMiss 2).activeParts State.ingestBoundary).collMissed .exchange).setPhase .reduce))))
  ∧ (∀ (s : State) (at_ : Nat), s.hard.rails = true → s.frm.phase = .reduce → s.frm.lastTick + s.boundary 3 ≤ at_ →
    exec (.reduceBoundary at_) s = .next (s.onDev (fun s =>
      ((s.reach at_).reduceClose.each (s.reach at_).activeParts State.barCutoff).setPhase .commit)))
  ∧ (∀ (s : State) (at_ : Nat), s.hard.rails = true → s.frm.phase = .commit → s.frm.lastTick + s.boundary 4 ≤ at_ →
    exec (.commitBoundary at_) s = .next (s.onDev (fun s =>
      ((((((s.reach at_).phaseMiss 4).fenceExpiry).collMissed .reduce).setPhase .slack).ringHeaders true).telemRecord.sketchSnap)))
  ∧ (∀ (s : State) (at_ : Nat), s.hard.rails = true → s.open_ = true →
    exec (.schedulerTick at_) s = .next (s.onDev (fun s =>
      (s.reach at_).refillTokens.wakeDelayed.riskTick.pollTick.helloTick.ackTick.ferryMicro.initPass.releaseOwed)))

/-- Followers, masters and the registers of frame timing (R38, R56, R59, R71, R76, R77, R638). -/
def Obligations.TimeKeeping : Prop :=
  (∀ (s : State) (at_ : Nat), s.hard.rails = true → s.master = false → s.frm.lastMsg + s.period * 10 ≤ at_ →
    s.bit .frmStatus F.frmStatus_HOLDOVER = false →
    exec (.tickHoldover at_) s = .next (s.onDev (fun s =>
      (((s.reach at_).setFld .frmStatus F.frmStatus_HOLDOVER 1).relevel 686).eventW 0x0105 686 none none 0 0)))
  ∧ (∀ (s : State) (at_ : Nat), s.hard.rails = true → s.master = false → s.frm.lastMsg + 100000000 ≤ at_ →
    s.bit .frmStatus F.frmStatus_IN_STEP = true →
    exec (.holdoverLimit at_) s = .next (s.onDev (fun s =>
      ({ s.reach at_ with frm := { (s.reach at_).frm with good := 0 } } : State).outOfStep (signedN 32 (s.fld .frmOffset F.frmOffset_E)))))
  ∧ (∀ (s : State) (at_ : Nat), s.hard.rails = true → s.bit .rasCtrl F.rasCtrl_BACKUP_MASTER = true → s.master = false →
    s.bit .frmStatus F.frmStatus_HOLDOVER = true → s.frm.lastMsg + s.period * 10 + 10000000 ≤ at_ →
    exec (.backupMaster at_) s = .next (s.onDev (fun s =>
      ((((((s.reach at_).setFld .frmCtrl F.frmCtrl_MASTER 1).setFld .frmStatus F.frmStatus_HOLDOVER 0).setFld .frmStatus F.frmStatus_DEPTH 0).setFld
        .frmStatus F.frmStatus_IN_STEP 1).relevel 686).eventW 0x0107 686 none none 0 0)))
  ∧ (∀ (s : State) (v : Word), s.hard.rails = true → s.open_ = true → bitN s.hard.lock.toNat 0 = false → s.master = true →
    exec (.frmPeriod v) s = .next (s.onDev (fun s =>
      ({ s with frm := { s.frm with stPeriod := some (F.frmPeriod_PERIOD.get v % 2 ^ 21) } } : State).setFld .frmStatus F.frmStatus_PENDING 1)))
  ∧ (∀ (s : State) (v : Word), s.hard.rails = true → s.open_ = true → bitN s.hard.lock.toNat 0 = false → s.master = true →
    exec (.frmPhase v) s = .next (s.onDev (fun s =>
      ({ s with frm := { s.frm with stPhase := some ((Reg.frmPhase.fields.foldl (fun w f => f.put w (f.get v)) (0 : Word)).toNat) } } : State).setFld
        .frmStatus F.frmStatus_PENDING 1)))
  ∧ (∀ (s : State) (v : Word), s.hard.rails = true → s.open_ = true → bitN s.hard.lock.toNat 0 = false → s.master = true →
    s.frm.started = false →
    exec (.frmEpoch v) s = .next { s.setReg .frmEpoch v with frm := { s.frm with ta := v.toNat, na := 0 } })
  ∧ (∀ s : State, s.hard.rails = true → s.open_ = true → bitN s.hard.lock.toNat 0 = false → s.hard.cswValid = true →
    exec .framesEnable s = .next (s.onDev (fun s => s.frmCtrlWrite true s.master))
    ∧ exec .framesDisable s = .next (s.onDev (fun s => s.frmCtrlWrite false s.master)))


/-- Any operation command admits the context's next descriptor of its kind when the descriptor passes the checks and has not to wait: the ring advances, and the operation enters (R84, R85, R430, R432). A descriptor that a check refuses is completed with the check's status, and the ring advances (R84, R121); a major version below 3 comes before every other check (R84). A descriptor that names a table whose replica is to switch keeps its ring waiting (R245; that this comes before the other checks is log entry 73). After an interruption, the operations of the frame are admitted again in their order, before any other (R44, R45). -/
def Obligations.OperationsAdmitted : Prop :=
  (∀ (k : OpCmd) (s : State) (ctx : Nat) (x : Ctx) (o : Opc), s.fetches k ctx x → s.checks x → opcOf (s.nextDesc x).opcode = some o →
    (s.looked x o).checkable x (s.nextDesc x) o →
    (s.looked x o).refusal x (s.nextDesc x) x.fetched = none → (s.looked x o).held x (s.nextDesc x) o = false →
    exec (k.instr .fetch ctx) s = .next (s.onDev (fun s =>
      ((s.looked x o).advance x ((s.looked x o).charges ((s.looked x o).partOf x.id) (s.nextDesc x) o ((s.looked x o).workCost x (s.nextDesc x) o)) true).enter
        ((s.looked x o).admitted x (s.nextDesc x) o) o)))
  ∧ (∀ (k : OpCmd) (s : State) (ctx : Nat) (x : Ctx) (f : Fail), s.fetches k ctx x → firstFail (versionFails x (s.nextDesc x)) = some f →
    exec (k.instr .fetch ctx) s = .next (s.onDev (fun s => s.refuse x (s.nextDesc x) f)))
  ∧ (∀ (k : OpCmd) (s : State) (ctx : Nat) (x : Ctx) (o : Opc) (f : Fail), s.fetches k ctx x → s.checks x → opcOf (s.nextDesc x).opcode = some o →
    (s.looked x o).refusal x (s.nextDesc x) x.fetched = some f → f.1 < 0x15 ∨ (s.looked x o).checkable x (s.nextDesc x) o →
    exec (k.instr .fetch ctx) s = .next (s.onDev (fun s =>
      ({ s.looked x o with
          ops := (s.looked x o).ops ++ [{ (s.looked x o).newOp x (s.nextDesc x) with stage := .refused, status := f.1, detail := f.2 }]
          nextSeq := (s.looked x o).nextSeq + 1 } : State).advance x 0 false)))
  ∧ (∀ (k : OpCmd) (s : State) (ctx : Nat) (x : Ctx), s.fetches k ctx x → firstFail (versionFails x (s.nextDesc x)) = none →
    s.tableHeld (s.nextDesc x) = true → exec (k.instr .fetch ctx) s = .next (s.onDev (fun s => s.holdRing x)))
  ∧ (∀ (k : OpCmd) (s : State) (ctx : Nat) (x : Ctx) (o : Op) (c : Opc) (rest : List Op), s.hard.rails = true → s.ctx? ctx = some x →
    (s.part (s.partOf ctx)).rerun = o :: rest → o.ctx = ctx → o.desc.cmd = k → s.partTakes (s.partOf ctx) = true →
    opcOf o.opcode = some c → o.stage ≠ .refused →
    exec (k.instr .fetch ctx) s = .next (s.onDev (fun s =>
      (s.modPart (s.partOf ctx) (fun x => { x with rerun := rest })).enter { o with rerun := true, undo := 0, seq := s.nextSeq, frame := s.frame } c)))
  ∧ ∀ (x : Ctx) (d : Desc), d.version / 16 < 3 → firstFail (versionFails x d) = some (0x10, 0)

/-- The data effect of SAMPLE and INGEST (R166, R389, R401, R618). -/
def Obligations.SamplingRuns : Prop :=
  (∀ (s : State) (ctx : Nat) (o : Op), s.canRun ctx (isOpc .ingest) [] o →
    exec (.ingest .run ctx) s = .next (s.onDev (fun s => (s.supplied o []).ingestRun o)))
  ∧ (∀ (s : State) (ctx : Nat) (o : Op), s.canRun ctx (isOpc .sample) o.sampleReads o →
    exec (.sample .run ctx) s = .next (s.onDev (fun s => (s.supplied o o.sampleReads).sampleRun o)))

/-- The data effect of the dense arithmetic of a layer: AGGREGATE, DENSE, EPILOGUE, LOSS, PREDICT (R97, R302, R310, R315, R343, R389, R401). -/
def Obligations.MatrixRuns : Prop :=
  (∀ (s : State) (ctx : Nat) (o : Op), s.canRun ctx (isOpc .aggregate) (o.inputs .aggregate) o →
    exec (.aggregate .run ctx) s = .next (s.onDev (fun s => (s.supplied o (o.inputs .aggregate)).aggregateRun o)))
  ∧ (∀ (s : State) (ctx : Nat) (o : Op), s.canRun ctx (isOpc .dense) (s.denseReads o) o →
    exec (.dense .run ctx) s = .next (s.onDev (fun s => (s.supplied o (s.denseReads o)).denseRun o)))
  ∧ (∀ (s : State) (ctx : Nat) (o : Op), s.canRun ctx (isOpc .epilogue) (o.inputs .epilogue) o →
    exec (.epilogue .run ctx) s = .next (s.onDev (fun s => (s.supplied o (o.inputs .epilogue)).epilogueRun o)))
  ∧ (∀ (s : State) (ctx : Nat) (o : Op), s.canRun ctx (isOpc .loss) (o.inputs .loss) o →
    exec (.loss .run ctx) s = .next (s.onDev (fun s => (s.supplied o (o.inputs .loss)).lossRun o)))
  ∧ (∀ (s : State) (ctx : Nat) (o : Op), s.canRun ctx (isOpc .predict) (o.inputs .predict) o →
    exec (.predict .run ctx) s = .next (s.onDev (fun s => (s.supplied o (o.inputs .predict)).predictRun o)))

/-- The data effect of GATHER, SCATTER and UPDATE (R175, R194, R357, R389, R401). -/
def Obligations.TableRowRuns : Prop :=
  (∀ (s : State) (ctx : Nat) (o : Op), s.canRun ctx (isOpc .gather) (o.inputs .gather) o →
    exec (.gather .run ctx) s = .next (s.onDev (fun s => (s.supplied o (o.inputs .gather)).gatherRun o)))
  ∧ (∀ (s : State) (ctx : Nat) (o : Op), s.canRun ctx (isOpc .scatter) (s.scatterReads o) o →
    exec (.scatter .run ctx) s = .next (s.onDev (fun s => (s.supplied o (s.scatterReads o)).scatterRun o)))
  ∧ (∀ (s : State) (ctx : Nat) (o : Op), s.canRun ctx (fun d => isOpc .update d && !d.flag 8) (o.inputs .update) o →
    exec (.update .run ctx) s = .next (s.onDev (fun s => (s.supplied o (o.inputs .update)).updateTensor o)))
  ∧ (∀ (s : State) (ctx : Nat) (o : Op), s.canRun ctx (fun d => isOpc .update d && d.flag 8) [] o →
    exec (.updateTable .run ctx) s = .next (s.onDev (fun s => (s.supplied o []).updateTable o)))

/-- The data effect of EXCHANGE, REDUCE and GROUP_DEFINE (R389, R401, R524, R540, R546). -/
def Obligations.CollectiveRuns : Prop :=
  (∀ (s : State) (ctx : Nat) (o : Op), s.canRun ctx (isOpc .exchange) (o.inputs .exchange) o →
    exec (.exchange .run ctx) s = .next (s.onDev (fun s => (s.supplied o (o.inputs .exchange)).exchangeRun o)))
  ∧ (∀ (s : State) (ctx : Nat) (o : Op), s.canRun ctx (isOpc .reduce) (o.inputs .reduce) o →
    exec (.reduce .run ctx) s = .next (s.onDev (fun s => (s.supplied o (o.inputs .reduce)).reduceRun o)))
  ∧ (∀ (s : State) (ctx : Nat) (o : Op), s.canRun ctx (fun d => isOpc .control d && d.fn == 5) (o.inputs .control) o →
    exec (.groupDefine .run ctx) s = .next (s.onDev (fun s => (s.supplied o (o.inputs .control)).groupDefine o)))

/-- The data effect of COPY and TABLE (R243, R250, R256, R264, R266, R336, R337, R340, R389, R401). -/
def Obligations.CopyAndTableRuns : Prop :=
  (∀ (s : State) (ctx : Nat) (o : Op), s.canRun ctx (isCopy 0) (o.inputs .copy) o →
    exec (.copyPlain .run ctx) s = .next (s.onDev (fun s => (s.supplied o (o.inputs .copy)).copyPlain o)))
  ∧ (∀ (s : State) (ctx : Nat) (o : Op), s.canRun ctx (isCopy 1) (o.inputs .copy) o →
    exec (.copyCompress .run ctx) s = .next (s.onDev (fun s => (s.supplied o (o.inputs .copy)).copyCompress o)))
  ∧ (∀ (s : State) (ctx : Nat) (o : Op), s.canRun ctx (isCopy 2) (o.inputs .copy) o →
    exec (.copyExpand .run ctx) s = .next (s.onDev (fun s => (s.supplied o (o.inputs .copy)).copyExpand o)))
  ∧ (∀ (s : State) (ctx : Nat) (o : Op), s.canRun ctx (isCopy 3) (o.inputs .copy) o →
    exec (.copyGroup .run ctx) s = .next (s.onDev (fun s => (s.supplied o (o.inputs .copy)).copyGroup o)))
  ∧ (∀ (s : State) (ctx : Nat) (o : Op), s.canRun ctx (isTable 0) [] o →
    exec (.versionSwitch .run ctx) s = .next (s.onDev (fun s => (s.supplied o []).tableEnd o false)))
  ∧ (∀ (s : State) (ctx : Nat) (o : Op), s.canRun ctx (isTable 1) (o.inputs .table) o →
    exec (.rowReplace .run ctx) s = .next (s.onDev (fun s => (s.supplied o (o.inputs .table)).replaceRun o)))
  ∧ (∀ (s : State) (ctx : Nat) (o : Op), s.canRun ctx (isTable 2) (o.inputs .table) o →
    exec (.migrateRows .run ctx) s = .next (s.onDev (fun s => (s.supplied o (o.inputs .table)).migrateRun o)))
  ∧ (∀ (s : State) (ctx : Nat) (o : Op), s.canRun ctx (isTable 3) (o.inputs .table) o →
    exec (.hotSetRefresh .run ctx) s = .next (s.onDev (fun s => (s.supplied o (o.inputs .table)).hotRun o)))
  ∧ (∀ (s : State) (ctx : Nat) (o : Op), s.canRun ctx (isTable 4) [] o →
    exec (.sketchRead .run ctx) s = .next (s.onDev (fun s => (s.supplied o []).sketchRun o)))

/-- CONTROL without memory, FENCE, NOP and SIGNAL: the operation takes effect and ends; a FENCE empties the L0 caches of its partition's cores (R100, R105, R190, R375, R386, R396, R457, R589). -/
def Obligations.ControlRuns : Prop :=
  (∀ (s : State) (ctx : Nat) (o : Op), s.canRun ctx (isOpc .nop) [] o →
    exec (.nop .run ctx) s = .next (s.onDev (fun s => s.opEnd o.seq 0 false)))
  ∧ (∀ (s : State) (ctx : Nat) (o : Op), s.canRun ctx (isControl 3) [] o →
    exec (.streamRewind .run ctx) s = .next (s.onDev (fun s => s.opEnd o.seq 0 false)))
  ∧ (∀ (s : State) (ctx : Nat) (o : Op), s.canRun ctx (isControl 4) [] o →
    exec (.stragglerPolicy .run ctx) s = .next (s.onDev (fun s => s.opEnd o.seq 0 false)))
  ∧ (∀ (s : State) (ctx : Nat) (o : Op), s.canRun ctx (isControl 6) [] o →
    ((s.chart? o.ctx (o.desc.param 4 4)).isSome = true → exec (.chartRelease .run ctx) s = .next (s.onDev (fun s =>
      (s.freeCharts (fun c => c.ctx == o.ctx && c.id == o.desc.param 4 4)).opEnd o.seq 0 false)))
    ∧ (s.chart? o.ctx (o.desc.param 4 4) = none → exec (.chartRelease .run ctx) s = .next (s.onDev (fun s => s.opFail o.seq 0x23 116))))
  ∧ (∀ (s : State) (ctx : Nat) (o : Op), s.canRun ctx (isOpc .fence) [] o → s.fenceClear o = true →
    exec (.fence .run ctx) s = .next (s.onDev (fun s => (s.opEnd o.seq 0 false).l0Part o.part)))
  ∧ (∀ (s : State) (ctx : Nat) (o : Op), s.canRun ctx (isSignal 0) [] o → s.isOwn (pkgOf (o.desc.param 0 8)) = true →
    remoteOff (o.desc.param 0 8) % 2 ^ 43 + 4 ≤ sramSize →
    exec (.signalWrite .run ctx) s = .next (s.onDev (fun s =>
      (s.store (syncKey (o.desc.param 0 8)) (toLe 4 (o.desc.param 8 4))).opEnd o.seq 0 false)))
  ∧ (∀ (s : State) (ctx : Nat) (o : Op), s.canRun ctx (isSignal 1) [] o → s.isOwn (pkgOf (o.desc.param 0 8)) = true →
    remoteOff (o.desc.param 0 8) % 2 ^ 43 + 4 ≤ sramSize →
    exec (.signalAdd .run ctx) s = .next (s.onDev (fun s =>
      (s.store (syncKey (o.desc.param 0 8)) (toLe 4 (s.word (syncKey (o.desc.param 0 8)) + o.desc.param 8 4))).opEnd o.seq 0 false)))
  ∧ (∀ (s : State) (ctx : Nat) (o : Op), s.canRun ctx (isSignal 2) [] o →
    exec (.signalVector .run ctx) s = .next (s.onDev (fun s =>
      (s.raiseVector (s.fnOf o.ctx) (o.desc.param 13 2) (s.vecIdle (s.fnOf o.ctx) (o.desc.param 13 2)) none).opEnd o.seq 0 false)))

/-- Memory pools: the lowest free run is handed out, a pool without one answers status 0x42, the owner frees its buffer, another's FREE changes no pool and is logged, and a second FREE is logged too; a re-run allocates and frees nothing again (R123, R758; the re-run: log entry 72). -/
def Obligations.PoolRuns : Prop :=
  (∀ (s : State) (ctx a : Nat) (o : Op), s.canRun ctx (isControl 1) [] o → s.poolTurn o = true → o.prog = [] →
    firstFit (s.part o.part).pool (s.poolUnits o.part) (o.desc.param 4 4) ((s.part o.part).pool.length + 1) 0 = some a →
    exec (.poolAllocate .run ctx) s = .next (s.onDev (fun s =>
      (s.modPart o.part (fun x => { x with
        pool := x.pool ++ [⟨a, o.desc.param 4 4, o.ctx, o.tag⟩]
        freed := x.freed.filter (fun f => !(decide (s.poolBase o.part + 64 * a ≤ f)
          && decide (f < s.poolBase o.part + 64 * a + 64 * o.desc.param 4 4))) })).opEnd o.seq (s.poolBase o.part + 64 * a) false)))
  ∧ (∀ (s : State) (ctx : Nat) (o : Op), s.canRun ctx (isControl 1) [] o → s.poolTurn o = true → o.prog = [] →
    firstFit (s.part o.part).pool (s.poolUnits o.part) (o.desc.param 4 4) ((s.part o.part).pool.length + 1) 0 = none →
    exec (.poolAllocate .run ctx) s = .next (s.onDev (fun s => s.opFail o.seq 0x42 0)))
  ∧ (∀ (s : State) (ctx aux : Nat) (o : Op), s.canRun ctx (isControl 1) [] o → s.poolTurn o = true → o.prog = [aux] →
    exec (.poolAllocate .run ctx) s = .next (s.onDev (fun s => s.opEnd o.seq aux false)))
  ∧ (∀ (s : State) (ctx : Nat) (o : Op), s.canRun ctx (isControl 2) [] o → s.poolTurn o = true → o.prog ≠ [] →
    exec (.poolFree .run ctx) s = .next (s.onDev (fun s => s.opEnd o.seq 0 false)))
  ∧ (∀ (s : State) (ctx u : Nat) (b : Buf) (o : Op), s.canRun ctx (isControl 2) [] o → s.poolTurn o = true → o.prog = [] →
    o.desc.param 8 8 = s.poolBase o.part + 64 * u → u < s.poolUnits o.part → (s.part o.part).pool.find? (fun b => b.unit == u) = some b →
    (b.ctx = o.ctx → b.tag = o.tag →
      exec (.poolFree .run ctx) s = .next (s.onDev (fun s =>
        (s.modPart o.part (fun x => { x with
          pool := x.pool.filter (fun y => y.unit ≠ u), freed := insertNew (s.poolBase o.part + 64 * u) x.freed })).opEnd o.seq 0 false)))
    ∧ (b.ctx ≠ o.ctx ∨ b.tag ≠ o.tag →
      exec (.poolFree .run ctx) s = .next (s.onDev (fun s =>
        (s.eventW 0x0403 (689 + o.part) (some o.ctx) (some o.part) 0 (o.desc.param 8 8)).opFail o.seq 0x40 0))))
  ∧ (∀ (s : State) (ctx u : Nat) (o : Op), s.canRun ctx (isControl 2) [] o → s.poolTurn o = true → o.prog = [] →
    o.desc.param 8 8 = s.poolBase o.part + 64 * u → u < s.poolUnits o.part → (s.part o.part).pool.find? (fun b => b.unit == u) = none →
    o.desc.param 8 8 ∈ (s.part o.part).freed →
    exec (.poolFree .run ctx) s = .next (s.onDev (fun s =>
      (s.eventW 0x0404 (689 + o.part) (some o.ctx) (some o.part) 0 (o.desc.param 8 8)).opFail o.seq 0x41 0)))

/-- COMMIT goes step by step: it checks the ledgers, waits for the drain and tells its verdict, decides, seals and completes; an abort is restored first (R367–R372). -/
def Obligations.CommitSteps : Prop :=
  (∀ (s : State) (ctx : Nat) (o : Op), s.hard.rails = true → s.runTarget ctx (isOpc .commit) = some o → o.prog = [] →
    exec (.commit .run ctx) s = .next (s.onDev (fun s => (s.ledgerCheck o.part).modOp o.seq (fun o => { o with prog := [0] }))))
  ∧ (∀ (s : State) (ctx : Nat) (o : Op), s.hard.rails = true → s.runTarget ctx (isOpc .commit) = some o → o.prog = [0] →
    s.drained o.part = true → s.flashDurable o.part = true →
    exec (.commit .run ctx) s = .next (s.onDev (fun s =>
      ((s.modPart o.part (fun x => { x with deciding := some (s.part o.part).verdict })).sendVerdict o.part (s.part o.part).verdict).modOp o.seq
        (fun y => { y with prog := [1, (s.part o.part).verdict, s.frame] }))))
  ∧ (∀ (s : State) (ctx mine frame st : Nat) (o : Op), s.hard.rails = true → s.runTarget ctx (isOpc .commit) = some o →
    o.prog = [1, mine, frame] → s.decision o.part mine frame = some st →
    exec (.commit .run ctx) s = .next (s.onDev (fun s => s.commitAct o mine st)))
  ∧ (∀ (s : State) (ctx : Nat) (o : Op), s.hard.rails = true → s.runTarget ctx (isOpc .commit) = some o → o.prog = [2] → s.sealsOpen = false →
    exec (.commit .run ctx) s = .next (s.onDev (fun s => (s.commitEnd o 0 0).stepEnd o.part)))
  ∧ (∀ (s : State) (p st de : Nat) (o : Op), s.hard.rails = true → p < 64 →
    s.ops.find? (fun o => o.part == p && isOpc .commit o.desc && o.stage == .started) = some o → o.prog = [3, st, de] →
    exec (.abortRestore p) s = .next (s.onDev (fun s => (s.stepUndo p).modOp o.seq (fun o => { o with prog := [4, st, de] }))))
  ∧ (∀ (s : State) (p st de : Nat) (o : Op), s.hard.rails = true → p < 64 →
    s.ops.find? (fun o => o.part == p && isOpc .commit o.desc && o.stage == .started) = some o → o.prog = [4, st, de] → s.drained p = true →
    exec (.abortRestore p) s = .next (s.onDev (fun s =>
      ((s.commitEnd o st de).stepEnd p).modPart p (fun x => { x with restoring := false }))))


/-- Primary and secondary operations start in their phase, in order: at the start of a primary operation the L0 caches of the partition's cores are empty, a FENCE places its watch, and a SCATTER's tasks go where the chunks were gathered; one whose predecessor failed does not run (R101–R104, R194, R396, R468). Completions are written once they are due (R117). -/
def Obligations.OperationStarts : Prop :=
  (∀ (s : State) (p : Nat) (o : Op) (c : Opc), s.hard.rails = true → p < 64 →
    s.ops.find? (fun o => o.part == p && o.isPrimary && o.stage != .refused && o.stage != .finished) = some o → opcOf o.opcode = some c →
    s.mayStart o c = true → s.predAt o o.desc.depA ≠ .failed → s.predAt o o.desc.depB ≠ .failed →
    exec (.primaryStart p) s = .next (s.onDev (fun s => (s.begun o c).l0Part p)))
  ∧ (∀ (s : State) (ctx : Nat) (o : Op) (c : Opc), s.hard.rails = true → ctx < 8192 → opcOf o.opcode = some c →
    (s.opsOf ctx).find? s.secondaryMay = some o →
    s.predAt o o.desc.depA ≠ .failed → s.predAt o o.desc.depB ≠ .failed →
    exec (.secondaryStart ctx) s = .next (s.onDev (fun s => s.begun o c)))
  ∧ (∀ (s : State) (ctx : Nat) (o : Op) (c : Opc), s.hard.rails = true → ctx < 8192 → opcOf o.opcode = some c →
    (s.opsOf ctx).find? s.secondaryMay = some o → s.predAt o o.desc.depA = .failed →
    exec (.secondaryStart ctx) s = .next (s.onDev (fun s => (s.dropTasks (fun t => t.op == o.seq)).modOp o.seq (fun y => { y with
      stage := .finished, status := 0x33, detail := y.desc.depA, tasksLeft := 0, charge := 0 }))))
  ∧ (∀ (s : State) (p : Nat), s.hard.rails = true → p < 64 → s.completionsDue p = true → (s.part p).commit.isSome = true →
    exec (.completionWrite p) s = .next (s.onDev (fun s =>
      (s.writeCompletions (fun o => o.part == p && (!o.ended || s.resetReady o))).modPart p (fun x => { x with
        stretch := 0, interrupts := 0, mismatch := false }))))
  ∧ ∀ (s : State) (p core : Nat), s.regionIn p (core / 128) = true → sget core (s.l0Part p).l0 = none

/-- Tasks and power credits: a free core takes the first of its ready tasks that is paid for, one that ends leaves its core free and its accumulators empty, regions step by their credit waits, and a descriptor that waits too long raises one alarm (R305, R434, R437–R439, R442). -/
def Obligations.Scheduling : Prop :=
  (∀ (s : State) (core at_ : Nat) (t : Task), s.hard.rails = true → core < 16384 → (s.reach at_).coreFree core = true →
    firstTask ((s.reach at_).ownReady core) = some t →
    chargeAt t.bound ((s.reach at_).pstate ((s.reach at_).payer t core)) ≤ (s.reach at_).balance ((s.reach at_).payer t core) →
    exec (.taskDispatch core at_) s = .next (s.onDev (fun s => (s.reach at_).startTask t core ((s.reach at_).payer t core))))
  ∧ (∀ (s : State) (core at_ : Nat) (t : Task), s.hard.rails = true → core < 16384 → s.tasks.find? (fun t => t.at_ == .running core) = some t →
    (t.cluster, t.op) ∉ s.graph.waitBlocks →
    exec (.taskFinish core at_) s = .next (s.onDev (fun s =>
      ((({ s.reach at_ with
          tasks := s.tasks.filter (fun u => !(u.op == t.op && u.idx == t.idx))
          accs := sdel core s.accs } : State).splitMore t.part).settleOp t.op).dedupTrim)))
  ∧ (∀ (s : State) (core at_ : Nat) (t : Task), s.hard.rails = true → core < 16384 → s.tasks.find? (fun t => t.at_ == .running core) = some t →
    (t.cluster, t.op) ∈ s.graph.waitBlocks → exec (.taskFinish core at_) s = .next (s.onDev (fun s => s.reach at_)))
  ∧ (∀ (s : State) (r : Nat), s.hard.rails = true → r < 128 → 10 ≤ s.fld (.schRegState r) F.schRegState_WAIT_TICKS →
    exec (.creditWaitStepDown r) s = .next { s with pwr := { s.pwr with change := sput r (min 2 (s.pstate r + 1)) s.pwr.change } })
  ∧ (∀ (s : State) (r : Nat), s.hard.rails = true → r < 128 → 8 ≤ sgetD r 0 s.pwr.good →
    bitN (s.fld .pwrStatus F.pwrStatus_THROTTLE) (r / 16) = false →
    exec (.creditStepUp r) s = .next { s with pwr := { s.pwr with
      change := sput r (s.pstate r - 1) s.pwr.change, good := sput r 0 s.pwr.good } })
  ∧ (∀ (s : State) (c at_ t0 : Nat) (x : Ctx), s.hard.rails = true → c < 8192 → s.ctx? c = some x → x.waitsSince = some t0 →
    t0 + s.fld .schLag F.schLag_LIMIT * 1000 < at_ → s.bit .schLag F.schLag_ALARM = false →
    exec (.lagAlarm c at_) s = .next (s.onDev (fun s => ((s.reach at_).setFld .schLag F.schLag_ALARM 1).eventW
      0x0201 (689 + s.partOf c) (some c) (some (s.partOf c)) c 0)))

/-- Steps inside operations that run as commands of their own: a waiting cluster opens its block when another of the region closes, a region emits its merged records, a piece is combined, a queued alias table is built, a row is copied to its new place, and sketches are halved (R151, R172, R198, R258, R262, R450, R542). -/
def Obligations.InnerSteps : Prop :=
  (∀ (s : State) (cluster closing op : Nat), s.hard.rails = true → s.dedupTrim.graph.waitBlocks.find? (fun x => x.1 == cluster) = some (cluster, op) →
    closing / 8 = cluster / 8 →
    (s.dedupTrim.graph.openBlocks.filter (fun y => y.1 / 8 == cluster / 8 && y.1 != closing)).length < 4 →
    exec (.dedupBlockOpen cluster closing) s = .next { s.dedupTrim with graph := { s.dedupTrim.graph with
      openBlocks := s.dedupTrim.graph.openBlocks.filter (fun y => y.1 != closing) ++ [(cluster, op)]
      waitBlocks := s.dedupTrim.graph.waitBlocks.filter (· ≠ (cluster, op)) } })
  ∧ (∀ (s : State) (ctx r : Nat) (o : Op) (c : Chart), s.hard.rails = true → r < 128 →
    s.ops.find? (fun o => o.ctx == ctx && o.stage == .started && isOpc .scatter o.desc && s.merges o r) = some o →
    s.chart? ctx (o.desc.param 0 2) = some c →
    exec (.regionMergeEmit ctx r) s = .next (s.onDev (fun s => s.emitRegion o c r)))
  ∧ (∀ (s : State) (ctx piece me : Nat) (o : Op) (r : CollRun) (g : Group), s.hard.rails = true →
    s.ops.find? (fun o => o.ctx == ctx && o.stage == .started && isOpc .reduce o.desc && s.combines o piece) = some o →
    s.run? o.seq = some r → sget (o.desc.param 0 2) s.groups = some g → s.rankIn g = some me →
    exec (.reducePieceCombine ctx piece) s = .next (s.onDev (fun s => s.combinePiece o r g me piece)))
  ∧ (∀ (s : State) (q : AliasReq) (rest : List AliasReq), s.hard.rails = true → s.graph.queue = q :: rest → s.aliasBusy q.node = false →
    (∀ d ∈ s.graph.done, d.1 = q.graph → d.2.1 ≠ q.node) →
    exec .aliasRebuild s = .next (s.onDev (fun s => ({ s with graph := { s.graph with queue := rest } } : State).rebuildAlias q)))
  ∧ (∀ (s : State) (m : Move) (g p a map : Nat), s.hard.rails = true → s.tbl.moves.find? s.moveDue = some m →
    s.moveSource (s.tblAt m.desc) m = some (g, p, a, map) →
    s.isOwn (pkgOf (s.shardE (s.repOp m.ctx m.desc) (s.tblAt m.desc).slot.2.2 g).ctrl) = true →
    exec .rowMoveCopy s = .next (s.onDev (fun s => s.moveHere (s.tblAt m.desc) m
      (s.ctrlAt (s.shardE (s.repOp m.ctx m.desc) (s.tblAt m.desc).slot.2.2 g).ctrl) p a map)))
  ∧ (∀ (s : State) (n : Nat), s.hard.rails = true → s.fld .tblSketchCtrl F.tblSketchCtrl_DECAY_FRAMES = n → n ≠ 0 → n ≤ s.tbl.decayAt →
    exec .sketchDecay s = .next (s.onDev (fun s =>
      ({ s with tbl := { s.tbl with decayAt := s.tbl.decayAt % n } } : State).each
        ((s.tbl.known.flatMap (fun k =>
          ({ s with tbl := { s.tbl with decayAt := s.tbl.decayAt % n } } : State).ownSketches k.ctx (s.tblAt k.desc))).eraseDups)
        (fun t x => t.halve x.1 x.2 (min (s.tbl.decayAt / n) 16)))))


/-- The micro-ops on the lanes of a core's vector unit: of one source, of two and three, and those with a constant, an index, an auxiliary element, a row, a random word or a format, and OUT (R291, R316, R318–R321). -/
def Obligations.MicroOps : Prop :=
  (∀ (s : State) (core d a : Nat), s.hard.rails = true → core < 16384 →
  exec (.mov ⟨core, d⟩ a) s = .next (s.putVu core ((s.vuOf core).map1 d a (fun x => unlessNan [x] x)))
  ∧ exec (.rcp ⟨core, d⟩ a) s = .next (s.putVu core ((s.vuOf core).map1 d a rcp32))
  ∧ exec (.sqrt ⟨core, d⟩ a) s = .next (s.putVu core ((s.vuOf core).map1 d a mvSqrt))
  ∧ exec (.rsqrt ⟨core, d⟩ a) s = .next (s.putVu core ((s.vuOf core).map1 d a rsqrt32))
  ∧ exec (.abs ⟨core, d⟩ a) s = .next (s.putVu core ((s.vuOf core).map1 d a mvAbs))
  ∧ exec (.neg ⟨core, d⟩ a) s = .next (s.putVu core ((s.vuOf core).map1 d a mvNeg))
  ∧ exec (.relu ⟨core, d⟩ a) s = .next (s.putVu core ((s.vuOf core).map1 d a mvRelu))
  ∧ exec (.isFin ⟨core, d⟩ a) s = .next (s.putVu core ((s.vuOf core).map1 d a mvIsFin))
  ∧ exec (.floor ⟨core, d⟩ a) s = .next (s.putVu core ((s.vuOf core).map1 d a mvFloor))
  ∧ exec (.roundI ⟨core, d⟩ a) s = .next (s.putVu core ((s.vuOf core).map1 d a mvRound))
  ∧ exec (.exp ⟨core, d⟩ a) s = .next (s.putVu core ((s.vuOf core).map1 d a (trans32 0x18)))
  ∧ exec (.log ⟨core, d⟩ a) s = .next (s.putVu core ((s.vuOf core).map1 d a (trans32 0x19)))
  ∧ exec (.tanh ⟨core, d⟩ a) s = .next (s.putVu core ((s.vuOf core).map1 d a (trans32 0x1A)))
  ∧ exec (.sigmoid ⟨core, d⟩ a) s = .next (s.putVu core ((s.vuOf core).map1 d a (trans32 0x1B)))
  ∧ exec (.erf ⟨core, d⟩ a) s = .next (s.putVu core ((s.vuOf core).map1 d a (trans32 0x1C)))
  ∧ exec (.cos ⟨core, d⟩ a) s = .next (s.putVu core ((s.vuOf core).map1 d a (trans32 0x1D)))
  ∧ exec (.gelu ⟨core, d⟩ a) s = .next (s.putVu core ((s.vuOf core).map1 d a (trans32 0x22)))
  ∧ exec (.silu ⟨core, d⟩ a) s = .next (s.putVu core ((s.vuOf core).map1 d a (trans32 0x23)))
  ∧ exec (.softplus ⟨core, d⟩ a) s = .next (s.putVu core ((s.vuOf core).map1 d a (trans32 0x24))))
  ∧ (∀ (s : State) (core d a b : Nat), s.hard.rails = true → core < 16384 →
  exec (.add ⟨core, d⟩ a b) s = .next (s.putVu core ((s.vuOf core).map2 d a b mvAdd))
  ∧ exec (.sub ⟨core, d⟩ a b) s = .next (s.putVu core ((s.vuOf core).map2 d a b mvSub))
  ∧ exec (.mul ⟨core, d⟩ a b) s = .next (s.putVu core ((s.vuOf core).map2 d a b mvMul))
  ∧ exec (.div ⟨core, d⟩ a b) s = .next (s.putVu core ((s.vuOf core).map2 d a b mvDiv))
  ∧ exec (.max ⟨core, d⟩ a b) s = .next (s.putVu core ((s.vuOf core).map2 d a b mvMax))
  ∧ exec (.min ⟨core, d⟩ a b) s = .next (s.putVu core ((s.vuOf core).map2 d a b mvMin))
  ∧ exec (.leaky ⟨core, d⟩ a b) s = .next (s.putVu core ((s.vuOf core).map2 d a b mvLeaky))
  ∧ exec (.cmpGt ⟨core, d⟩ a b) s = .next (s.putVu core ((s.vuOf core).map2 d a b mvCmpGt))
  ∧ exec (.cmpGe ⟨core, d⟩ a b) s = .next (s.putVu core ((s.vuOf core).map2 d a b mvCmpGe))
  ∧ exec (.cmpEq ⟨core, d⟩ a b) s = .next (s.putVu core ((s.vuOf core).map2 d a b mvCmpEq)))
  ∧ (∀ (s : State) (core d a b c : Nat), s.hard.rails = true → core < 16384 →
  exec (.fma ⟨core, d⟩ a b c) s = .next (s.putVu core ((s.vuOf core).map3 d a b c mvFma))
  ∧ exec (.clamp ⟨core, d⟩ a b c) s = .next (s.putVu core ((s.vuOf core).map3 d a b c mvClamp))
  ∧ exec (.sel ⟨core, d⟩ a b c) s = .next (s.putVu core ((s.vuOf core).map3 d a b c mvSel)))
  ∧ ∀ (s : State) (core d a b imm mod : Nat), s.hard.rails = true → core < 16384 →
  exec (.const ⟨core, d⟩ imm) s = .next (s.putVu core ((s.vuOf core).each d (fun _ => mvConst imm)))
  ∧ exec (.constLo ⟨core, d⟩ imm) s = .next (s.putVu core ((s.vuOf core).map1 d d (fun x => mvConstLo x imm)))
  ∧ exec (.ldaux ⟨core, d⟩ mod) s = .next (s.putVu core (s.vuLdaux (s.vuOf core) d mod))
  ∧ exec (.ldidx ⟨core, d⟩ mod) s = .next (s.putVu core ((s.vuOf core).each d (fun l => bits32 (.ofInt (if mod = 0 then l.row else l.col)))))
  ∧ exec (.rndFmt ⟨core, d⟩ a mod) s = .next (s.putVu core ((s.vuOf core).map1 d a (fun x => mvRndFmt x (mod % 16))))
  ∧ exec (.rsum ⟨core, d⟩ a) s = .next (s.putVu core (s.vuRsum (s.vuOf core) d a))
  ∧ exec (.rmax ⟨core, d⟩ a) s = .next (s.putVu core (vuRext (s.vuOf core) d a FV.maxv))
  ∧ exec (.rmin ⟨core, d⟩ a) s = .next (s.putVu core (vuRext (s.vuOf core) d a FV.minv))
  ∧ exec (.rdot ⟨core, d⟩ a b) s = .next (s.putVu core (s.vuRdot (s.vuOf core) d a b))
  ∧ exec (.rand ⟨core, d⟩) s = .next (s.putVu core (s.vuRand (s.vuOf core) d))
  ∧ exec (.out ⟨core, a⟩) s = .next (s.putVu core { s.vuOf core with out := (s.vuOf core).lanes.map (fun l => l.get a) })

/-- A micro-op changes one core's vector unit alone, and of each lane only the destination register (R317, R318). -/
def Obligations.MicroOpFrame : Prop :=
  ∀ (c : Instr) (core : Nat) (ds : List Nat) (s : State), writesLanes c = some (core, ds) → core < 16384 → s.hard.rails = true →
    ∃ u : Vu, exec c s = .next (s.putVu core u) ∧ u.lanes.length = (s.vuOf core).lanes.length ∧ u.op = (s.vuOf core).op
      ∧ (∀ k, k ≠ core → (s.putVu core u).vuOf k = s.vuOf k)
      ∧ ∀ (i j : Nat), j % 16 ∉ ds.map (fun d => d % 16) →
        (nthD u.lanes i default).get j = (nthD (s.vuOf core).lanes i default).get j
        ∧ (nthD u.lanes i default).row = (nthD (s.vuOf core).lanes i default).row
        ∧ (nthD u.lanes i default).col = (nthD (s.vuOf core).lanes i default).col

/-- Accesses of a core to sync words of its own package, its monitors, its WAIT and its barriers (R457, R462–R464, R471–R476). -/
def Obligations.SyncCommands : Prop :=
  (∀ (s : State) (core ctx a v : Nat), s.hard.rails = true → core < 16384 → syncWord a = true → s.syncLocal a = true →
    exec (.syncLoad core ctx a) s = .next { s with outbox := s.outbox ++ [.coreValue core (s.word (syncKey a))] }
    ∧ exec (.syncStore core ctx a v) s = .next (s.onDev (fun s => s.store (syncKey a) (toLe 4 v)))
    ∧ exec (.syncAdd core ctx a v) s = .next (s.onDev (fun s =>
        (s.store (syncKey a) (toLe 4 (s.word (syncKey a) + v))).emit (.coreValue core (s.word (syncKey a))))))
  ∧ (∀ (s : State) (core m off cmp cond : Nat), s.hard.rails = true → core < 16384 → m < 4 → off % 4 = 0 → off + 4 ≤ 0xC0000 → cond ≤ 2 →
    exec (.arm core m off cmp cond) s = .next { s with sync := { s.sync with
      mons := s.sync.mons.filter (fun y => !(y.core == core && y.idx == m))
        ++ [⟨core, m, off, cmp % 2 ^ 32, cond, syncCond cond (s.word (sramKey core off)) (cmp % 2 ^ 32)⟩] } })
  ∧ (∀ (s : State) (core m : Nat), s.hard.rails = true → core < 16384 →
    exec (.disarm core m) s = .next { s with sync := { s.sync with mons := s.sync.mons.filter (fun y => !(y.core == core && y.idx == m)) } })
  ∧ (∀ (s : State) (core limit at_ : Nat), s.hard.rails = true → core < 16384 → 1 ≤ limit → limit ≤ 2 ^ 24 →
    (s.monMask core ≠ 0 → exec (.wait core limit at_) s =
      .next { s.reach at_ with outbox := s.outbox ++ [.coreValue core (s.monMask core)] })
    ∧ (s.monMask core = 0 → exec (.wait core limit at_) s = .next { s.reach at_ with sync := { s.sync with
        waits := s.sync.waits.filter (fun w => w.1 ≠ core) ++ [(core, (s.reach at_).frm.now, cyclesNs limit (s.pstate (core / 128)))] } }))
  ∧ (∀ (s : State) (core at_ : Nat) (w : Nat × Nat × Nat), s.hard.rails = true → core < 16384 →
    s.sync.waits.find? (fun w => w.1 == core) = some w → w.2.1 + w.2.2 ≤ at_ →
    exec (.waitLimitExpiry core at_) s = .next { s.reach at_ with
      sync := { s.sync with waits := s.sync.waits.filter (fun w => w.1 ≠ core) }
      outbox := s.outbox ++ [.coreValue core (s.monMask core)] })
  ∧ (∀ (s : State) (core k p : Nat), s.hard.rails = true → core < 16384 → s.fld (.schRegState (core / 128)) F.schRegState_PARTITION = p → p < 64 →
    k < 16 → core ∉ s.absent → s.bit (.schBarCfg p k) F.schBarCfg_ENABLE = true → s.coreDrained core = true →
    exec (.arrive core k) s = .next (s.onDev (fun s => s.arriveNow core p k)))
  ∧ (∀ (s : State) (p k u : Nat), s.hard.rails = true → p < 64 → k < 16 → s.bit (.schBarCfg p k) F.schBarCfg_ENABLE = true → s.barReady p k u = true →
    s.barScope p k ≠ 4 →
    exec (.barrierRelease p k u) s = .next (s.onDev (fun s => s.releaseLocal p k u (((s.bar p k u).gen + 1) % 2 ^ 31) false)))

/-- A STORE or an ADD of a core to a sync word of its package: the word then holds the value, or the sum modulo 2^32 with the old value answered; every other byte of memory is as before, and the frame, the contexts, the vector unit, tables and ferries stay (R457). -/
def Obligations.SyncWordWrites : Prop :=
  ∀ (s : State) (core ctx a v : Nat), s.hard.rails = true → core < 16384 → syncWord a = true → s.syncLocal a = true →
    (∃ t, exec (.syncStore core ctx a v) s = .next t ∧ t.word (syncKey a) = v % 2 ^ 32
      ∧ (∀ k, k < syncKey a ∨ syncKey a + 4 ≤ k → memRd t.mem k = memRd s.mem k)
      ∧ t.hard = s.hard ∧ t.pending = s.pending ∧ t.frm = s.frm ∧ t.ctxs = s.ctxs ∧ t.vus = s.vus ∧ t.tbl = s.tbl ∧ t.ferries = s.ferries)
    ∧ ∃ t, exec (.syncAdd core ctx a v) s = .next t ∧ t.word (syncKey a) = (s.word (syncKey a) + v) % 2 ^ 32
      ∧ (∃ l, t.outbox = s.outbox ++ l ++ [.coreValue core (s.word (syncKey a))])
      ∧ (∀ k, k < syncKey a ∨ syncKey a + 4 ≤ k → memRd t.mem k = memRd s.mem k)
      ∧ t.hard = s.hard ∧ t.pending = s.pending ∧ t.frm = s.frm ∧ t.ctxs = s.ctxs ∧ t.vus = s.vus ∧ t.tbl = s.tbl ∧ t.ferries = s.ferries


/-- Posted writes, row writes, their acknowledgements, late errors and bindings, arriving in order for this package (R212–R217, R239, R494, R501); a message whose MSG code is reserved is discarded and counted (R500). -/
def Obligations.WriteMessages : Prop :=
  (∀ (s : State) (x : Rx) (ctx : Nat) (relaxed : Bool) (handle e2e addr : Nat) (add : Bool) (data : List Byte), s.inOrder x 0 →
    exec (.postedWrite x ctx relaxed handle e2e addr add data) s = .next (s.onDev (fun s => ((s.taken x 0).e2eIn x.src x.dst e2e (.postedWrite ctx relaxed handle e2e addr add data)).followed x 0)))
  ∧ (∀ (s : State) (x : Rx) (ctx handle e2e requester tag key row : Nat) (undo : Bool) (data : List Byte), s.inOrder x 0 →
    exec (.rowWrite x ctx handle e2e requester tag key row undo data) s = .next (s.onDev (fun s => ((s.taken x 0).e2eIn x.src x.dst e2e (.rowWrite ctx handle e2e requester tag key row undo data)).followed x 0)))
  ∧ (∀ (s : State) (x : Rx) (nextSeq : Nat), s.inOrder x 2 →
    exec (.e2eAck x 0 nextSeq) s = .next (s.onDev (fun s => (((s.taken x 2).e2eAckIn x.src nextSeq).retryArrivals).followed x 2)))
  ∧ (∀ (s : State) (x : Rx) (ctx reason frame tag addr e2e : Nat), s.inOrder x 3 →
    exec (.lateError x ctx reason frame tag addr e2e) s = .next (s.onDev (fun s => ((s.taken x 3).lateErrorFrom x.src ctx reason tag addr e2e).followed x 3)))
  ∧ (∀ (s : State) (x : Rx) (ctx handle tag frame : Nat), s.inOrder x 0 →
    exec (.opBind x ctx handle tag frame) s = .next (s.onDev (fun s => ((s.taken x 0).bindIn x.src ctx handle tag frame).followed x 0)))
  ∧ (∀ (s : State) (x : Rx), s.arrivesNext x 3 → x.code = 5 →
    exec (.wake x) s = .next (s.onDev (fun s => ((s.taken x 3).satFld (.strErr x.strait) F.strErr_UNKNOWN 1).followed x 3)))

/-- Traffic tagged with the frame in progress: gradient records, close notices, pieces of collectives, barrier messages act (R69, R204, R209, R476, R537). What is tagged with the next frame is held for it, and counted within 200 ns of the tick (R73). What is tagged with the frame before is accepted and flagged within 200 ns of the tick (R72); after that, other traffic than contributions and arrivals sends its sender late-error reason 6 (R74). -/
def Obligations.FrameTaggedMessages : Prop :=
  (∀ (s : State) (x : Rx) (bf16 : Bool) (segment first ctx count row key : Nat) (vals : List W32), s.inOrder x 0 → tagFrame s.frame x.tag = s.frame → s.refusing ctx = false →
    exec (.gradRecord x bf16 segment first ctx count row key vals) s = .next (s.onDev (fun s => ((s.taken x 0).gradIn x.src true x.out false ⟨ctx, key, row, segment, first, count, vals⟩ s.frame).followed x 0)))
  ∧ (∀ (s : State) (x : Rx) (ctx key count handle frame : Nat), s.inOrder x 0 → tagFrame s.frame x.tag = s.frame → s.refusing ctx = false →
    exec (.closeNotice x ctx key count handle frame) s = .next (s.onDev (fun s => ((s.taken x 0).closeIn x.src ctx key count handle frame false).followed x 0)))
  ∧ (∀ (s : State) (x : Rx) (ctx group chunk part : Nat) (last : Bool) (data : List Byte), s.inOrder x 0 → tagFrame s.frame x.tag = s.frame → s.refusing ctx = false →
    s.coll.runs.any (fun r => r.group == group && r.frame == s.frame && r.ordinal == chunk / 2 ^ 24) = true →
    exec (.collective x ctx group chunk part last data) s = .next (s.onDev (fun s => ((s.taken x 0).collectiveIn x.src ctx group chunk part last data s.frame x.out false).followed x 0)))
  ∧ (∀ (s : State) (x : Rx) (bar : Nat) (release part : Bool) (gen group frame : Nat), s.inOrder x 3 → tagFrame s.frame x.tag = s.frame →
    exec (.barrier x bar release part gen group frame) s = .next (s.onDev (fun s => ((s.taken x 3).barrierIn x.src bar release part gen group x.out).followed x 3)))
  ∧ (∀ (s : State) (x : Rx) (bf16 : Bool) (segment first ctx count row key : Nat) (vals : List W32), s.inOrder x 0 → tagFrame s.frame x.tag = s.frame + 1 →
    exec (.gradRecord x bf16 segment first ctx count row key vals) s = .next (s.onDev (fun s =>
      (let t := if s.tickTime (s.frame + 1) ≤ x.at_ + 200 then (s.taken x 0).satFld .frmGuardCnt F.frmGuardCnt_COUNT 1 else s.taken x 0
       ({ t with net := { t.net with early := t.net.early
          ++ [(decide (s.tickTime (s.frame + 1) ≤ x.at_ + 200), x, .gradRecord bf16 segment first ctx count row key vals)] } } : State)).followed x 0)))
  ∧ (∀ (s : State) (x : Rx) (bf16 : Bool) (segment first ctx count row key : Nat) (vals : List W32), s.inOrder x 0 → tagFrame s.frame x.tag + 1 = s.frame →
    (s.part (s.partOf ctx)).stretch = 0 →
    (x.at_ ≤ s.frm.lastTick + 200 → s.refusing ctx = false →
      exec (.gradRecord x bf16 segment first ctx count row key vals) s = .next (s.onDev (fun s =>
        (((s.taken x 0).satFld .frmGuardCnt F.frmGuardCnt_COUNT 1).gradIn x.src true x.out true ⟨ctx, key, row, segment, first, count, vals⟩ (s.frame - 1)).followed x 0)))
    ∧ (s.frm.lastTick + 200 < x.at_ →
      exec (.gradRecord x bf16 segment first ctx count row key vals) s = .next (s.onDev (fun s =>
        ((s.taken x 0).lateErrorBare x.src ctx 6 (s.frame - 1) 0).followed x 0))))

/-- Read requests, row requests and their answers, arriving in order for this package (R232, R389, R574). -/
def Obligations.ReadMessages : Prop :=
  (∀ (s : State) (x : Rx) (ctx tag len addr : Nat), s.inOrder x 1 → s.refusing ctx = false →
    exec (.readReq x ctx tag len addr) s = .next (s.onDev (fun s => ((s.taken x 1).readReqIn x.src ctx tag len addr).followed x 1)))
  ∧ (∀ (s : State) (x : Rx) (ctx tiers requester tag first count row key version : Nat), s.inOrder x 1 → s.refusing ctx = false →
    exec (.rowReq x ctx tiers requester tag first count row key version) s = .next (s.onDev (fun s => ((s.taken x 1).rowReqIn x.src ctx tiers requester tag first count row key version).followed x 1)))
  ∧ (∀ (s : State) (x : Rx) (st part tag home : Nat) (last : Bool) (data : List Byte), s.inOrder x 2 →
    exec (.readResp x st part tag home last data) s = .next (s.onDev (fun s => ((s.taken x 2).readRespIn st part tag home last data).followed x 2)))

/-- Tick messages, stretch notices, verdicts, watches and wake-ups, arriving in order for this package (R54, R61–R67, R370, R454, R468). -/
def Obligations.ControlMessages : Prop :=
  (∀ (s : State) (x : Rx) (depth master : Nat) (staged : Bool) (frame time : Nat) (corr : Int) (period stPeriod phase stPhase applyAt : Nat), s.inOrder x 3 →
    exec (.tickMessage x depth master staged frame time corr period stPeriod phase stPhase applyAt) s = .next (s.onDev (fun s => ((s.taken x 3).tickIn x.strait x.at_ x.residence depth master staged frame time corr period stPeriod phase stPhase applyAt).followed x 3)))
  ∧ (∀ (s : State) (x : Rx) (group frame : Nat), s.inOrder x 3 →
    exec (.stretch x group frame) s = .next (s.onDev (fun s => ((s.taken x 3).stretchIn group frame x.at_).followed x 3)))
  ∧ (∀ (s : State) (x : Rx) (group vote frame : Nat), s.inOrder x 3 →
    exec (.verdict x group vote frame) s = .next (s.onDev (fun s => ((s.taken x 3).verdictIn x.src group vote frame).followed x 3)))
  ∧ (∀ (s : State) (x : Rx) (ctx submit frame : Nat), s.inOrder x 3 →
    exec (.watch x ctx submit frame) s = .next (s.onDev (fun s => ((s.taken x 3).watchIn ctx submit).followed x 3)))
  ∧ (∀ (s : State) (x : Rx), s.inOrder x 3 →
    exec (.wake x) s = .next (s.onDev (fun s => ((s.taken x 3).linkWake).followed x 3)))

/-- The eight messages of a shoal come on the posted sequence of their source (R645, R650, R651, R654). -/
def Obligations.ShoalMessages : Prop :=
  (∀ (s : State) (x : Rx) (part slot sealNo e2e : Nat) (data : List Byte), s.inOrder x 0 →
    exec (.delta x part slot sealNo e2e data) s = .next (s.onDev (fun s => ((s.taken x 0).e2eIn x.src x.dst e2e (.parity 0 0 part slot sealNo 0 e2e data)).followed x 0)))
  ∧ (∀ (s : State) (x : Rx) (sealNo count e2e : Nat), s.inOrder x 0 →
    exec (.sealNotice x sealNo count e2e) s = .next (s.onDev (fun s => ((s.taken x 0).e2eIn x.src x.dst e2e (.parity 1 0 0 0 sealNo count e2e [])).followed x 0)))
  ∧ (∀ (s : State) (x : Rx) (sealNo e2e : Nat), s.inOrder x 0 →
    exec (.parityAck x sealNo e2e) s = .next (s.onDev (fun s => ((s.taken x 0).e2eIn x.src x.dst e2e (.parity 2 0 0 0 sealNo 0 e2e [])).followed x 0)))
  ∧ (∀ (s : State) (x : Rx) (j part line sealNo tag e2e : Nat), s.inOrder x 0 →
    exec (.parityRead x j part line sealNo tag e2e) s = .next (s.onDev (fun s => ((s.taken x 0).e2eIn x.src x.dst e2e (.parity 3 j part line sealNo tag e2e [])).followed x 0)))
  ∧ (∀ (s : State) (x : Rx) (part line tag e2e : Nat) (data : List Byte), s.inOrder x 0 →
    exec (.parityReadData x part line tag e2e data) s = .next (s.onDev (fun s => ((s.taken x 0).e2eIn x.src x.dst e2e (.parity 4 0 part line 0 tag e2e data)).followed x 0)))
  ∧ (∀ (s : State) (x : Rx) (lost sealNo e2e : Nat), s.inOrder x 0 →
    exec (.revert x lost sealNo e2e) s = .next (s.onDev (fun s => ((s.taken x 0).e2eIn x.src x.dst e2e (.parity 5 0 0 0 sealNo lost e2e [])).followed x 0)))
  ∧ (∀ (s : State) (x : Rx) (lost e2e : Nat), s.inOrder x 0 →
    exec (.sealQuery x lost e2e) s = .next (s.onDev (fun s => ((s.taken x 0).e2eIn x.src x.dst e2e (.parity 6 0 0 0 0 lost e2e [])).followed x 0)))
  ∧ (∀ (s : State) (x : Rx) (j lost sealNo e2e : Nat), s.inOrder x 0 →
    exec (.sealReport x j lost sealNo e2e) s = .next (s.onDev (fun s => ((s.taken x 0).e2eIn x.src x.dst e2e (.parity 7 j 0 0 sealNo lost e2e [])).followed x 0)))


/-- A strait trains, greets its peer, measures its delay and opens; it retrains and wakes (R496, R516–R523). -/
def Obligations.StraitsOpen : Prop :=
  (∀ (s : State) (n txDown rxDown at_ : Nat), s.hard.rails = true → s.mayTrain n txDown rxDown = true → (s.strait n).retrain = none →
    s.strState n = 0 ∨ s.strState n = 1 ∨ s.strState n = 7 →
    exec (.linkTraining n txDown rxDown at_) s = .next (s.onDev (fun s => (s.reach at_).freshTraining n txDown rxDown)))
  ∧ (∀ (s : State) (n txDown rxDown t at_ : Nat), s.hard.rails = true → s.mayTrain n txDown rxDown = true → (s.strait n).retrain = some t →
    exec (.linkTraining n txDown rxDown at_) s = .next (s.onDev (fun s =>
      ((s.reach at_).setLanes n (s.reg (.strLaneMap n)) txDown rxDown).retrained n)))
  ∧ (∀ (s : State) (n version pkg port at_ : Nat), s.hard.rails = true → s.hears n = true → version / 16 = 3 →
    s.miscabled n pkg port = false → s.strState n = 1 → (s.strait n).retrain = none →
    ((s.strait n).hello = true → exec (.hello n version pkg port at_) s = .next (s.onDev (fun s =>
      (((s.reach at_).peerIn n version pkg port).setStrState n 1).sendStatus n false)))
    ∧ ((s.strait n).hello = false → exec (.hello n version pkg port at_) s = .next (s.onDev (fun s =>
      ((((s.reach at_).peerIn n version pkg port).sendHello n).setStrState n 1).sendStatus n false))))
  ∧ (∀ (s : State) (n at_ : Nat) (p : StatusFlit), s.hard.rails = true → n < 32 → s.strState n = 1 → (s.strait n).hello = true →
    (s.strait n).retrain = none → (s.strait n).measure = true → p.tEcho ≠ 0 → p.vcs = [] → p.lane = none →
    exec (.statusFlit n p at_ 0) s = .next (s.onDev (fun s =>
      (((s.reach at_).setStrait n { (s.reach at_).strait n with echo := some (p.tTx, at_) }).measureDelay n p at_).strOpens n)))
  ∧ (∀ (s : State) (n version pkg port at_ : Nat), s.hard.rails = true → s.hears n = true → version / 16 = 3 →
    s.miscabled n pkg port = true → s.strState n ≠ 5 →
    exec (.hello n version pkg port at_) s = .next (s.onDev (fun s =>
      (((s.reach at_).peerIn n version pkg port).setStrState n 5).strEvent n)))
  ∧ (∀ (s : State) (n : Nat), s.hard.rails = true → s.open_ = true → n < 32 → bitN s.hard.lock.toNat 3 = false →
    s.bit (.strCtrl n) F.strCtrl_ENABLE = true → s.strUp n = true →
    exec (.retrain n) s = .next (s.onDev (fun s =>
      (s.plainWrite (.strCtrl n) (F.strCtrl_RETRAIN.put (s.reg (.strCtrl n)) 1)).startRetrain n)))
  ∧ (∀ (s : State) (n : Nat), s.hard.rails = true → s.open_ = true → n < 32 → bitN s.hard.lock.toNat 3 = false →
    s.bit (.strCtrl n) F.strCtrl_ENABLE = true → F.strCtrl_RETRAIN.get (s.reg (.strCtrl n)) = 0 →
    exec (.straitDisable n) s = .next (s.onDev (fun s =>
      (s.plainWrite (.strCtrl n) (F.strCtrl_ENABLE.put (s.reg (.strCtrl n)) 0)).strDisable n)))
  ∧ (∀ (s : State) (n t at_ : Nat), s.hard.rails = true → n < 32 → (s.strait n).retrain = some t → t + 1000000 ≤ at_ →
    exec (.retrainTimeout n at_) s = .next (s.onDev (fun s => (s.reach at_).strDown n)))
  ∧ (∀ (s : State) (n at_ : Nat), s.hard.rails = true → n < 32 → s.strState n = 4 → s.fld .pwrStatus F.pwrStatus_STATE = 0 →
    exec (.keepaliveWake n at_) s = .next (s.onDev (fun s => ((s.reach at_).lineStart n).strOpens n)))

/-- A working strait: status flits, resends, faulty lanes, lost light, recalibration (R64, R493–R497, R507, R508, R510–R515). -/
def Obligations.StraitsWork : Prop :=
  (∀ (s : State) (n at_ : Nat) (p : StatusFlit), s.hard.rails = true → n < 32 → s.statusOn n = true → (s.strait n).measure = false → p.lane = none →
    exec (.statusFlit n p at_ 0) s = .next (s.onDev (fun s =>
      ((s.reach at_).setStrait n { (s.reach at_).strait n with echo := some (p.tTx, at_) }).each (p.vcs.zipIdx.take 4) (fun s v => s.statusVc n v.2 v.1))))
  ∧ (∀ (s : State) (n at_ : Nat), s.hard.rails = true → n < 32 → s.statusOn n = true →
    128 ≤ (s.strait n).got ∨ (s.strait n).gap = true ∨ (s.strait n).statusAt + 500 ≤ at_ →
    exec (.statusFlitDue n at_) s = .next (s.onDev (fun s => (s.reach at_).sendStatus n false)))
  ∧ (∀ (s : State) (n v at_ : Nat), s.hard.rails = true → n < 32 → v < 4 → s.carries n v = true →
    exec (.flitRetryTimeout n v at_) s = .next (s.onDev (fun s =>
      (s.reach at_).resend n v (fun u => decide (u.at_ + 2000 ≤ (s.reach at_).frm.now)))))
  ∧ (∀ (s : State) (n at_ : Nat), s.hard.rails = true → n < 32 →
    exec (.straitDown n at_) s = .next (s.onDev (fun s => (s.reach at_).strDown n)))
  ∧ (∀ (s : State) (n at_ : Nat), s.hard.rails = true → n < 32 → s.strState n ≠ 7 → s.strState n ≠ 0 →
    exec (.lightLoss n at_) s = .next (s.onDev (fun s => ((s.reach at_).strDown n).strEvent n)))
  ∧ (∀ (s : State) (n f w c at_ : Nat), s.hard.rails = true → n < 32 → f < 4 → w < 5 → s.strUp n = true → w ≠ 4 →
    exclOf (s.fld (.strLaneMap n) F.strLaneMap_RX_EXCL03) f = 4 →
    (s.strait n).laneAsked = none → (s.strait n).laneNext = [] →
    exec (.laneFault n f w c at_) s = .next (s.onDev (fun s =>
      ((s.reach at_).setStrait n { (s.reach at_).strait n with
        counter := c % 4096, laneAsked := some (f, w, (c + 1024) % 4096), laneOk := false }).sendStatus n false)))
  ∧ (∀ (s : State) (n f w c at_ : Nat), s.hard.rails = true → n < 32 → (s.strait n).laneAsked = some (f, w, c % 4096) → (s.strait n).laneOk = true →
    (s.strait n).laneTaken = none → (s.strait n).laneNext = [] →
    exec (.laneSwitch n c at_) s = .next (s.onDev (fun s =>
      ((((s.reach at_).setFld (.strLaneMap n) F.strLaneMap_RX_EXCL03 (putN (s.fld (.strLaneMap n) F.strLaneMap_RX_EXCL03) (3 * f) 3 w)).setStrait n
        { s.strait n with laneAsked := none, laneOk := false }).satFld (.strSpare n) F.strSpare_SWAPS 1).eventW 0x0501 (648 + n) none none f w)))
  ∧ (∀ (s : State) (n at_ : Nat), s.hard.rails = true → n < 32 → s.strUp n = true → (s.strait n).retrain = none →
    exec (.recalibration n at_) s = .next (s.onDev (fun s =>
      ((s.reach at_).wrapFld (.strSpare n) F.strSpare_RECALS 1).setStrait n { s.strait n with measure := true })))
  ∧ (∀ (s : State) (dst at_ : Nat) (t : E2eTx), s.hard.rails = true → sget dst s.net.tx = some t →
    exec (.postedWriteResend dst at_) s = .next (s.onDev (fun s =>
      ({ s.reach at_ with net := { s.net with tx := sput dst { t with
            unacked := t.unacked.map (fun w => if w.at_ + 20000 ≤ (s.reach at_).frm.now then { w with at_ := (s.reach at_).frm.now } else w) } s.net.tx } } : State).each
        (t.unacked.filter (fun w => decide (w.at_ + 20000 ≤ (s.reach at_).frm.now))) (fun s w => s.send dst 0 0 w.msg))))

/-- Frames of a ferry that arrive in order (R606–R616, R620–R623). -/
def Obligations.FerryFrames : Prop :=
  (∀ (s : State) (r : FRx) (payload : List Byte), s.frameInOrder r 1 payload →
    exec (.dataFrame r payload) s = .next (s.onDev (fun s =>
      ((s.frameTaken r).setFch r.ferry r.channel { (s.frameTaken r).fch r.ferry r.channel with
        buf := ((s.frameTaken r).fch r.ferry r.channel).buf ++ [⟨r.alive, r.end_, payload⟩] }).fryBuffered r.ferry r.channel)))
  ∧ (∀ (s : State) (r : FRx) (payload : List Byte) (q : FlashReq), s.frameInOrder r 6 payload →
    (((s.frameTaken r).fryFree r.ferry 63 (frameBlocks payload.length)).ferry r.ferry).reqs.find? (fun q => q.tag == r.tag % 4096) = some q →
    q.what.writes = false → r.status = 0 → r.arg % 2 ^ 42 = (q.off + q.come) % 2 ^ 42 → ({ q with got := q.got ++ [(r.arg % 2 ^ 42, payload)] } : FlashReq).complete = true →
    exec (.readData r payload) s = .next (s.onDev (fun s =>
      (((s.frameTaken r).fryFree r.ferry 63 (frameBlocks payload.length)).flashDone r.ferry q.tag).flashGot q.what
        ({ q with got := q.got ++ [(r.arg % 2 ^ 42, payload)] } : FlashReq).data)))
  ∧ (∀ (s : State) (r : FRx) (q : FlashReq), s.frameInOrder r 8 [] →
    (((s.frameTaken r).fryFree r.ferry 63 (frameBlocks 0)).ferry r.ferry).reqs.find? (fun q => q.tag == r.tag % 4096) = some q →
    q.what.writes = true →
    (r.status = 0 → exec (.writeAck r) s = .next (s.onDev (fun s =>
      (((s.frameTaken r).fryFree r.ferry 63 (frameBlocks 0)).flashDone r.ferry q.tag).flashWritten q.what)))
    ∧ (r.status ≠ 0 → exec (.writeAck r) s = .next (s.onDev (fun s =>
      (((s.frameTaken r).fryFree r.ferry 63 (frameBlocks 0)).flashDone r.ferry q.tag).flashWriteFails (flashOff r.ferry q.off) q.what))))
  ∧ (∀ (s : State) (r : FRx), s.frameHeard r →
    exec (.credit r) s = .next (s.onDev (fun s => ((s.reach r.at_).setFch r.ferry r.channel { s.fch r.ferry r.channel with
      peerFreed := r.arg % 2 ^ 32 }).fryPump r.ferry r.channel))
    ∧ exec (.ack r) s = .next (s.onDev (fun s => ((s.reach r.at_).fryRelease r.ferry r.channel (r.arg % 65536)).fryPump r.ferry r.channel))
    ∧ exec (.nak r) s = .next (s.onDev (fun s =>
        (((s.reach r.at_).fryRelease r.ferry r.channel (r.arg % 65536)).fryResend r.ferry r.channel (fun _ => true)).fryPump r.ferry r.channel)))
  ∧ (∀ (s : State) (r : FRx) (version : Nat) (nexts allots : List Nat), s.hard.rails = true → r.ferry < 4 → r.code = 0 → version / 16 = 3 →
    s.fryState r.ferry ∉ [0, 5, 6] →
    exec (.helloFrame r version nexts allots) s = .next (s.onDev (fun s =>
      ((s.reach r.at_).setFld (.fryStatus r.ferry) F.fryStatus_VERSION version).fryGreet r.ferry (r.arg % 2 == 1) nexts allots)))

/-- Timeouts, resets, lanes, training and channels of a ferry (R599, R605, R608, R613, R616, R622, R625). -/
def Obligations.FerryEvents : Prop :=
  (∀ (s : State) (f c at_ : Nat), s.hard.rails = true → f < 4 → c < 64 →
    exec (.frameResendTimeout f c at_) s = .next (s.onDev (fun s =>
      (s.reach at_).fryResend f c (fun x => decide (x.2 + 10000 ≤ (s.reach at_).frm.now)))))
  ∧ (∀ (s : State) (f tag at_ : Nat) (q : FlashReq), s.hard.rails = true → f < 4 →
    (s.ferry f).reqs.find? (fun q => q.tag == tag) = some q → q.at_ + 1000 * s.fld (.fryCtrl f) F.fryCtrl_FLASH_TIMEOUT ≤ at_ →
    (q.what.writes = true → exec (.flashTimeout f tag at_) s = .next (s.onDev (fun s =>
      ((((s.reach at_).satFld (.fryFlash f) F.fryFlash_TIMEOUTS 1).eventW 0x0504 (680 + f) none none tag q.off).flashDone f tag).flashWriteFails
        (flashOff f q.off) q.what)))
    ∧ (q.what.writes = false → exec (.flashTimeout f tag at_) s = .next (s.onDev (fun s =>
      ((((s.reach at_).satFld (.fryFlash f) F.fryFlash_TIMEOUTS 1).eventW 0x0504 (680 + f) none none tag q.off).flashDone f tag).flashReadFails
        q.what false))))
  ∧ (∀ (s : State) (f n at_ : Nat), s.hard.rails = true → f < 4 →
    exec (.ferryReset f n at_) s = .next (s.onDev (fun s =>
      ((((((s.reach at_).wrapFld (.fryStatus f) F.fryStatus_EPOCH 1).satFld (.fryDiscard f) F.fryDiscard_DISCARDED n).satFld (.fryDiscard f)
        F.fryDiscard_RESETS 1).setFld (.fryStatus f) F.fryStatus_LANES 0).setFryState f 5).flashAgain f)))
  ∧ (∀ (s : State) (f at_ : Nat), s.hard.rails = true → f < 4 → s.fryUp f = true → s.fld (.fryStatus f) F.fryStatus_LANES = 8 →
    exec (.ferryLaneLoss f at_) s = .next (s.onDev (fun s => (((s.reach at_).setFld (.fryStatus f) F.fryStatus_LANES 4).setFryState f 3).fryLineStart f)))
  ∧ (∀ (s : State) (f lanes at_ : Nat), s.hard.rails = true → f < 4 → s.fld .devStatus F.devStatus_STAGE ∈ [5, 6] →
    s.bit (.fryCtrl f) F.fryCtrl_ENABLE = true → s.fryUp f = false → s.bit (.devShell (ferryShell f)) F.devShell_TYPE_MISMATCH = false →
    lanes = 8 ∨ lanes = 4 →
    exec (.ferryTraining f lanes at_) s = .next (s.onDev (fun s =>
      (((((s.reach at_).setFerry f { s.ferry f with hello := false }).fryLineStart f).setFld (.fryStatus f) F.fryStatus_LANES lanes).setFryState f 1).sendFryHello f)))
  ∧ (∀ (s : State) (f c : Nat) (v : Word), s.hard.rails = true → s.open_ = true → f < 4 → c < 64 →
    s.bit (.fryChCfg f c) F.fryChCfg_ENABLE = false → F.fryChCfg_ENABLE.get v = 1 →
    exec (.channelEnable f c v) s = .next (s.onDev (fun s => (s.plainWrite (.fryChCfg f c) (F.fryChCfg_ENABLE.put v 0)).channelEnable f c)))


/-- Doorbells of a context in service, and the end of a moderation time (R584–R588, R590). -/
def Obligations.Doorbells : Prop :=
  (∀ (s : State) (fn page v at_ c : Nat) (x : Ctx), s.hard.rails = true → s.pageCtx fn page = some c → s.ctx? c = some x → s.doorbellsOn c = true →
    (v < 2 ^ x.sqLog2 →
      exec (.sqTail fn page v at_) s = .next (s.onDev (fun s => ((s.reach at_).setCtx (x.expose v (s.reach at_).frm.now)).doorbellWake)))
    ∧ (2 ^ x.sqLog2 ≤ v → exec (.sqTail fn page v at_) s = .next (s.onDev (fun s => (s.reach at_).doorbellIgnored c v)))
    ∧ (v < 2 ^ x.cqLog2 →
      exec (.cqHead fn page v at_) s = .next (s.onDev (fun s => ((s.reach at_).setCtx { x with
        cqHead := v
        unread := (s.fld (.ctxStatus c) F.ctxStatus_CQ_TAIL + 2 ^ x.cqLog2 - v) % 2 ^ x.cqLog2 }).doorbellWake))))
  ∧ (∀ (s : State) (fn page at_ c : Nat), s.hard.rails = true → s.pageCtx fn page = some c →
    exec (.doorbellReset fn page 1 at_) s = .next (s.onDev (fun s => (s.reach at_).contextReset c)))
  ∧ (∀ (s : State) (fn vec at_ : Nat), s.hard.rails = true → 0 < (sgetD (vecKey fn vec) ({} : Moder) s.evt.moder).pend →
    (sgetD (vecKey fn vec) ({} : Moder) s.evt.moder).since + 1000 * s.modTimer fn vec ≤ at_ → s.modHeld fn vec = false →
    exec (.moderationTimer fn vec at_) s = .next (s.onDev (fun s => (s.reach at_).flushVector fn vec)))

/-- Contexts and partitions go into and out of service (R566–R571, R576, R592). -/
def Obligations.ContextsAndPartitions : Prop :=
  (∀ (s : State) (c : Nat) (v : Word), s.hard.rails = true → s.open_ = true → c < 8192 → s.bit (.ctxCtrl c) F.ctxCtrl_ENABLE = false →
    F.ctxCtrl_ENABLE.get v = 1 →
    exec (.contextEnable c v) s = .next (s.onDev (fun s =>
      ((s.plainWrite (.ctxCtrl c) (F.ctxCtrl_ENABLE.put v 0)).setFld (.ctxCtrl c) F.ctxCtrl_ENABLE 1).enableCheck c)))
  ∧ (∀ (s : State) (c : Nat), s.hard.rails = true → s.open_ = true → c < 8192 → s.bit (.ctxCtrl c) F.ctxCtrl_ENABLE = true →
    exec (.contextReset c) s = .next (s.onDev (fun s => s.contextReset c)))
  ∧ (∀ (s : State) (c : Nat), s.hard.rails = true → c < 8192 → (s.ctx c).resetStep = 2 →
    (s.host.flr = false → exec (.contextResetDone c) s = .next (s.onDev (fun s => s.contextOut c)))
    ∧ (s.host.flr = true → sdel c s.ctxs = [] → exec (.contextResetDone c) s = .next (s.onDev (fun s => (s.contextOut c).flrEnd))))
  ∧ (∀ (s : State) (c : Nat) (x : Ctx), s.hard.rails = true → s.open_ = true → c < 8192 → s.bit (.ctxCtrl c) F.ctxCtrl_ENABLE = true →
    F.ctxCtrl_RESET.get (s.reg (.ctxCtrl c)) = 0 → s.ctx? c = some x → s.segErr c = 0 →
    exec (.segReload c) s = .next (s.onDev (fun s => s.setCtx { x with staged := some ((s.readSegs c).map Prod.fst) })))
  ∧ (∀ (s : State) (p : Nat) (v : Word), s.hard.rails = true → s.open_ = true → p < 64 → bitN s.hard.lock.toNat 6 = false →
    s.bit (.hstPartCtrl p) F.hstPartCtrl_ACTIVE = false →
    exec (.partitionSetUp p v) s = .next (s.onDev (fun s =>
      (({ s.setFld (.hstPartCtrl p) F.hstPartCtrl_ENABLE (F.hstPartCtrl_ENABLE.get v) with
        host := { s.host with setUps := insertNew p s.host.setUps } } : State).setFld (.hstPartCtrl p) F.hstPartCtrl_VIEW
        (F.hstPartCtrl_VIEW.get v)).setFld (.hstPartCtrl p) F.hstPartCtrl_PRIMARY (F.hstPartCtrl_PRIMARY.get v))))
  ∧ (∀ (s : State) (p : Nat), s.hard.rails = true → s.open_ = true → p < 64 → bitN s.hard.lock.toNat 6 = false →
    s.bit (.hstPartCtrl p) F.hstPartCtrl_ACTIVE = true →
    (s.partInUse p = false → exec (.partitionTearDown p) s = .next (s.onDev (fun s =>
      (s.setFld (.hstPartCtrl p) F.hstPartCtrl_ENABLE 0).setFld (.hstPartCtrl p) F.hstPartCtrl_PRIMARY (s.fld (.hstPartCtrl p) F.hstPartCtrl_PRIMARY))))
    ∧ (s.partInUse p = true → exec (.partitionTearDown p) s = .next (s.onDev (fun s => s.setFld (.hstPartCtrl p) F.hstPartCtrl_ERR 4))))

/-- The host link, its functions, translations and window into memory (R561, R562, R564, R580, R594). -/
def Obligations.HostEvents : Prop :=
  (∀ (s : State) (fn at_ : Nat), s.hard.rails = true → fn ≠ 0 → fn ≤ 255 →
    exec (.flrVf fn at_) s = .next (s.onDev (fun s =>
      ((s.reach at_).each ((s.ctxs.map Prod.fst).filter (fun c => s.fnOf c == fn)) State.contextReset).msixReset fn)))
  ∧ (∀ (s : State) (at_ : Nat), s.hard.rails = true → s.ctxs = [] →
    exec (.flrPf at_) s = .next (s.onDev (fun s => (s.reach at_).flrEnd)))
  ∧ (∀ (s : State) (at_ : Nat), s.hard.rails = true →
    ((s.reach at_).each (s.ctxs.map Prod.fst) State.contextReset).ctxs ≠ [] →
    exec (.flrPf at_) s = .next (s.onDev (fun s =>
      let t := (s.reach at_).each (s.ctxs.map Prod.fst) State.contextReset
      { t with host := { t.host with flr := true } })))
  ∧ (∀ (s : State) (fn pasid page pages : Nat), s.hard.rails = true →
    exec (.atsInvalidation fn pasid page pages) s = .next (s.onDev (fun s =>
      ({ s with host := { s.host with
        epoch := s.host.epoch + 1
        atc := s.host.atc.filter (fun e => !(e.1 == fn && e.2.1 == pasid && decide (page ≤ e.2.2.1) && decide (e.2.2.1 < page + pages))) } } : State).wrapFld
        .hstAts F.hstAts_INVALIDATIONS 1)))
  ∧ (∀ (s : State) (at_ : Nat), s.hard.rails = true → s.ctxs ≠ [] → s.host.downAt = none →
    exec (.hostLinkDown at_) s = .next (s.onDev (fun s =>
      (({ s.reach at_ with host := { s.host with downAt := some (s.reach at_).frm.now, ide := [] } } : State).setReg .hstLink 0).relevel 684)))
  ∧ (∀ (s : State) (rate width : Nat) (flit rev vf : Bool) (n at_ : Nat), s.hard.rails = true → 1 ≤ rate → rate ≤ 6 → s.host.downAt = none →
    exec (.hostLinkUp rate width flit rev vf n at_) s = .next (s.onDev (fun s =>
      ({ ((((s.reach at_).setFld .hstLink F.hstLink_RATE rate).setFld .hstLink F.hstLink_WIDTH width).setFld .hstLink F.hstLink_FLIT
          (if flit then 1 else 0)).setFld .hstLink F.hstLink_REVERSED (if rev then 1 else 0) with
        host := { s.host with vfEnable := vf, numVfs := min n 255, downAt := none } } : State).relevel 684)))
  ∧ (∀ (s : State) (ctx slot : Nat) (o : Op), s.hard.rails = true → s.hostUser ctx slot = some o →
    exec (.hostAccessFailure ctx slot) s = .next (s.onDev (fun s => s.hostFails o slot)))
  ∧ (∀ (s : State) (off n k : Nat), s.hard.rails = true → s.bar4 off n = some k →
    exec (.bar4Read off n) s = .next (s.onDev (fun s => (s.takeTokens 64 k n).emit (.bar4Data off (s.kRd k n)))))
  ∧ (∀ (s : State) (off n : Nat), s.hard.rails = true → s.bar4 off n = none →
    exec (.bar4Read off n) s = .next (s.onDev (fun s => (s.satFld .hstErr F.hstErr_BAR4_MISS 1).emit (.bar4Data off (List.replicate n 0)))))
  ∧ (∀ (s : State) (off k : Nat) (bs : List Byte), s.hard.rails = true → s.bar4 off bs.length = some k →
    exec (.bar4Write off bs) s = .next (s.onDev (fun s => (s.takeTokens 64 k bs.length).store k bs)))

/-- A write of device memory by the host: the bytes are there, no other byte of memory changes, and registers of the frame, contexts, rings and operations stay (R564). The window's bytes are memory that no fenced channel serves. -/
def Obligations.WindowWriteFrame : Prop :=
  ∀ (s : State) (off k : Nat) (bs : List Byte), s.hard.rails = true → s.bar4 off bs.length = some k → s.hbm.fenced = [] →
    ∃ t, exec (.bar4Write off bs) s = .next t
      ∧ (∀ i, i < bs.length → memRd t.mem (k + i) = nthD bs i 0)
      ∧ (∀ j, j < k ∨ k + bs.length ≤ j → memRd t.mem j = memRd s.mem j)
      ∧ t.hard = s.hard ∧ t.pending = s.pending ∧ t.frm = s.frm ∧ t.ctxs = s.ctxs ∧ t.vus = s.vus ∧ t.tbl = s.tbl ∧ t.ferries = s.ferries

/-- SPDM requests in their order, each answered, and IDE keys inside a session (R595, R596). The order, the codes and the answers' bytes are the model's (log entry 4). -/
def Obligations.Attestation : Prop :=
  (∀ (s : State) (req : List Byte), s.hard.rails = true → s.doe = true →
    (∃ t a, exec (.spdmVersion req) s = .next t ∧ t.host.spdm = 1 ∧ t.outbox = s.outbox ++ [.spdm 0x04 a])
    ∧ (s.host.spdm = 1 → ∃ t a, exec (.spdmCapabilities req) s = .next t ∧ t.host.spdm = 2 ∧ t.outbox = s.outbox ++ [.spdm 0x61 a])
    ∧ (s.host.spdm = 2 → ∃ t a, exec (.spdmAlgorithms req) s = .next t ∧ t.host.spdm = 3 ∧ t.outbox = s.outbox ++ [.spdm 0x63 a])
    ∧ (3 ≤ s.host.spdm → ∃ t a, exec (.spdmDigests req) s = .next t ∧ t.host.spdm = s.host.spdm ∧ t.outbox = s.outbox ++ [.spdm 0x01 a])
    ∧ (3 ≤ s.host.spdm → ∃ t a, exec (.spdmCertificate req) s = .next t ∧ t.host.spdm = s.host.spdm ∧ t.outbox = s.outbox ++ [.spdm 0x02 a])
    ∧ (3 ≤ s.host.spdm → ∃ t a, exec (.spdmChallenge req) s = .next t ∧ t.host.spdm = s.host.spdm ∧ t.outbox = s.outbox ++ [.spdm 0x03 a])
    ∧ (3 ≤ s.host.spdm → ∀ i, i ≤ 6 → i ≠ 0 →
        ∃ t a, exec (.spdmMeasurements i req) s = .next t ∧ t.host.spdm = s.host.spdm ∧ t.outbox = s.outbox ++ [.spdm 0x60 (s.measurement i ++ a)])
    ∧ (s.host.spdm = 3 → ∃ t a, exec (.spdmKeyExchange req) s = .next t ∧ t.host.spdm = 4 ∧ t.outbox = s.outbox ++ [.spdm 0x64 a])
    ∧ (s.host.spdm = 4 → ∃ t a, exec (.spdmFinish req) s = .next t ∧ t.host.spdm = 5 ∧ t.outbox = s.outbox ++ [.spdm 0x65 a])
    ∧ (s.host.spdm = 5 → ∃ t a, exec (.spdmEndSession req) s = .next t ∧ t.host.spdm = 3 ∧ t.outbox = s.outbox ++ [.spdm 0x6C a]))
  ∧ (∀ (s : State) (stream : Nat), s.hard.rails = true → s.doe = true → s.host.spdm = 5 → stream ≤ 8 →
    exec (.ideKeys stream true) s = .next (s.onDev (fun s =>
      ({ s with host := { s.host with ide := insertNew stream s.host.ide } } : State).setFld .hstLink F.hstLink_IDE 1)))


/-- Writes of the set-up registers by software, the lock, and registers of a virtual function (R590, R725–R731, R735, R737). -/
def Obligations.RegisterCommands : Prop :=
  (∀ (s : State) (v : Word), s.hard.rails = true →
    exec (.devLock v) s = .next { s with hard := { s.hard with lock := s.hard.lock ||| (v &&& 0xFF#64) } })
  ∧ (∀ (s : State) (a x : Nat) (r : Reg), msixAddr a = false → imageAddr a = false → a % 8 = 0 → Reg.ofAddr a = some r → x < 2 ^ 64 →
    exec (.registerWrite a 8 x) s = .next (s.regWrite r (BitVec.ofNat 64 x)))
  ∧ (∀ (s : State) (a x : Nat), s.hard.rails = true → msixAddr a = false → imageAddr a = false → a % 8 = 0 → Reg.ofAddr a = none →
    exec (.registerWrite a 8 x) s = .next (s.onDev (fun s => s.satFld .devAccess F.devAccess_UNMAPPED 1)))
  ∧ (∀ (s : State) (a x : Nat), s.hard.rails = true → a % 8 ≠ 0 →
    exec (.registerWrite a 8 x) s = .next (s.onDev (fun s => s.satFld .devAccess F.devAccess_BAD_SIZE 1)))
  ∧ (∀ (s : State) (fn vec x : Nat), s.hard.rails = true → s.open_ = true → fn ≠ 0 → fn ≤ 255 → s.host.vfEnable = true → fn ≤ s.host.numVfs → vec < 8 →
    exec (.vfBar0Write fn (0x200 + 8 * vec) 8 x) s = .next (s.onDev (fun s => s.plainWrite (.vfMsixMod fn vec) (BitVec.ofNat 64 x))))

/-- Interrupt delivery, its acknowledgement and the hold timer of a control processor (R710–R714). -/
def Obligations.InterruptCommands : Prop :=
  (∀ (s : State) (c : Nat) (p : Nat × Nat) (rest : List (Nat × Nat)), s.hard.rails = true → s.open_ = true → c < 4 →
    nthD s.evt.cpStacks c [] = p :: rest →
    exec (.irqCpEoi c) s = .next (s.onDev (fun s =>
      (({ s with evt := { s.evt with cpStacks := s.evt.cpStacks.set c rest } } : State).cpRegs c).resample p.2)))
  ∧ (∀ (s : State) (v : Word), s.hard.rails = true → s.open_ = true →
    s.bit (.irqVec (F.irqHostAck_VECTOR.get v)) F.irqVec_IN_SERVICE = true →
    exec (.irqHostAck v) s = .next (s.onDev (fun s => hostAck (F.irqHostAck_VECTOR.get v) s)))
  ∧ (∀ (s : State) (c at_ : Nat), s.hard.rails = true → c < 4 →
    exec (.irqDelivery c at_) s = .next (s.onDev (fun s => (s.reach at_).cpTry c))
    ∧ exec (.irqDelivery 4 at_) s = .next (s.onDev (fun s => (s.reach at_).hostTry)))
  ∧ (∀ (s : State) (c at_ t0 b : Nat), s.hard.rails = true → c < 4 → nthD s.evt.hold c none = some t0 →
    t0 + 1000 * s.fld (.irqCp c) F.irqCp_TIMER ≤ at_ →
    ((s.reach at_).holdEnd c).cpBest c = some b →
    exec (.cpHoldTimer c at_) s = .next (s.onDev (fun s => ((s.reach at_).holdEnd c).cpDeliver c b)))

/-- The event ring, coalescing, lost events and snapshots of the counters (R702–R707, R723). -/
def Obligations.EventCommands : Prop :=
  (∀ (s : State) (at_ : Nat) (e : Event) (rest : List Event), s.hard.rails = true → s.evt.pend = e :: rest →
    s.bit .evtRingCtrl F.evtRingCtrl_ENABLE = true → s.evtFull = false → spaceOf s.evtBase ≠ 2 →
    exec (.eventRecordWrite true at_) s = .next (s.onDev (fun s => (s.reach at_).writeRecord e rest)))
  ∧ (∀ (s : State) (typ src d : Nat), s.hard.rails = true → src < 768 →
    exec (.eventCoalescing typ src d) s = .next (s.onDev (fun s => s.eventW typ src none none d 0)))
  ∧ (∀ (s : State) (c : Coalesce), s.hard.rails = true → s.evt.coal = some c → s.evt.pend = [] →
    exec .eventsLost s = .next (s.onDev (fun s => s.endCoalescing c)))
  ∧ (∀ (s : State) (v : Word), s.hard.rails = true → s.open_ = true → F.evtRingHead_HEAD.get v < s.evtSize →
    exec (.evtRingHead v) s = .next (s.onDev (fun s =>
      ({ s.setFld .evtRingHead F.evtRingHead_HEAD (F.evtRingHead_HEAD.get v) with evt := { s.evt with
        unread := (s.fld .evtRingTail F.evtRingTail_TAIL + s.evtSize - F.evtRingHead_HEAD.get v) % s.evtSize } } : State).evtLevels)))
  ∧ (∀ (s : State) (v : Word), s.hard.rails = true → s.open_ = true →
    exec (.eventRingEnable v) s = .next (s.onDev (fun s =>
      evtCtrlWrite (F.evtRingCtrl_ENABLE.get v) (F.evtRingCtrl_MODE.get v) (F.evtRingCtrl_LOG2.get v) s)))
  ∧ (∀ s : State, s.hard.rails = true → s.evt.snap = true →
    ∃ t, exec .telemetrySnapshot s = .next t ∧ t.evt.snap = false ∧ t.evt.telem = true ∧ t.fld .evtSnapFrame F.evtSnapFrame_FRAME = s.frame
      ∧ ∀ i, i < 32 → t.fld (.evtPerfSnap i) F.evtPerfSnap_COUNT = s.fld (.evtPerfCnt i) F.evtPerfCnt_COUNT)

/-- Power states and dies that overheat (R427, R453, R454). -/
def Obligations.PowerCommands : Prop :=
  (∀ (s : State) (v : Word), s.hard.rails = true → s.open_ = true →
    exec (.sStateRequest v) s = .next (s.onDev (fun s => s.pwrCtrlWrite v)))
  ∧ (∀ s : State, s.hard.rails = true → s.open_ = true →
    exec .sStateWake s = .next (s.onDev (fun s => s.pwrCtrlWrite (F.pwrCtrl_REQ.put (s.reg .pwrCtrl) 0))))
  ∧ (∀ (s : State) (at_ st : Nat), s.hard.rails = true → s.sPending = true → s.bit .frmCtrl F.frmCtrl_ENABLE = false → s.idleNow = true →
    s.fld .pwrCtrl F.pwrCtrl_REQ = st → (List.range 32).filter s.strUp = [] → (List.range 4).filter s.fryUp = [] →
    exec (.sStateEntry at_) s = .next (s.onDev (fun s =>
      (((s.reach at_).setFld .pwrStatus F.pwrStatus_STATE st).setFld .pwrStatus F.pwrStatus_BUSY 0).eventW 0x0204 756 none none st 0)))
  ∧ (∀ (s : State) (d t at_ : Nat), s.hard.rails = true → d < 8 → 840 ≤ t → d ∉ s.pwr.stopped →
    exec (.dieOvertemp d t at_) s = .next (s.onDev (fun s =>
      ({ (s.reach at_).setFld (.pwrDie d) F.pwrDie_TEMP (min t 4095) with pwr := { s.pwr with stopped := insertNew d s.pwr.stopped } } : State).dieFault d)))

/-- Memory maintenance: scrubbing, the verdict of the code, bounded slots, uncorrectable bursts, the error window, map-outs (R401–R410, R449). -/
def Obligations.MemoryCommands : Prop :=
  (∀ (s : State) (stack at_ : Nat), s.hard.rails = true → stack < 16 →
    exec (.scrub stack [] at_) s = .next (s.onDev (fun s => (s.reach at_).satFld .memScrubStatus F.memScrubStatus_PASSES 1)))
  ∧ (∀ (s : State) (stack b at_ : Nat) (l : List Nat), s.hard.rails = true → stack < 16 → 64 * b < 2 ^ 44 → s.burstCh b / 32 = stack →
    (l.eraseDups.length = 1 → exec (.scrub stack [⟨b, l, none⟩] at_) s = .next (s.onDev (fun s =>
      ((s.reach at_).corrected b).satFld .memScrubStatus F.memScrubStatus_PASSES 1)))
    ∧ (2 ≤ l.eraseDups.length → exec (.scrub stack [⟨b, l, none⟩] at_) s = .next (s.onDev (fun s =>
      ((s.reach at_).uncorrectable b).satFld .memScrubStatus F.memScrubStatus_PASSES 1))))
  ∧ (∀ (s : State) (src at_ : Nat), s.hard.rails = true → s.hbm.slots.find? (fun x => x.1 == 0 && x.2.1 == src) = none →
    exec (.boundedSlot 0 src at_) s = .next (s.onDev (fun s =>
      { (s.reach at_).satFld .memScrubStatus F.memScrubStatus_STARVED 1 with
        hbm := { s.hbm with slots := s.hbm.slots ++ [(0, src, (s.reach at_).frm.now, 1)] } })))
  ∧ (∀ (s : State) (e : BurstErr) (p at_ : Nat), s.hard.rails = true → p < 64 →
    (s.codeFinds e = .uncorrectable →
      exec (.uncorrectableBurst e none at_) s = .next (s.onDev (fun s => (s.reach at_).uncorrectable e.burst))
      ∧ exec (.uncorrectableBurst e (some p) at_) s = .next (s.onDev (fun s => (s.reach at_).frameFault p e.burst)))
    ∧ (s.codeFinds e = .corrected →
      exec (.uncorrectableBurst e none at_) s = .next (s.onDev (fun s => (s.reach at_).corrected e.burst))
      ∧ exec (.uncorrectableBurst e (some p) at_) s = .next (s.onDev (fun s => (s.reach at_).corrected e.burst))))
  ∧ (∀ (s : State) (c th : Nat), s.hard.rails = true → c < 512 → s.fld .memCtrl F.memCtrl_CE_THRESH = th → th ≠ 0 → th < sgetD c 0 s.hbm.ceCount →
    exec (.ceWindowEnd c) s = .next { s with hbm := { s.hbm with
      ceCount := sdel c s.hbm.ceCount, cand := insertNew (c, false) s.hbm.cand } })
  ∧ (∀ (s : State) (c lines at_ : Nat), s.hard.rails = true → c < 512 → s.hbm.copy = none → (c, false) ∈ s.hbm.cand → s.mapoutOk (c / 64) = true →
    lines < copyLines →
    exec (.plannedMapout c lines at_) s = .next (s.onDev (fun s =>
      ({ ((((s.reach at_).setFld .memMapout F.memMapout_CHANNEL c).setFld .memMapout F.memMapout_ACTIVE 1).setFld .memMapout
          F.memMapout_IMMEDIATE 0).setFld .memMapout F.memMapout_LINES_LEFT (copyLines - lines) with
        hbm := { s.hbm with copy := some (c, lines), ready := none } } : State).each (List.range 8) State.dieStatus)))
  ∧ (∀ (s : State) (c at_ : Nat), s.hard.rails = true → c < 512 → (c, true) ∈ s.hbm.cand → s.mapoutOk (c / 64) = true →
    exec (.immediateMapout c at_) s = .next (s.onDev (fun s =>
      ((((s.reach at_).interruptAll 8).mapOutNow c).each (List.range 8) State.dieStatus).reefStore)))

/-- Faults of cores, regions, dies, processors and packages, and the end of a recovery (R15, R18, R627–R639). -/
def Obligations.FaultCommands : Prop :=
  (∀ (s : State) (pid l at_ : Nat) (bad : List Nat), s.hard.rails = true → pid < 32768 → pid % 32 ≤ 16 → s.logicalOf pid = some l →
    pid ∉ s.boot.coresDue.map Prod.fst → l ∉ s.absent → s.lostIn (pid / 32) < 2 →
    exec (.coreFault pid bad at_) s = .next (s.onDev (fun s => (s.reach at_).coreLost pid l bad)))
  ∧ (∀ (s : State) (r at_ : Nat), s.hard.rails = true → r < 128 → r ∉ s.boot.withheld →
    exec (.regionFault r at_) s = .next (s.onDev (fun s => (s.reach at_).regionFault r)))
  ∧ (∀ (s : State) (d at_ : Nat), s.hard.rails = true → d < 8 →
    exec (.dieFault d at_) s = .next (s.onDev (fun s => (s.reach at_).dieFault d)))
  ∧ (∀ (s : State) (p took at_ : Nat), s.hard.rails = true → p < 64 → (s.part p).recovering = true →
    exec (.recoveryEnd p took at_) s = .next (s.onDev (fun s =>
      ((s.reach at_).modPart p (fun x => { x with recovering := false })).wrapFld .rasUnavail F.rasUnavail_NS took)))
  ∧ (∀ (s : State) (c at_ : Nat), s.hard.rails = true → c < 4 →
    exec (.cpWatchdog c at_) s = .next (s.onDev (fun s => ((s.reach at_).cpTakeover c ((c + 1) % 4)).eventW 0x0705 757 none none c ((c + 1) % 4))))
  ∧ (∀ (s : State) (x at_ : Nat), s.hard.rails = true → x < 4096 →
    exec (.packageLost x true at_) s = .next (s.onDev (fun s => (s.reach at_).declareLost x)))

/-- The shoal's set-up, alias and rebuilds (R641, R648, R649, R656, R657). -/
def Obligations.ShoalCommands : Prop :=
  (∀ (s : State) (v : Word), s.hard.rails = true → s.open_ = true → bitN s.hard.lock.toNat 4 = false →
    s.bit .rasShoalCtrl F.rasShoalCtrl_ENABLE = false → F.rasShoalCtrl_ENABLE.get v = 1 → F.rasShoalCtrl_INIT.get v = 0 →
    exec (.shoalEnable v) s = .next (s.onDev (fun s => (s.plainWrite .rasShoalCtrl (F.rasShoalCtrl_ENABLE.put v 0)).shoalEnable)))
  ∧ (∀ s : State, s.hard.rails = true → s.open_ = true → bitN s.hard.lock.toNat 4 = false → s.bit .rasShoalCtrl F.rasShoalCtrl_ENABLE = true →
    exec .shoalInit s = .next (s.onDev (fun s =>
      ({ s.shoalState 1 with shoal := { (s.shoalState 1).shoal with initNext := some 0 } } : State).initPass)))
  ∧ (∀ (s : State) (k n : Nat), s.hard.rails = true → s.bit .rasShoalCtrl F.rasShoalCtrl_ENABLE = true →
    s.fld .rasShoalStatus F.rasShoalStatus_STATE ∉ [0, 3, 5] → s.shoalRanges.any (fun r => overlap k n r.1 r.2) = true →
    exec (.protectedWriteStale k n) s = .next (s.onDev (fun s => s.shoalState 3)))
  ∧ (∀ (s : State) (v : Word), s.hard.rails = true → s.open_ = true → F.rasAlias_VALID.get v = 0 →
    exec (.rasAlias v) s = .next (s.onDev (fun s => s.setReg .rasAlias (BitVec.ofNat 64 (F.rasAlias_ID.get v)))))
  ∧ (∀ (s : State) (first n me : Nat), s.hard.rails = true → s.shRank = some me → s.bit .rasAlias F.rasAlias_VALID = true →
    exec (.standbyRebuild first n) s = .next (s.onDev (fun s => s.rebuildSlots me first n)))
  ∧ (∀ (s : State) (first n me r : Nat), s.hard.rails = true → s.bit .rasShoalCtrl F.rasShoalCtrl_MODE = true →
    s.bit .rasShoalStandby F.rasShoalStandby_VALID = false → s.shRank = some me → s.bit .rasAlias F.rasAlias_VALID = false →
    s.fld .rasShoalStatus F.rasShoalStatus_STATE = 4 → findIdxN (· == s.fld .rasShoalStatus F.rasShoalStatus_LOST) 0 s.members = some r →
    first + n < (s.rebuildLines me r first n).fld .rasShoalLines F.rasShoalLines_LINES →
    exec (.spreadRebuild first n) s = .next (s.onDev (fun s => s.rebuildLines me r first n)))


/-- The state after reset: the canonical memory lists nothing, no command waits, every register holds the reset value of its table, no address is held, and the fuses and locks read 0. That bring-up stands at its beginning with good rails is the model's choice (log entry 14). -/
def Obligations.ResetState : Prop :=
  State.reset.memOk = true ∧ State.reset.hardOk = true ∧ State.reset.pending = [] ∧ State.reset.mem = []
  ∧ (∀ r : Reg, State.reset.reg r = r.reset)
  ∧ State.reset.fld .frmPeriod F.frmPeriod_PERIOD = 50000 ∧ State.reset.bit .frmCtrl F.frmCtrl_ENABLE = false
  ∧ State.reset.bit .frmCtrl F.frmCtrl_MASTER = true ∧ State.reset.hard.lock = 0 ∧ State.reset.hard.cswValid = false
  ∧ State.reset.ctxs = [] ∧ State.reset.ops = [] ∧ State.reset.outbox = []

/-- Every step keeps what outlives a reset within its bounds: the fuse counter at most 64, a held address a position and a chassis below 64, reserved lock bits 0 (R680, R687, R737). -/
def Obligations.HardOkKept : Prop :=
  ∀ (s t : State), s.hardOk = true → step s = .next t → t.hardOk = true

/-- COMMIT_SVN raises the fuse counter to the security version of the running image, and no step ever lowers it (R680). -/
def Obligations.FusesNeverFall : Prop :=
  (∀ s : State, s.hard.rails = true → bitN s.hard.lock.toNat 5 = false → 3 ≤ s.stage → s.stage ≠ 7 → s.boot.fwSvn ≤ 64 →
    ∃ t, exec .commitSvn s = .next t ∧ t.hard.svn = max s.hard.svn s.boot.fwSvn)
  ∧ ∀ (s t : State), step s = .next t → s.hard.svn ≤ t.hard.svn

/-- DEV_LOCK clears only at a package reset or at power-off: every other command keeps each bit that is set, a die reset, an FLR, a context reset and an S state among them; and so does a write of DEV_RESET without PACKAGE; a package reset, a loss of power and its return clear it (R738). -/
def Obligations.LocksStay : Prop :=
  (∀ (s t : State) (c : Instr) (q : List Instr), mayRestart c = false → step { s with pending := c :: q } = .next t →
    ∀ i, s.hard.lock.getLsbD i = true → t.hard.lock.getLsbD i = true)
  ∧ (∀ (s : State) (v : Word), F.devReset_PACKAGE.get v ≠ 1 → (s.regWrite .devReset v).hard.lock = s.hard.lock)
  ∧ (∀ s : State, s.hard.rails = true → ∃ t, exec .packageReset s = .next t ∧ t.hard.lock = 0)
  ∧ (∀ (s : State) (v : Bool), ∃ t, exec (.railFault v) s = .next t ∧ t.hard.lock = 0)
  ∧ ∀ s : State, s.hard.rails = false → ∃ t, exec .powerGood s = .next t ∧ t.hard.lock = 0

/-- A package keeps its address through every step until the supply of the causeway goes off; without an address it originates no cell, no strait can train, and a write of FRM_CTRL keeps ENABLE (R688). -/
def Obligations.AddressKept : Prop :=
  (∀ (s t : State), s.hard.cswValid = true → step s = .next t →
    (t.hard.cswValid = true ∧ t.hard.cswPos = s.hard.cswPos ∧ t.hard.cswChassis = s.hard.cswChassis) ∨ t.hard.vcsw = false)
  ∧ (∀ (s : State) (typ : Nat) (payload : List Byte), s.hard.cswValid = false → (s.sendCell typ payload).outbox = s.outbox)
  ∧ (∀ (s : State) (n txDown rxDown : Nat), s.hard.cswValid = false → s.mayTrain n txDown rxDown = false)
  ∧ (∀ (s : State) (v : Word), s.hard.cswValid = false → (s.regWrite .frmCtrl v).bit .frmCtrl F.frmCtrl_ENABLE = s.bit .frmCtrl F.frmCtrl_ENABLE)
  ∧ ∀ (s t : State), s.hard.cswValid = false → exec .framesEnable s = .next t → t.bit .frmCtrl F.frmCtrl_ENABLE = s.bit .frmCtrl F.frmCtrl_ENABLE

/-- Every command answers a next state and leaves the rest of the queue as it was; none stops the block (log entries 1 and 7). -/
def Obligations.CommandsKeepQueue : Prop :=
  ∀ (c : Instr) (s : State), ∃ t, exec c s = .next t ∧ t.pending = s.pending

/-- A write of 8 bytes to a register that a lock covers changes the register in no field and is counted in LOCKED; only INIT of RAS_SHOAL_CTRL still acts (R737). -/
def Obligations.LockedRegisters : Prop :=
  (∀ (s : State) (a x b : Nat) (r : Reg), s.hard.rails = true → msixAddr a = false → imageAddr a = false → a % 8 = 0 → Reg.ofAddr a = some r →
    s.takes r = true → r.lockBit = some b → bitN s.hard.lock.toNat b = true → r ≠ .rasShoalCtrl →
    exec (.registerWrite a 8 x) s = .next (s.onDev (fun s => s.satFld .devAccess F.devAccess_LOCKED 1)))
  ∧ ∀ (s : State) (n : Nat), (s.satFld .devAccess F.devAccess_LOCKED n).fld .devAccess F.devAccess_LOCKED
      = min (s.fld .devAccess F.devAccess_LOCKED + n) 65535

/-- What a plain write of a register does to each of its fields, by access code: RO, reserved and WO fields stay, a 1 clears a W1C bit and a 0 leaves it, and an RW field takes the written value (R6, R11). The registers named have no field with a range of its own. -/
def Obligations.FieldsByAccess : Prop :=
  ∀ (s : State) (r : Reg) (v : Word) (f : Fld), f ∈ r.fields → r ∉ [.devLock, .cswAddr, .devFw] →
    ((f.acc = .ro ∨ f.acc = .wo ∨ f.acc = .rsv) → (s.plainWrite r v).fld r f = s.fld r f)
    ∧ (f.acc = .w1c → (s.plainWrite r v).fld r f = bitsN (s.fld r f) 0 f.w - (s.fld r f &&& f.get v))
    ∧ (f.acc = .rw → fieldInRange r f (f.get v) = true → fieldStored r f (f.get v) = f.get v → (s.plainWrite r v).fld r f = f.get v)
    ∧ (f.acc = .rw → fieldInRange r f (f.get v) = false → (s.plainWrite r v).fld r f = s.fld r f)

/-- A posted write whose number lies behind what its source has had applied is a duplicate: it is counted, and writes nothing (R213, R214). -/
def Obligations.DuplicatePostedWrites : Prop :=
  ∀ (s : State) (x : Rx) (ctx handle e2e addr : Nat) (relaxed add : Bool) (data : List Byte), s.inOrder x 0 →
    ((s.strait x.strait).rxv 0).held = [] → s.coll.owed = [] →
    2 ^ 31 ≤ (e2e + 2 ^ 32 - (sgetD (s.e2eKey x.src x.dst) ({} : E2eRx) s.net.rx).next) % 2 ^ 32 →
    exec (.postedWrite x ctx relaxed handle e2e addr add data) s =
      .next ((s.taken x 0).satFld .tblWriteDup F.tblWriteDup_COUNT 1)
    ∧ ((s.taken x 0).satFld .tblWriteDup F.tblWriteDup_COUNT 1).mem = s.mem

/-- No two bytes of the memory's usable rows share a place of the stacks, whatever channels are mapped out (R394). -/
def Obligations.LinesDoNotCollide : Prop :=
  ∀ (mapped : List (List Nat)) (a b : Nat),
    (∀ d, (nthD mapped d []).Nodup ∧ (nthD mapped d []).length ≤ 8 ∧ ∀ c ∈ nthD mapped d [], c < 64) →
    (hbmHome a).2.2 < 786432 - 12288 * (nthD mapped (hbmHome a).1 []).length →
    (hbmHome b).2.2 < 786432 - 12288 * (nthD mapped (hbmHome b).1 []).length →
    hbmLocate mapped a = hbmLocate mapped b → a = b

/-- Results of micro-ops bit by bit: two constants build any word that is no NaN and the canonical NaN for any other, signs clear and invert, comparisons answer 1.0 or 0.0 and 0.0 with a NaN, RELU keeps a NaN, SEL takes its third source on a NaN (R299, R318, R320). -/
def Obligations.MicroOpValues : Prop :=
  (∀ hi lo : Nat, mvConstLo (mvConst hi) lo = if isNan32 (BitVec.ofNat 32 (hi % 65536 * 65536 + lo % 65536)) then nan32
    else BitVec.ofNat 32 (hi % 65536 * 65536 + lo % 65536))
  ∧ (∀ a : W32, isNan32 a = false → mvNeg (mvNeg a) = a ∧ mvAbs (mvNeg a) = mvAbs a ∧ mvAbs (mvAbs a) = mvAbs a)
  ∧ (∀ a b : W32, (mvCmpGt a b = 0x3F800000#32 ∨ mvCmpGt a b = 0#32) ∧ (mvCmpGe a b = 0x3F800000#32 ∨ mvCmpGe a b = 0#32)
    ∧ (mvCmpEq a b = 0x3F800000#32 ∨ mvCmpEq a b = 0#32))
  ∧ (∀ a b : W32, isNan32 a = true ∨ isNan32 b = true → mvCmpGt a b = 0#32 ∧ mvCmpGe a b = 0#32 ∧ mvCmpEq a b = 0#32)
  ∧ (∀ a : W32, isNan32 a = true → mvRelu a = a ∧ mvIsFin a = 0#32)
  ∧ ∀ a b c : W32, isNan32 a = true → mvSel a b c = if isNan32 c then nan32 else c

/-- The search of a pool finds the lowest free run: what it answers lies within the pool, overlaps no buffer, and no lower run would do; where it answers nothing, there is no free run (R758). -/
def Obligations.PoolFirstFit : Prop :=
  ∀ (l : List Buf) (units n : Nat), 1 ≤ n →
    (∀ a, firstFit l units n (l.length + 1) 0 = some a → a + n ≤ units ∧ (∀ b ∈ l, overlap a n b.unit b.units = false)
      ∧ ∀ c, c < a → ∃ b ∈ l, overlap c n b.unit b.units = true)
    ∧ (firstFit l units n (l.length + 1) 0 = none → ∀ c, c + n ≤ units → ∃ b ∈ l, overlap c n b.unit b.units = true)

/-- Without a package group, a tainted step aborts with status 0x30, also when a result was not finite; a step that was only not finite aborts with 0x32, and any other commits. A commit raises the step count by one; an abort is counted and its restoring begins (R368–R371). -/
def Obligations.CommitVerdict : Prop :=
  (∀ (s : State) (p frame : Nat), s.fld (.schCommitCtrl p) F.schCommitCtrl_GROUP = 0 →
    ((s.part p).taint = true → s.decision p (s.part p).verdict frame = some 0x30)
    ∧ ((s.part p).taint = false → (s.part p).nonfinite = true → s.decision p (s.part p).verdict frame = some 0x32)
    ∧ ((s.part p).taint = false → (s.part p).nonfinite = false → s.decision p (s.part p).verdict frame = some 0))
  ∧ (∀ (s : State) (ctx mine frame : Nat) (o : Op), s.hard.rails = true → s.runTarget ctx (isOpc .commit) = some o → o.prog = [1, mine, frame] →
    s.decision o.part mine frame = some 0 →
    exec (.commit .run ctx) s = .next (s.onDev (fun s =>
      ((s.setFld (.schStepCount o.part) F.schStepCount_STEP (s.stepCount o.part + 1)).sealStep o.part).modOp o.seq (fun o => { o with prog := [2] }))))
  ∧ ∀ (s : State) (ctx mine frame : Nat) (o : Op), s.hard.rails = true → s.runTarget ctx (isOpc .commit) = some o → o.prog = [1, mine, frame] →
    s.decision o.part mine frame = some 0x32 →
    exec (.commit .run ctx) s = .next (s.onDev (fun s =>
      ((s.satFld (.schCommitStatus o.part) F.schCommitStatus_ABORTS 1).modPart o.part (fun x => { x with restoring := true })).modOp o.seq
        (fun o => { o with prog := [3, 0x32, 0] })))

/-- Worked examples of the spec: the logical core 9,300 runs on its physical core 0x48B0 once slot 4 of its cluster is mapped out (R15); an offset's place with and without a map-out (R394); the reset values' system time of a tick (R56). -/
def Obligations.WorkedExamples : Prop :=
  hbmLocate [] 0x2012345678 = (1, 16, 264474 * 2048 + 0x678)
  ∧ hbmLocate [[], [16]] 0x2012345678 = (1, 0, 778342 * 2048 + 0x678)
  ∧ ({ State.reset with outCores := [32 * (9300 / 16) + 4] } : State).physicalOf 9300 = 0x48B0
  ∧ State.reset.tickTime 3 = 1500000
end

