-- ==== Sys2Proof/Laws/State.lean ====
section
/-! SUPPORT. What each named update of the state leaves as it was, field by field. -/

namespace Sys2Proof.Machine

/-! ### setReg -/

@[simp] theorem State.setReg_pending (s : State) (r : Reg) (v : Word) : (s.setReg r v).pending = s.pending := rfl
@[simp] theorem State.setReg_hard (s : State) (r : Reg) (v : Word) : (s.setReg r v).hard = s.hard := rfl
@[simp] theorem State.setReg_fresh (s : State) (r : Reg) (v : Word) : (s.setReg r v).fresh = s.fresh := rfl
@[simp] theorem State.setReg_mem (s : State) (r : Reg) (v : Word) : (s.setReg r v).mem = s.mem := rfl
@[simp] theorem State.setReg_poison (s : State) (r : Reg) (v : Word) : (s.setReg r v).poison = s.poison := rfl
@[simp] theorem State.setReg_frm (s : State) (r : Reg) (v : Word) : (s.setReg r v).frm = s.frm := rfl
@[simp] theorem State.setReg_evt (s : State) (r : Reg) (v : Word) : (s.setReg r v).evt = s.evt := rfl
@[simp] theorem State.setReg_ctxs (s : State) (r : Reg) (v : Word) : (s.setReg r v).ctxs = s.ctxs := rfl
@[simp] theorem State.setReg_ops (s : State) (r : Reg) (v : Word) : (s.setReg r v).ops = s.ops := rfl
@[simp] theorem State.setReg_nextSeq (s : State) (r : Reg) (v : Word) : (s.setReg r v).nextSeq = s.nextSeq := rfl
@[simp] theorem State.setReg_host (s : State) (r : Reg) (v : Word) : (s.setReg r v).host = s.host := rfl
@[simp] theorem State.setReg_pwr (s : State) (r : Reg) (v : Word) : (s.setReg r v).pwr = s.pwr := rfl
@[simp] theorem State.setReg_hbm (s : State) (r : Reg) (v : Word) : (s.setReg r v).hbm = s.hbm := rfl
@[simp] theorem State.setReg_parts (s : State) (r : Reg) (v : Word) : (s.setReg r v).parts = s.parts := rfl
@[simp] theorem State.setReg_tasks (s : State) (r : Reg) (v : Word) : (s.setReg r v).tasks = s.tasks := rfl
@[simp] theorem State.setReg_charged (s : State) (r : Reg) (v : Word) : (s.setReg r v).charged = s.charged := rfl
@[simp] theorem State.setReg_absent (s : State) (r : Reg) (v : Word) : (s.setReg r v).absent = s.absent := rfl
@[simp] theorem State.setReg_l0 (s : State) (r : Reg) (v : Word) : (s.setReg r v).l0 = s.l0 := rfl
@[simp] theorem State.setReg_outCores (s : State) (r : Reg) (v : Word) : (s.setReg r v).outCores = s.outCores := rfl
@[simp] theorem State.setReg_net (s : State) (r : Reg) (v : Word) : (s.setReg r v).net = s.net := rfl
@[simp] theorem State.setReg_sync (s : State) (r : Reg) (v : Word) : (s.setReg r v).sync = s.sync := rfl
@[simp] theorem State.setReg_groups (s : State) (r : Reg) (v : Word) : (s.setReg r v).groups = s.groups := rfl
@[simp] theorem State.setReg_coll (s : State) (r : Reg) (v : Word) : (s.setReg r v).coll = s.coll := rfl
@[simp] theorem State.setReg_ferries (s : State) (r : Reg) (v : Word) : (s.setReg r v).ferries = s.ferries := rfl
@[simp] theorem State.setReg_charts (s : State) (r : Reg) (v : Word) : (s.setReg r v).charts = s.charts := rfl
@[simp] theorem State.setReg_gradCarry (s : State) (r : Reg) (v : Word) : (s.setReg r v).gradCarry = s.gradCarry := rfl
@[simp] theorem State.setReg_redCarry (s : State) (r : Reg) (v : Word) : (s.setReg r v).redCarry = s.redCarry := rfl
@[simp] theorem State.setReg_tbl (s : State) (r : Reg) (v : Word) : (s.setReg r v).tbl = s.tbl := rfl
@[simp] theorem State.setReg_shoal (s : State) (r : Reg) (v : Word) : (s.setReg r v).shoal = s.shoal := rfl
@[simp] theorem State.setReg_graph (s : State) (r : Reg) (v : Word) : (s.setReg r v).graph = s.graph := rfl
@[simp] theorem State.setReg_vus (s : State) (r : Reg) (v : Word) : (s.setReg r v).vus = s.vus := rfl
@[simp] theorem State.setReg_accs (s : State) (r : Reg) (v : Word) : (s.setReg r v).accs = s.accs := rfl
@[simp] theorem State.setReg_boot (s : State) (r : Reg) (v : Word) : (s.setReg r v).boot = s.boot := rfl
@[simp] theorem State.setReg_outbox (s : State) (r : Reg) (v : Word) : (s.setReg r v).outbox = s.outbox := rfl

/-! ### setFld -/

@[simp] theorem State.setFld_pending (s : State) (r : Reg) (f : Fld) (x : Nat) : (s.setFld r f x).pending = s.pending := rfl
@[simp] theorem State.setFld_hard (s : State) (r : Reg) (f : Fld) (x : Nat) : (s.setFld r f x).hard = s.hard := rfl
@[simp] theorem State.setFld_fresh (s : State) (r : Reg) (f : Fld) (x : Nat) : (s.setFld r f x).fresh = s.fresh := rfl
@[simp] theorem State.setFld_mem (s : State) (r : Reg) (f : Fld) (x : Nat) : (s.setFld r f x).mem = s.mem := rfl
@[simp] theorem State.setFld_poison (s : State) (r : Reg) (f : Fld) (x : Nat) : (s.setFld r f x).poison = s.poison := rfl
@[simp] theorem State.setFld_frm (s : State) (r : Reg) (f : Fld) (x : Nat) : (s.setFld r f x).frm = s.frm := rfl
@[simp] theorem State.setFld_evt (s : State) (r : Reg) (f : Fld) (x : Nat) : (s.setFld r f x).evt = s.evt := rfl
@[simp] theorem State.setFld_ctxs (s : State) (r : Reg) (f : Fld) (x : Nat) : (s.setFld r f x).ctxs = s.ctxs := rfl
@[simp] theorem State.setFld_ops (s : State) (r : Reg) (f : Fld) (x : Nat) : (s.setFld r f x).ops = s.ops := rfl
@[simp] theorem State.setFld_nextSeq (s : State) (r : Reg) (f : Fld) (x : Nat) : (s.setFld r f x).nextSeq = s.nextSeq := rfl
@[simp] theorem State.setFld_host (s : State) (r : Reg) (f : Fld) (x : Nat) : (s.setFld r f x).host = s.host := rfl
@[simp] theorem State.setFld_pwr (s : State) (r : Reg) (f : Fld) (x : Nat) : (s.setFld r f x).pwr = s.pwr := rfl
@[simp] theorem State.setFld_hbm (s : State) (r : Reg) (f : Fld) (x : Nat) : (s.setFld r f x).hbm = s.hbm := rfl
@[simp] theorem State.setFld_parts (s : State) (r : Reg) (f : Fld) (x : Nat) : (s.setFld r f x).parts = s.parts := rfl
@[simp] theorem State.setFld_tasks (s : State) (r : Reg) (f : Fld) (x : Nat) : (s.setFld r f x).tasks = s.tasks := rfl
@[simp] theorem State.setFld_charged (s : State) (r : Reg) (f : Fld) (x : Nat) : (s.setFld r f x).charged = s.charged := rfl
@[simp] theorem State.setFld_absent (s : State) (r : Reg) (f : Fld) (x : Nat) : (s.setFld r f x).absent = s.absent := rfl
@[simp] theorem State.setFld_l0 (s : State) (r : Reg) (f : Fld) (x : Nat) : (s.setFld r f x).l0 = s.l0 := rfl
@[simp] theorem State.setFld_outCores (s : State) (r : Reg) (f : Fld) (x : Nat) : (s.setFld r f x).outCores = s.outCores := rfl
@[simp] theorem State.setFld_net (s : State) (r : Reg) (f : Fld) (x : Nat) : (s.setFld r f x).net = s.net := rfl
@[simp] theorem State.setFld_sync (s : State) (r : Reg) (f : Fld) (x : Nat) : (s.setFld r f x).sync = s.sync := rfl
@[simp] theorem State.setFld_groups (s : State) (r : Reg) (f : Fld) (x : Nat) : (s.setFld r f x).groups = s.groups := rfl
@[simp] theorem State.setFld_coll (s : State) (r : Reg) (f : Fld) (x : Nat) : (s.setFld r f x).coll = s.coll := rfl
@[simp] theorem State.setFld_ferries (s : State) (r : Reg) (f : Fld) (x : Nat) : (s.setFld r f x).ferries = s.ferries := rfl
@[simp] theorem State.setFld_charts (s : State) (r : Reg) (f : Fld) (x : Nat) : (s.setFld r f x).charts = s.charts := rfl
@[simp] theorem State.setFld_gradCarry (s : State) (r : Reg) (f : Fld) (x : Nat) : (s.setFld r f x).gradCarry = s.gradCarry := rfl
@[simp] theorem State.setFld_redCarry (s : State) (r : Reg) (f : Fld) (x : Nat) : (s.setFld r f x).redCarry = s.redCarry := rfl
@[simp] theorem State.setFld_tbl (s : State) (r : Reg) (f : Fld) (x : Nat) : (s.setFld r f x).tbl = s.tbl := rfl
@[simp] theorem State.setFld_shoal (s : State) (r : Reg) (f : Fld) (x : Nat) : (s.setFld r f x).shoal = s.shoal := rfl
@[simp] theorem State.setFld_graph (s : State) (r : Reg) (f : Fld) (x : Nat) : (s.setFld r f x).graph = s.graph := rfl
@[simp] theorem State.setFld_vus (s : State) (r : Reg) (f : Fld) (x : Nat) : (s.setFld r f x).vus = s.vus := rfl
@[simp] theorem State.setFld_accs (s : State) (r : Reg) (f : Fld) (x : Nat) : (s.setFld r f x).accs = s.accs := rfl
@[simp] theorem State.setFld_boot (s : State) (r : Reg) (f : Fld) (x : Nat) : (s.setFld r f x).boot = s.boot := rfl
@[simp] theorem State.setFld_outbox (s : State) (r : Reg) (f : Fld) (x : Nat) : (s.setFld r f x).outbox = s.outbox := rfl

/-! ### wrapFld -/

@[simp] theorem State.wrapFld_pending (s : State) (r : Reg) (f : Fld) (n : Nat) : (s.wrapFld r f n).pending = s.pending := rfl
@[simp] theorem State.wrapFld_hard (s : State) (r : Reg) (f : Fld) (n : Nat) : (s.wrapFld r f n).hard = s.hard := rfl
@[simp] theorem State.wrapFld_fresh (s : State) (r : Reg) (f : Fld) (n : Nat) : (s.wrapFld r f n).fresh = s.fresh := rfl
@[simp] theorem State.wrapFld_mem (s : State) (r : Reg) (f : Fld) (n : Nat) : (s.wrapFld r f n).mem = s.mem := rfl
@[simp] theorem State.wrapFld_poison (s : State) (r : Reg) (f : Fld) (n : Nat) : (s.wrapFld r f n).poison = s.poison := rfl
@[simp] theorem State.wrapFld_frm (s : State) (r : Reg) (f : Fld) (n : Nat) : (s.wrapFld r f n).frm = s.frm := rfl
@[simp] theorem State.wrapFld_evt (s : State) (r : Reg) (f : Fld) (n : Nat) : (s.wrapFld r f n).evt = s.evt := rfl
@[simp] theorem State.wrapFld_ctxs (s : State) (r : Reg) (f : Fld) (n : Nat) : (s.wrapFld r f n).ctxs = s.ctxs := rfl
@[simp] theorem State.wrapFld_ops (s : State) (r : Reg) (f : Fld) (n : Nat) : (s.wrapFld r f n).ops = s.ops := rfl
@[simp] theorem State.wrapFld_nextSeq (s : State) (r : Reg) (f : Fld) (n : Nat) : (s.wrapFld r f n).nextSeq = s.nextSeq := rfl
@[simp] theorem State.wrapFld_host (s : State) (r : Reg) (f : Fld) (n : Nat) : (s.wrapFld r f n).host = s.host := rfl
@[simp] theorem State.wrapFld_pwr (s : State) (r : Reg) (f : Fld) (n : Nat) : (s.wrapFld r f n).pwr = s.pwr := rfl
@[simp] theorem State.wrapFld_hbm (s : State) (r : Reg) (f : Fld) (n : Nat) : (s.wrapFld r f n).hbm = s.hbm := rfl
@[simp] theorem State.wrapFld_parts (s : State) (r : Reg) (f : Fld) (n : Nat) : (s.wrapFld r f n).parts = s.parts := rfl
@[simp] theorem State.wrapFld_tasks (s : State) (r : Reg) (f : Fld) (n : Nat) : (s.wrapFld r f n).tasks = s.tasks := rfl
@[simp] theorem State.wrapFld_charged (s : State) (r : Reg) (f : Fld) (n : Nat) : (s.wrapFld r f n).charged = s.charged := rfl
@[simp] theorem State.wrapFld_absent (s : State) (r : Reg) (f : Fld) (n : Nat) : (s.wrapFld r f n).absent = s.absent := rfl
@[simp] theorem State.wrapFld_l0 (s : State) (r : Reg) (f : Fld) (n : Nat) : (s.wrapFld r f n).l0 = s.l0 := rfl
@[simp] theorem State.wrapFld_outCores (s : State) (r : Reg) (f : Fld) (n : Nat) : (s.wrapFld r f n).outCores = s.outCores := rfl
@[simp] theorem State.wrapFld_net (s : State) (r : Reg) (f : Fld) (n : Nat) : (s.wrapFld r f n).net = s.net := rfl
@[simp] theorem State.wrapFld_sync (s : State) (r : Reg) (f : Fld) (n : Nat) : (s.wrapFld r f n).sync = s.sync := rfl
@[simp] theorem State.wrapFld_groups (s : State) (r : Reg) (f : Fld) (n : Nat) : (s.wrapFld r f n).groups = s.groups := rfl
@[simp] theorem State.wrapFld_coll (s : State) (r : Reg) (f : Fld) (n : Nat) : (s.wrapFld r f n).coll = s.coll := rfl
@[simp] theorem State.wrapFld_ferries (s : State) (r : Reg) (f : Fld) (n : Nat) : (s.wrapFld r f n).ferries = s.ferries := rfl
@[simp] theorem State.wrapFld_charts (s : State) (r : Reg) (f : Fld) (n : Nat) : (s.wrapFld r f n).charts = s.charts := rfl
@[simp] theorem State.wrapFld_gradCarry (s : State) (r : Reg) (f : Fld) (n : Nat) : (s.wrapFld r f n).gradCarry = s.gradCarry := rfl
@[simp] theorem State.wrapFld_redCarry (s : State) (r : Reg) (f : Fld) (n : Nat) : (s.wrapFld r f n).redCarry = s.redCarry := rfl
@[simp] theorem State.wrapFld_tbl (s : State) (r : Reg) (f : Fld) (n : Nat) : (s.wrapFld r f n).tbl = s.tbl := rfl
@[simp] theorem State.wrapFld_shoal (s : State) (r : Reg) (f : Fld) (n : Nat) : (s.wrapFld r f n).shoal = s.shoal := rfl
@[simp] theorem State.wrapFld_graph (s : State) (r : Reg) (f : Fld) (n : Nat) : (s.wrapFld r f n).graph = s.graph := rfl
@[simp] theorem State.wrapFld_vus (s : State) (r : Reg) (f : Fld) (n : Nat) : (s.wrapFld r f n).vus = s.vus := rfl
@[simp] theorem State.wrapFld_accs (s : State) (r : Reg) (f : Fld) (n : Nat) : (s.wrapFld r f n).accs = s.accs := rfl
@[simp] theorem State.wrapFld_boot (s : State) (r : Reg) (f : Fld) (n : Nat) : (s.wrapFld r f n).boot = s.boot := rfl
@[simp] theorem State.wrapFld_outbox (s : State) (r : Reg) (f : Fld) (n : Nat) : (s.wrapFld r f n).outbox = s.outbox := rfl

/-! ### satRaw -/

@[simp] theorem State.satRaw_pending (s : State) (r : Reg) (f : Fld) (n : Nat) : (s.satRaw r f n).pending = s.pending := rfl
@[simp] theorem State.satRaw_hard (s : State) (r : Reg) (f : Fld) (n : Nat) : (s.satRaw r f n).hard = s.hard := rfl
@[simp] theorem State.satRaw_fresh (s : State) (r : Reg) (f : Fld) (n : Nat) : (s.satRaw r f n).fresh = s.fresh := rfl
@[simp] theorem State.satRaw_mem (s : State) (r : Reg) (f : Fld) (n : Nat) : (s.satRaw r f n).mem = s.mem := rfl
@[simp] theorem State.satRaw_poison (s : State) (r : Reg) (f : Fld) (n : Nat) : (s.satRaw r f n).poison = s.poison := rfl
@[simp] theorem State.satRaw_frm (s : State) (r : Reg) (f : Fld) (n : Nat) : (s.satRaw r f n).frm = s.frm := rfl
@[simp] theorem State.satRaw_evt (s : State) (r : Reg) (f : Fld) (n : Nat) : (s.satRaw r f n).evt = s.evt := rfl
@[simp] theorem State.satRaw_ctxs (s : State) (r : Reg) (f : Fld) (n : Nat) : (s.satRaw r f n).ctxs = s.ctxs := rfl
@[simp] theorem State.satRaw_ops (s : State) (r : Reg) (f : Fld) (n : Nat) : (s.satRaw r f n).ops = s.ops := rfl
@[simp] theorem State.satRaw_nextSeq (s : State) (r : Reg) (f : Fld) (n : Nat) : (s.satRaw r f n).nextSeq = s.nextSeq := rfl
@[simp] theorem State.satRaw_host (s : State) (r : Reg) (f : Fld) (n : Nat) : (s.satRaw r f n).host = s.host := rfl
@[simp] theorem State.satRaw_pwr (s : State) (r : Reg) (f : Fld) (n : Nat) : (s.satRaw r f n).pwr = s.pwr := rfl
@[simp] theorem State.satRaw_hbm (s : State) (r : Reg) (f : Fld) (n : Nat) : (s.satRaw r f n).hbm = s.hbm := rfl
@[simp] theorem State.satRaw_parts (s : State) (r : Reg) (f : Fld) (n : Nat) : (s.satRaw r f n).parts = s.parts := rfl
@[simp] theorem State.satRaw_tasks (s : State) (r : Reg) (f : Fld) (n : Nat) : (s.satRaw r f n).tasks = s.tasks := rfl
@[simp] theorem State.satRaw_charged (s : State) (r : Reg) (f : Fld) (n : Nat) : (s.satRaw r f n).charged = s.charged := rfl
@[simp] theorem State.satRaw_absent (s : State) (r : Reg) (f : Fld) (n : Nat) : (s.satRaw r f n).absent = s.absent := rfl
@[simp] theorem State.satRaw_l0 (s : State) (r : Reg) (f : Fld) (n : Nat) : (s.satRaw r f n).l0 = s.l0 := rfl
@[simp] theorem State.satRaw_outCores (s : State) (r : Reg) (f : Fld) (n : Nat) : (s.satRaw r f n).outCores = s.outCores := rfl
@[simp] theorem State.satRaw_net (s : State) (r : Reg) (f : Fld) (n : Nat) : (s.satRaw r f n).net = s.net := rfl
@[simp] theorem State.satRaw_sync (s : State) (r : Reg) (f : Fld) (n : Nat) : (s.satRaw r f n).sync = s.sync := rfl
@[simp] theorem State.satRaw_groups (s : State) (r : Reg) (f : Fld) (n : Nat) : (s.satRaw r f n).groups = s.groups := rfl
@[simp] theorem State.satRaw_coll (s : State) (r : Reg) (f : Fld) (n : Nat) : (s.satRaw r f n).coll = s.coll := rfl
@[simp] theorem State.satRaw_ferries (s : State) (r : Reg) (f : Fld) (n : Nat) : (s.satRaw r f n).ferries = s.ferries := rfl
@[simp] theorem State.satRaw_charts (s : State) (r : Reg) (f : Fld) (n : Nat) : (s.satRaw r f n).charts = s.charts := rfl
@[simp] theorem State.satRaw_gradCarry (s : State) (r : Reg) (f : Fld) (n : Nat) : (s.satRaw r f n).gradCarry = s.gradCarry := rfl
@[simp] theorem State.satRaw_redCarry (s : State) (r : Reg) (f : Fld) (n : Nat) : (s.satRaw r f n).redCarry = s.redCarry := rfl
@[simp] theorem State.satRaw_tbl (s : State) (r : Reg) (f : Fld) (n : Nat) : (s.satRaw r f n).tbl = s.tbl := rfl
@[simp] theorem State.satRaw_shoal (s : State) (r : Reg) (f : Fld) (n : Nat) : (s.satRaw r f n).shoal = s.shoal := rfl
@[simp] theorem State.satRaw_graph (s : State) (r : Reg) (f : Fld) (n : Nat) : (s.satRaw r f n).graph = s.graph := rfl
@[simp] theorem State.satRaw_vus (s : State) (r : Reg) (f : Fld) (n : Nat) : (s.satRaw r f n).vus = s.vus := rfl
@[simp] theorem State.satRaw_accs (s : State) (r : Reg) (f : Fld) (n : Nat) : (s.satRaw r f n).accs = s.accs := rfl
@[simp] theorem State.satRaw_boot (s : State) (r : Reg) (f : Fld) (n : Nat) : (s.satRaw r f n).boot = s.boot := rfl
@[simp] theorem State.satRaw_outbox (s : State) (r : Reg) (f : Fld) (n : Nat) : (s.satRaw r f n).outbox = s.outbox := rfl

/-! ### withFrm and reach -/

@[simp] theorem State.withFrm_pending (s : State) (f : FrameTime) : (s.withFrm f).pending = s.pending := rfl
@[simp] theorem State.withFrm_hard (s : State) (f : FrameTime) : (s.withFrm f).hard = s.hard := rfl
@[simp] theorem State.withFrm_fresh (s : State) (f : FrameTime) : (s.withFrm f).fresh = s.fresh := rfl
@[simp] theorem State.withFrm_regs (s : State) (f : FrameTime) : (s.withFrm f).regs = s.regs := rfl
@[simp] theorem State.withFrm_mem (s : State) (f : FrameTime) : (s.withFrm f).mem = s.mem := rfl
@[simp] theorem State.withFrm_poison (s : State) (f : FrameTime) : (s.withFrm f).poison = s.poison := rfl
@[simp] theorem State.withFrm_evt (s : State) (f : FrameTime) : (s.withFrm f).evt = s.evt := rfl
@[simp] theorem State.withFrm_ctxs (s : State) (f : FrameTime) : (s.withFrm f).ctxs = s.ctxs := rfl
@[simp] theorem State.withFrm_ops (s : State) (f : FrameTime) : (s.withFrm f).ops = s.ops := rfl
@[simp] theorem State.withFrm_nextSeq (s : State) (f : FrameTime) : (s.withFrm f).nextSeq = s.nextSeq := rfl
@[simp] theorem State.withFrm_host (s : State) (f : FrameTime) : (s.withFrm f).host = s.host := rfl
@[simp] theorem State.withFrm_pwr (s : State) (f : FrameTime) : (s.withFrm f).pwr = s.pwr := rfl
@[simp] theorem State.withFrm_hbm (s : State) (f : FrameTime) : (s.withFrm f).hbm = s.hbm := rfl
@[simp] theorem State.withFrm_parts (s : State) (f : FrameTime) : (s.withFrm f).parts = s.parts := rfl
@[simp] theorem State.withFrm_tasks (s : State) (f : FrameTime) : (s.withFrm f).tasks = s.tasks := rfl
@[simp] theorem State.withFrm_charged (s : State) (f : FrameTime) : (s.withFrm f).charged = s.charged := rfl
@[simp] theorem State.withFrm_absent (s : State) (f : FrameTime) : (s.withFrm f).absent = s.absent := rfl
@[simp] theorem State.withFrm_l0 (s : State) (f : FrameTime) : (s.withFrm f).l0 = s.l0 := rfl
@[simp] theorem State.withFrm_outCores (s : State) (f : FrameTime) : (s.withFrm f).outCores = s.outCores := rfl
@[simp] theorem State.withFrm_net (s : State) (f : FrameTime) : (s.withFrm f).net = s.net := rfl
@[simp] theorem State.withFrm_sync (s : State) (f : FrameTime) : (s.withFrm f).sync = s.sync := rfl
@[simp] theorem State.withFrm_groups (s : State) (f : FrameTime) : (s.withFrm f).groups = s.groups := rfl
@[simp] theorem State.withFrm_coll (s : State) (f : FrameTime) : (s.withFrm f).coll = s.coll := rfl
@[simp] theorem State.withFrm_ferries (s : State) (f : FrameTime) : (s.withFrm f).ferries = s.ferries := rfl
@[simp] theorem State.withFrm_charts (s : State) (f : FrameTime) : (s.withFrm f).charts = s.charts := rfl
@[simp] theorem State.withFrm_gradCarry (s : State) (f : FrameTime) : (s.withFrm f).gradCarry = s.gradCarry := rfl
@[simp] theorem State.withFrm_redCarry (s : State) (f : FrameTime) : (s.withFrm f).redCarry = s.redCarry := rfl
@[simp] theorem State.withFrm_tbl (s : State) (f : FrameTime) : (s.withFrm f).tbl = s.tbl := rfl
@[simp] theorem State.withFrm_shoal (s : State) (f : FrameTime) : (s.withFrm f).shoal = s.shoal := rfl
@[simp] theorem State.withFrm_graph (s : State) (f : FrameTime) : (s.withFrm f).graph = s.graph := rfl
@[simp] theorem State.withFrm_vus (s : State) (f : FrameTime) : (s.withFrm f).vus = s.vus := rfl
@[simp] theorem State.withFrm_accs (s : State) (f : FrameTime) : (s.withFrm f).accs = s.accs := rfl
@[simp] theorem State.withFrm_boot (s : State) (f : FrameTime) : (s.withFrm f).boot = s.boot := rfl
@[simp] theorem State.withFrm_outbox (s : State) (f : FrameTime) : (s.withFrm f).outbox = s.outbox := rfl
@[simp] theorem State.withFrm_frm (s : State) (f : FrameTime) : (s.withFrm f).frm = f := rfl

@[simp] theorem State.reach_pending (s : State) (t : Nat) : (s.reach t).pending = s.pending := State.withFrm_pending _ _
@[simp] theorem State.reach_hard (s : State) (t : Nat) : (s.reach t).hard = s.hard := State.withFrm_hard _ _
@[simp] theorem State.reach_fresh (s : State) (t : Nat) : (s.reach t).fresh = s.fresh := State.withFrm_fresh _ _
@[simp] theorem State.reach_regs (s : State) (t : Nat) : (s.reach t).regs = s.regs := State.withFrm_regs _ _
@[simp] theorem State.reach_mem (s : State) (t : Nat) : (s.reach t).mem = s.mem := State.withFrm_mem _ _
@[simp] theorem State.reach_poison (s : State) (t : Nat) : (s.reach t).poison = s.poison := State.withFrm_poison _ _
@[simp] theorem State.reach_evt (s : State) (t : Nat) : (s.reach t).evt = s.evt := State.withFrm_evt _ _
@[simp] theorem State.reach_ctxs (s : State) (t : Nat) : (s.reach t).ctxs = s.ctxs := State.withFrm_ctxs _ _
@[simp] theorem State.reach_ops (s : State) (t : Nat) : (s.reach t).ops = s.ops := State.withFrm_ops _ _
@[simp] theorem State.reach_nextSeq (s : State) (t : Nat) : (s.reach t).nextSeq = s.nextSeq := State.withFrm_nextSeq _ _
@[simp] theorem State.reach_host (s : State) (t : Nat) : (s.reach t).host = s.host := State.withFrm_host _ _
@[simp] theorem State.reach_pwr (s : State) (t : Nat) : (s.reach t).pwr = s.pwr := State.withFrm_pwr _ _
@[simp] theorem State.reach_hbm (s : State) (t : Nat) : (s.reach t).hbm = s.hbm := State.withFrm_hbm _ _
@[simp] theorem State.reach_parts (s : State) (t : Nat) : (s.reach t).parts = s.parts := State.withFrm_parts _ _
@[simp] theorem State.reach_tasks (s : State) (t : Nat) : (s.reach t).tasks = s.tasks := State.withFrm_tasks _ _
@[simp] theorem State.reach_charged (s : State) (t : Nat) : (s.reach t).charged = s.charged := State.withFrm_charged _ _
@[simp] theorem State.reach_absent (s : State) (t : Nat) : (s.reach t).absent = s.absent := State.withFrm_absent _ _
@[simp] theorem State.reach_l0 (s : State) (t : Nat) : (s.reach t).l0 = s.l0 := State.withFrm_l0 _ _
@[simp] theorem State.reach_outCores (s : State) (t : Nat) : (s.reach t).outCores = s.outCores := State.withFrm_outCores _ _
@[simp] theorem State.reach_net (s : State) (t : Nat) : (s.reach t).net = s.net := State.withFrm_net _ _
@[simp] theorem State.reach_sync (s : State) (t : Nat) : (s.reach t).sync = s.sync := State.withFrm_sync _ _
@[simp] theorem State.reach_groups (s : State) (t : Nat) : (s.reach t).groups = s.groups := State.withFrm_groups _ _
@[simp] theorem State.reach_coll (s : State) (t : Nat) : (s.reach t).coll = s.coll := State.withFrm_coll _ _
@[simp] theorem State.reach_ferries (s : State) (t : Nat) : (s.reach t).ferries = s.ferries := State.withFrm_ferries _ _
@[simp] theorem State.reach_charts (s : State) (t : Nat) : (s.reach t).charts = s.charts := State.withFrm_charts _ _
@[simp] theorem State.reach_gradCarry (s : State) (t : Nat) : (s.reach t).gradCarry = s.gradCarry := State.withFrm_gradCarry _ _
@[simp] theorem State.reach_redCarry (s : State) (t : Nat) : (s.reach t).redCarry = s.redCarry := State.withFrm_redCarry _ _
@[simp] theorem State.reach_tbl (s : State) (t : Nat) : (s.reach t).tbl = s.tbl := State.withFrm_tbl _ _
@[simp] theorem State.reach_shoal (s : State) (t : Nat) : (s.reach t).shoal = s.shoal := State.withFrm_shoal _ _
@[simp] theorem State.reach_graph (s : State) (t : Nat) : (s.reach t).graph = s.graph := State.withFrm_graph _ _
@[simp] theorem State.reach_vus (s : State) (t : Nat) : (s.reach t).vus = s.vus := State.withFrm_vus _ _
@[simp] theorem State.reach_accs (s : State) (t : Nat) : (s.reach t).accs = s.accs := State.withFrm_accs _ _
@[simp] theorem State.reach_boot (s : State) (t : Nat) : (s.reach t).boot = s.boot := State.withFrm_boot _ _
@[simp] theorem State.reach_outbox (s : State) (t : Nat) : (s.reach t).outbox = s.outbox := State.withFrm_outbox _ _

/-! ### emit -/

@[simp] theorem State.emit_pending (s : State) (o : Output) : (s.emit o).pending = s.pending := rfl
@[simp] theorem State.emit_hard (s : State) (o : Output) : (s.emit o).hard = s.hard := rfl
@[simp] theorem State.emit_fresh (s : State) (o : Output) : (s.emit o).fresh = s.fresh := rfl
@[simp] theorem State.emit_regs (s : State) (o : Output) : (s.emit o).regs = s.regs := rfl
@[simp] theorem State.emit_mem (s : State) (o : Output) : (s.emit o).mem = s.mem := rfl
@[simp] theorem State.emit_poison (s : State) (o : Output) : (s.emit o).poison = s.poison := rfl
@[simp] theorem State.emit_frm (s : State) (o : Output) : (s.emit o).frm = s.frm := rfl
@[simp] theorem State.emit_evt (s : State) (o : Output) : (s.emit o).evt = s.evt := rfl
@[simp] theorem State.emit_ctxs (s : State) (o : Output) : (s.emit o).ctxs = s.ctxs := rfl
@[simp] theorem State.emit_ops (s : State) (o : Output) : (s.emit o).ops = s.ops := rfl
@[simp] theorem State.emit_nextSeq (s : State) (o : Output) : (s.emit o).nextSeq = s.nextSeq := rfl
@[simp] theorem State.emit_host (s : State) (o : Output) : (s.emit o).host = s.host := rfl
@[simp] theorem State.emit_pwr (s : State) (o : Output) : (s.emit o).pwr = s.pwr := rfl
@[simp] theorem State.emit_hbm (s : State) (o : Output) : (s.emit o).hbm = s.hbm := rfl
@[simp] theorem State.emit_parts (s : State) (o : Output) : (s.emit o).parts = s.parts := rfl
@[simp] theorem State.emit_tasks (s : State) (o : Output) : (s.emit o).tasks = s.tasks := rfl
@[simp] theorem State.emit_charged (s : State) (o : Output) : (s.emit o).charged = s.charged := rfl
@[simp] theorem State.emit_absent (s : State) (o : Output) : (s.emit o).absent = s.absent := rfl
@[simp] theorem State.emit_l0 (s : State) (o : Output) : (s.emit o).l0 = s.l0 := rfl
@[simp] theorem State.emit_outCores (s : State) (o : Output) : (s.emit o).outCores = s.outCores := rfl
@[simp] theorem State.emit_net (s : State) (o : Output) : (s.emit o).net = s.net := rfl
@[simp] theorem State.emit_sync (s : State) (o : Output) : (s.emit o).sync = s.sync := rfl
@[simp] theorem State.emit_groups (s : State) (o : Output) : (s.emit o).groups = s.groups := rfl
@[simp] theorem State.emit_coll (s : State) (o : Output) : (s.emit o).coll = s.coll := rfl
@[simp] theorem State.emit_ferries (s : State) (o : Output) : (s.emit o).ferries = s.ferries := rfl
@[simp] theorem State.emit_charts (s : State) (o : Output) : (s.emit o).charts = s.charts := rfl
@[simp] theorem State.emit_gradCarry (s : State) (o : Output) : (s.emit o).gradCarry = s.gradCarry := rfl
@[simp] theorem State.emit_redCarry (s : State) (o : Output) : (s.emit o).redCarry = s.redCarry := rfl
@[simp] theorem State.emit_tbl (s : State) (o : Output) : (s.emit o).tbl = s.tbl := rfl
@[simp] theorem State.emit_shoal (s : State) (o : Output) : (s.emit o).shoal = s.shoal := rfl
@[simp] theorem State.emit_graph (s : State) (o : Output) : (s.emit o).graph = s.graph := rfl
@[simp] theorem State.emit_vus (s : State) (o : Output) : (s.emit o).vus = s.vus := rfl
@[simp] theorem State.emit_accs (s : State) (o : Output) : (s.emit o).accs = s.accs := rfl
@[simp] theorem State.emit_boot (s : State) (o : Output) : (s.emit o).boot = s.boot := rfl

/-! ### kWr -/

@[simp] theorem State.kWr_pending (s : State) (k : Nat) (bs : List Byte) : (s.kWr k bs).pending = s.pending := rfl
@[simp] theorem State.kWr_hard (s : State) (k : Nat) (bs : List Byte) : (s.kWr k bs).hard = s.hard := rfl
@[simp] theorem State.kWr_fresh (s : State) (k : Nat) (bs : List Byte) : (s.kWr k bs).fresh = s.fresh := rfl
@[simp] theorem State.kWr_regs (s : State) (k : Nat) (bs : List Byte) : (s.kWr k bs).regs = s.regs := rfl
@[simp] theorem State.kWr_frm (s : State) (k : Nat) (bs : List Byte) : (s.kWr k bs).frm = s.frm := rfl
@[simp] theorem State.kWr_evt (s : State) (k : Nat) (bs : List Byte) : (s.kWr k bs).evt = s.evt := rfl
@[simp] theorem State.kWr_ctxs (s : State) (k : Nat) (bs : List Byte) : (s.kWr k bs).ctxs = s.ctxs := rfl
@[simp] theorem State.kWr_ops (s : State) (k : Nat) (bs : List Byte) : (s.kWr k bs).ops = s.ops := rfl
@[simp] theorem State.kWr_nextSeq (s : State) (k : Nat) (bs : List Byte) : (s.kWr k bs).nextSeq = s.nextSeq := rfl
@[simp] theorem State.kWr_host (s : State) (k : Nat) (bs : List Byte) : (s.kWr k bs).host = s.host := rfl
@[simp] theorem State.kWr_pwr (s : State) (k : Nat) (bs : List Byte) : (s.kWr k bs).pwr = s.pwr := rfl
@[simp] theorem State.kWr_parts (s : State) (k : Nat) (bs : List Byte) : (s.kWr k bs).parts = s.parts := rfl
@[simp] theorem State.kWr_tasks (s : State) (k : Nat) (bs : List Byte) : (s.kWr k bs).tasks = s.tasks := rfl
@[simp] theorem State.kWr_charged (s : State) (k : Nat) (bs : List Byte) : (s.kWr k bs).charged = s.charged := rfl
@[simp] theorem State.kWr_absent (s : State) (k : Nat) (bs : List Byte) : (s.kWr k bs).absent = s.absent := rfl
@[simp] theorem State.kWr_l0 (s : State) (k : Nat) (bs : List Byte) : (s.kWr k bs).l0 = s.l0 := rfl
@[simp] theorem State.kWr_outCores (s : State) (k : Nat) (bs : List Byte) : (s.kWr k bs).outCores = s.outCores := rfl
@[simp] theorem State.kWr_net (s : State) (k : Nat) (bs : List Byte) : (s.kWr k bs).net = s.net := rfl
@[simp] theorem State.kWr_sync (s : State) (k : Nat) (bs : List Byte) : (s.kWr k bs).sync = s.sync := rfl
@[simp] theorem State.kWr_groups (s : State) (k : Nat) (bs : List Byte) : (s.kWr k bs).groups = s.groups := rfl
@[simp] theorem State.kWr_coll (s : State) (k : Nat) (bs : List Byte) : (s.kWr k bs).coll = s.coll := rfl
@[simp] theorem State.kWr_ferries (s : State) (k : Nat) (bs : List Byte) : (s.kWr k bs).ferries = s.ferries := rfl
@[simp] theorem State.kWr_charts (s : State) (k : Nat) (bs : List Byte) : (s.kWr k bs).charts = s.charts := rfl
@[simp] theorem State.kWr_gradCarry (s : State) (k : Nat) (bs : List Byte) : (s.kWr k bs).gradCarry = s.gradCarry := rfl
@[simp] theorem State.kWr_redCarry (s : State) (k : Nat) (bs : List Byte) : (s.kWr k bs).redCarry = s.redCarry := rfl
@[simp] theorem State.kWr_tbl (s : State) (k : Nat) (bs : List Byte) : (s.kWr k bs).tbl = s.tbl := rfl
@[simp] theorem State.kWr_shoal (s : State) (k : Nat) (bs : List Byte) : (s.kWr k bs).shoal = s.shoal := rfl
@[simp] theorem State.kWr_graph (s : State) (k : Nat) (bs : List Byte) : (s.kWr k bs).graph = s.graph := rfl
@[simp] theorem State.kWr_vus (s : State) (k : Nat) (bs : List Byte) : (s.kWr k bs).vus = s.vus := rfl
@[simp] theorem State.kWr_accs (s : State) (k : Nat) (bs : List Byte) : (s.kWr k bs).accs = s.accs := rfl
@[simp] theorem State.kWr_boot (s : State) (k : Nat) (bs : List Byte) : (s.kWr k bs).boot = s.boot := rfl
@[simp] theorem State.kWr_outbox (s : State) (k : Nat) (bs : List Byte) : (s.kWr k bs).outbox = s.outbox := rfl

/-! ### setCtx -/

@[simp] theorem State.setCtx_pending (s : State) (x : Ctx) : (s.setCtx x).pending = s.pending := rfl
@[simp] theorem State.setCtx_hard (s : State) (x : Ctx) : (s.setCtx x).hard = s.hard := rfl
@[simp] theorem State.setCtx_fresh (s : State) (x : Ctx) : (s.setCtx x).fresh = s.fresh := rfl
@[simp] theorem State.setCtx_regs (s : State) (x : Ctx) : (s.setCtx x).regs = s.regs := rfl
@[simp] theorem State.setCtx_mem (s : State) (x : Ctx) : (s.setCtx x).mem = s.mem := rfl
@[simp] theorem State.setCtx_poison (s : State) (x : Ctx) : (s.setCtx x).poison = s.poison := rfl
@[simp] theorem State.setCtx_frm (s : State) (x : Ctx) : (s.setCtx x).frm = s.frm := rfl
@[simp] theorem State.setCtx_evt (s : State) (x : Ctx) : (s.setCtx x).evt = s.evt := rfl
@[simp] theorem State.setCtx_ops (s : State) (x : Ctx) : (s.setCtx x).ops = s.ops := rfl
@[simp] theorem State.setCtx_nextSeq (s : State) (x : Ctx) : (s.setCtx x).nextSeq = s.nextSeq := rfl
@[simp] theorem State.setCtx_host (s : State) (x : Ctx) : (s.setCtx x).host = s.host := rfl
@[simp] theorem State.setCtx_pwr (s : State) (x : Ctx) : (s.setCtx x).pwr = s.pwr := rfl
@[simp] theorem State.setCtx_hbm (s : State) (x : Ctx) : (s.setCtx x).hbm = s.hbm := rfl
@[simp] theorem State.setCtx_parts (s : State) (x : Ctx) : (s.setCtx x).parts = s.parts := rfl
@[simp] theorem State.setCtx_tasks (s : State) (x : Ctx) : (s.setCtx x).tasks = s.tasks := rfl
@[simp] theorem State.setCtx_charged (s : State) (x : Ctx) : (s.setCtx x).charged = s.charged := rfl
@[simp] theorem State.setCtx_absent (s : State) (x : Ctx) : (s.setCtx x).absent = s.absent := rfl
@[simp] theorem State.setCtx_l0 (s : State) (x : Ctx) : (s.setCtx x).l0 = s.l0 := rfl
@[simp] theorem State.setCtx_outCores (s : State) (x : Ctx) : (s.setCtx x).outCores = s.outCores := rfl
@[simp] theorem State.setCtx_net (s : State) (x : Ctx) : (s.setCtx x).net = s.net := rfl
@[simp] theorem State.setCtx_sync (s : State) (x : Ctx) : (s.setCtx x).sync = s.sync := rfl
@[simp] theorem State.setCtx_groups (s : State) (x : Ctx) : (s.setCtx x).groups = s.groups := rfl
@[simp] theorem State.setCtx_coll (s : State) (x : Ctx) : (s.setCtx x).coll = s.coll := rfl
@[simp] theorem State.setCtx_ferries (s : State) (x : Ctx) : (s.setCtx x).ferries = s.ferries := rfl
@[simp] theorem State.setCtx_charts (s : State) (x : Ctx) : (s.setCtx x).charts = s.charts := rfl
@[simp] theorem State.setCtx_gradCarry (s : State) (x : Ctx) : (s.setCtx x).gradCarry = s.gradCarry := rfl
@[simp] theorem State.setCtx_redCarry (s : State) (x : Ctx) : (s.setCtx x).redCarry = s.redCarry := rfl
@[simp] theorem State.setCtx_tbl (s : State) (x : Ctx) : (s.setCtx x).tbl = s.tbl := rfl
@[simp] theorem State.setCtx_shoal (s : State) (x : Ctx) : (s.setCtx x).shoal = s.shoal := rfl
@[simp] theorem State.setCtx_graph (s : State) (x : Ctx) : (s.setCtx x).graph = s.graph := rfl
@[simp] theorem State.setCtx_vus (s : State) (x : Ctx) : (s.setCtx x).vus = s.vus := rfl
@[simp] theorem State.setCtx_accs (s : State) (x : Ctx) : (s.setCtx x).accs = s.accs := rfl
@[simp] theorem State.setCtx_boot (s : State) (x : Ctx) : (s.setCtx x).boot = s.boot := rfl
@[simp] theorem State.setCtx_outbox (s : State) (x : Ctx) : (s.setCtx x).outbox = s.outbox := rfl

/-! ### modOp -/

@[simp] theorem State.modOp_pending (s : State) (q : Nat) (f : Op → Op) : (s.modOp q f).pending = s.pending := rfl
@[simp] theorem State.modOp_hard (s : State) (q : Nat) (f : Op → Op) : (s.modOp q f).hard = s.hard := rfl
@[simp] theorem State.modOp_fresh (s : State) (q : Nat) (f : Op → Op) : (s.modOp q f).fresh = s.fresh := rfl
@[simp] theorem State.modOp_regs (s : State) (q : Nat) (f : Op → Op) : (s.modOp q f).regs = s.regs := rfl
@[simp] theorem State.modOp_mem (s : State) (q : Nat) (f : Op → Op) : (s.modOp q f).mem = s.mem := rfl
@[simp] theorem State.modOp_poison (s : State) (q : Nat) (f : Op → Op) : (s.modOp q f).poison = s.poison := rfl
@[simp] theorem State.modOp_frm (s : State) (q : Nat) (f : Op → Op) : (s.modOp q f).frm = s.frm := rfl
@[simp] theorem State.modOp_evt (s : State) (q : Nat) (f : Op → Op) : (s.modOp q f).evt = s.evt := rfl
@[simp] theorem State.modOp_ctxs (s : State) (q : Nat) (f : Op → Op) : (s.modOp q f).ctxs = s.ctxs := rfl
@[simp] theorem State.modOp_nextSeq (s : State) (q : Nat) (f : Op → Op) : (s.modOp q f).nextSeq = s.nextSeq := rfl
@[simp] theorem State.modOp_host (s : State) (q : Nat) (f : Op → Op) : (s.modOp q f).host = s.host := rfl
@[simp] theorem State.modOp_pwr (s : State) (q : Nat) (f : Op → Op) : (s.modOp q f).pwr = s.pwr := rfl
@[simp] theorem State.modOp_hbm (s : State) (q : Nat) (f : Op → Op) : (s.modOp q f).hbm = s.hbm := rfl
@[simp] theorem State.modOp_parts (s : State) (q : Nat) (f : Op → Op) : (s.modOp q f).parts = s.parts := rfl
@[simp] theorem State.modOp_tasks (s : State) (q : Nat) (f : Op → Op) : (s.modOp q f).tasks = s.tasks := rfl
@[simp] theorem State.modOp_charged (s : State) (q : Nat) (f : Op → Op) : (s.modOp q f).charged = s.charged := rfl
@[simp] theorem State.modOp_absent (s : State) (q : Nat) (f : Op → Op) : (s.modOp q f).absent = s.absent := rfl
@[simp] theorem State.modOp_l0 (s : State) (q : Nat) (f : Op → Op) : (s.modOp q f).l0 = s.l0 := rfl
@[simp] theorem State.modOp_outCores (s : State) (q : Nat) (f : Op → Op) : (s.modOp q f).outCores = s.outCores := rfl
@[simp] theorem State.modOp_net (s : State) (q : Nat) (f : Op → Op) : (s.modOp q f).net = s.net := rfl
@[simp] theorem State.modOp_sync (s : State) (q : Nat) (f : Op → Op) : (s.modOp q f).sync = s.sync := rfl
@[simp] theorem State.modOp_groups (s : State) (q : Nat) (f : Op → Op) : (s.modOp q f).groups = s.groups := rfl
@[simp] theorem State.modOp_coll (s : State) (q : Nat) (f : Op → Op) : (s.modOp q f).coll = s.coll := rfl
@[simp] theorem State.modOp_ferries (s : State) (q : Nat) (f : Op → Op) : (s.modOp q f).ferries = s.ferries := rfl
@[simp] theorem State.modOp_charts (s : State) (q : Nat) (f : Op → Op) : (s.modOp q f).charts = s.charts := rfl
@[simp] theorem State.modOp_gradCarry (s : State) (q : Nat) (f : Op → Op) : (s.modOp q f).gradCarry = s.gradCarry := rfl
@[simp] theorem State.modOp_redCarry (s : State) (q : Nat) (f : Op → Op) : (s.modOp q f).redCarry = s.redCarry := rfl
@[simp] theorem State.modOp_tbl (s : State) (q : Nat) (f : Op → Op) : (s.modOp q f).tbl = s.tbl := rfl
@[simp] theorem State.modOp_shoal (s : State) (q : Nat) (f : Op → Op) : (s.modOp q f).shoal = s.shoal := rfl
@[simp] theorem State.modOp_graph (s : State) (q : Nat) (f : Op → Op) : (s.modOp q f).graph = s.graph := rfl
@[simp] theorem State.modOp_vus (s : State) (q : Nat) (f : Op → Op) : (s.modOp q f).vus = s.vus := rfl
@[simp] theorem State.modOp_accs (s : State) (q : Nat) (f : Op → Op) : (s.modOp q f).accs = s.accs := rfl
@[simp] theorem State.modOp_boot (s : State) (q : Nat) (f : Op → Op) : (s.modOp q f).boot = s.boot := rfl
@[simp] theorem State.modOp_outbox (s : State) (q : Nat) (f : Op → Op) : (s.modOp q f).outbox = s.outbox := rfl

/-! ### setPart -/

@[simp] theorem State.setPart_pending (s : State) (x : Part) : (s.setPart x).pending = s.pending := rfl
@[simp] theorem State.setPart_hard (s : State) (x : Part) : (s.setPart x).hard = s.hard := rfl
@[simp] theorem State.setPart_fresh (s : State) (x : Part) : (s.setPart x).fresh = s.fresh := rfl
@[simp] theorem State.setPart_regs (s : State) (x : Part) : (s.setPart x).regs = s.regs := rfl
@[simp] theorem State.setPart_mem (s : State) (x : Part) : (s.setPart x).mem = s.mem := rfl
@[simp] theorem State.setPart_poison (s : State) (x : Part) : (s.setPart x).poison = s.poison := rfl
@[simp] theorem State.setPart_frm (s : State) (x : Part) : (s.setPart x).frm = s.frm := rfl
@[simp] theorem State.setPart_evt (s : State) (x : Part) : (s.setPart x).evt = s.evt := rfl
@[simp] theorem State.setPart_ctxs (s : State) (x : Part) : (s.setPart x).ctxs = s.ctxs := rfl
@[simp] theorem State.setPart_ops (s : State) (x : Part) : (s.setPart x).ops = s.ops := rfl
@[simp] theorem State.setPart_nextSeq (s : State) (x : Part) : (s.setPart x).nextSeq = s.nextSeq := rfl
@[simp] theorem State.setPart_host (s : State) (x : Part) : (s.setPart x).host = s.host := rfl
@[simp] theorem State.setPart_pwr (s : State) (x : Part) : (s.setPart x).pwr = s.pwr := rfl
@[simp] theorem State.setPart_hbm (s : State) (x : Part) : (s.setPart x).hbm = s.hbm := rfl
@[simp] theorem State.setPart_tasks (s : State) (x : Part) : (s.setPart x).tasks = s.tasks := rfl
@[simp] theorem State.setPart_charged (s : State) (x : Part) : (s.setPart x).charged = s.charged := rfl
@[simp] theorem State.setPart_absent (s : State) (x : Part) : (s.setPart x).absent = s.absent := rfl
@[simp] theorem State.setPart_l0 (s : State) (x : Part) : (s.setPart x).l0 = s.l0 := rfl
@[simp] theorem State.setPart_outCores (s : State) (x : Part) : (s.setPart x).outCores = s.outCores := rfl
@[simp] theorem State.setPart_net (s : State) (x : Part) : (s.setPart x).net = s.net := rfl
@[simp] theorem State.setPart_sync (s : State) (x : Part) : (s.setPart x).sync = s.sync := rfl
@[simp] theorem State.setPart_groups (s : State) (x : Part) : (s.setPart x).groups = s.groups := rfl
@[simp] theorem State.setPart_coll (s : State) (x : Part) : (s.setPart x).coll = s.coll := rfl
@[simp] theorem State.setPart_ferries (s : State) (x : Part) : (s.setPart x).ferries = s.ferries := rfl
@[simp] theorem State.setPart_charts (s : State) (x : Part) : (s.setPart x).charts = s.charts := rfl
@[simp] theorem State.setPart_gradCarry (s : State) (x : Part) : (s.setPart x).gradCarry = s.gradCarry := rfl
@[simp] theorem State.setPart_redCarry (s : State) (x : Part) : (s.setPart x).redCarry = s.redCarry := rfl
@[simp] theorem State.setPart_tbl (s : State) (x : Part) : (s.setPart x).tbl = s.tbl := rfl
@[simp] theorem State.setPart_shoal (s : State) (x : Part) : (s.setPart x).shoal = s.shoal := rfl
@[simp] theorem State.setPart_graph (s : State) (x : Part) : (s.setPart x).graph = s.graph := rfl
@[simp] theorem State.setPart_vus (s : State) (x : Part) : (s.setPart x).vus = s.vus := rfl
@[simp] theorem State.setPart_accs (s : State) (x : Part) : (s.setPart x).accs = s.accs := rfl
@[simp] theorem State.setPart_boot (s : State) (x : Part) : (s.setPart x).boot = s.boot := rfl
@[simp] theorem State.setPart_outbox (s : State) (x : Part) : (s.setPart x).outbox = s.outbox := rfl

/-! ### modPart -/

@[simp] theorem State.modPart_pending (s : State) (p : Nat) (f : Part → Part) : (s.modPart p f).pending = s.pending := rfl
@[simp] theorem State.modPart_hard (s : State) (p : Nat) (f : Part → Part) : (s.modPart p f).hard = s.hard := rfl
@[simp] theorem State.modPart_fresh (s : State) (p : Nat) (f : Part → Part) : (s.modPart p f).fresh = s.fresh := rfl
@[simp] theorem State.modPart_regs (s : State) (p : Nat) (f : Part → Part) : (s.modPart p f).regs = s.regs := rfl
@[simp] theorem State.modPart_mem (s : State) (p : Nat) (f : Part → Part) : (s.modPart p f).mem = s.mem := rfl
@[simp] theorem State.modPart_poison (s : State) (p : Nat) (f : Part → Part) : (s.modPart p f).poison = s.poison := rfl
@[simp] theorem State.modPart_frm (s : State) (p : Nat) (f : Part → Part) : (s.modPart p f).frm = s.frm := rfl
@[simp] theorem State.modPart_evt (s : State) (p : Nat) (f : Part → Part) : (s.modPart p f).evt = s.evt := rfl
@[simp] theorem State.modPart_ctxs (s : State) (p : Nat) (f : Part → Part) : (s.modPart p f).ctxs = s.ctxs := rfl
@[simp] theorem State.modPart_ops (s : State) (p : Nat) (f : Part → Part) : (s.modPart p f).ops = s.ops := rfl
@[simp] theorem State.modPart_nextSeq (s : State) (p : Nat) (f : Part → Part) : (s.modPart p f).nextSeq = s.nextSeq := rfl
@[simp] theorem State.modPart_host (s : State) (p : Nat) (f : Part → Part) : (s.modPart p f).host = s.host := rfl
@[simp] theorem State.modPart_pwr (s : State) (p : Nat) (f : Part → Part) : (s.modPart p f).pwr = s.pwr := rfl
@[simp] theorem State.modPart_hbm (s : State) (p : Nat) (f : Part → Part) : (s.modPart p f).hbm = s.hbm := rfl
@[simp] theorem State.modPart_tasks (s : State) (p : Nat) (f : Part → Part) : (s.modPart p f).tasks = s.tasks := rfl
@[simp] theorem State.modPart_charged (s : State) (p : Nat) (f : Part → Part) : (s.modPart p f).charged = s.charged := rfl
@[simp] theorem State.modPart_absent (s : State) (p : Nat) (f : Part → Part) : (s.modPart p f).absent = s.absent := rfl
@[simp] theorem State.modPart_l0 (s : State) (p : Nat) (f : Part → Part) : (s.modPart p f).l0 = s.l0 := rfl
@[simp] theorem State.modPart_outCores (s : State) (p : Nat) (f : Part → Part) : (s.modPart p f).outCores = s.outCores := rfl
@[simp] theorem State.modPart_net (s : State) (p : Nat) (f : Part → Part) : (s.modPart p f).net = s.net := rfl
@[simp] theorem State.modPart_sync (s : State) (p : Nat) (f : Part → Part) : (s.modPart p f).sync = s.sync := rfl
@[simp] theorem State.modPart_groups (s : State) (p : Nat) (f : Part → Part) : (s.modPart p f).groups = s.groups := rfl
@[simp] theorem State.modPart_coll (s : State) (p : Nat) (f : Part → Part) : (s.modPart p f).coll = s.coll := rfl
@[simp] theorem State.modPart_ferries (s : State) (p : Nat) (f : Part → Part) : (s.modPart p f).ferries = s.ferries := rfl
@[simp] theorem State.modPart_charts (s : State) (p : Nat) (f : Part → Part) : (s.modPart p f).charts = s.charts := rfl
@[simp] theorem State.modPart_gradCarry (s : State) (p : Nat) (f : Part → Part) : (s.modPart p f).gradCarry = s.gradCarry := rfl
@[simp] theorem State.modPart_redCarry (s : State) (p : Nat) (f : Part → Part) : (s.modPart p f).redCarry = s.redCarry := rfl
@[simp] theorem State.modPart_tbl (s : State) (p : Nat) (f : Part → Part) : (s.modPart p f).tbl = s.tbl := rfl
@[simp] theorem State.modPart_shoal (s : State) (p : Nat) (f : Part → Part) : (s.modPart p f).shoal = s.shoal := rfl
@[simp] theorem State.modPart_graph (s : State) (p : Nat) (f : Part → Part) : (s.modPart p f).graph = s.graph := rfl
@[simp] theorem State.modPart_vus (s : State) (p : Nat) (f : Part → Part) : (s.modPart p f).vus = s.vus := rfl
@[simp] theorem State.modPart_accs (s : State) (p : Nat) (f : Part → Part) : (s.modPart p f).accs = s.accs := rfl
@[simp] theorem State.modPart_boot (s : State) (p : Nat) (f : Part → Part) : (s.modPart p f).boot = s.boot := rfl
@[simp] theorem State.modPart_outbox (s : State) (p : Nat) (f : Part → Part) : (s.modPart p f).outbox = s.outbox := rfl

/-! ### setStrait -/

@[simp] theorem State.setStrait_pending (s : State) (n : Nat) (x : Strait) : (s.setStrait n x).pending = s.pending := rfl
@[simp] theorem State.setStrait_hard (s : State) (n : Nat) (x : Strait) : (s.setStrait n x).hard = s.hard := rfl
@[simp] theorem State.setStrait_fresh (s : State) (n : Nat) (x : Strait) : (s.setStrait n x).fresh = s.fresh := rfl
@[simp] theorem State.setStrait_regs (s : State) (n : Nat) (x : Strait) : (s.setStrait n x).regs = s.regs := rfl
@[simp] theorem State.setStrait_mem (s : State) (n : Nat) (x : Strait) : (s.setStrait n x).mem = s.mem := rfl
@[simp] theorem State.setStrait_poison (s : State) (n : Nat) (x : Strait) : (s.setStrait n x).poison = s.poison := rfl
@[simp] theorem State.setStrait_frm (s : State) (n : Nat) (x : Strait) : (s.setStrait n x).frm = s.frm := rfl
@[simp] theorem State.setStrait_evt (s : State) (n : Nat) (x : Strait) : (s.setStrait n x).evt = s.evt := rfl
@[simp] theorem State.setStrait_ctxs (s : State) (n : Nat) (x : Strait) : (s.setStrait n x).ctxs = s.ctxs := rfl
@[simp] theorem State.setStrait_ops (s : State) (n : Nat) (x : Strait) : (s.setStrait n x).ops = s.ops := rfl
@[simp] theorem State.setStrait_nextSeq (s : State) (n : Nat) (x : Strait) : (s.setStrait n x).nextSeq = s.nextSeq := rfl
@[simp] theorem State.setStrait_host (s : State) (n : Nat) (x : Strait) : (s.setStrait n x).host = s.host := rfl
@[simp] theorem State.setStrait_pwr (s : State) (n : Nat) (x : Strait) : (s.setStrait n x).pwr = s.pwr := rfl
@[simp] theorem State.setStrait_hbm (s : State) (n : Nat) (x : Strait) : (s.setStrait n x).hbm = s.hbm := rfl
@[simp] theorem State.setStrait_parts (s : State) (n : Nat) (x : Strait) : (s.setStrait n x).parts = s.parts := rfl
@[simp] theorem State.setStrait_tasks (s : State) (n : Nat) (x : Strait) : (s.setStrait n x).tasks = s.tasks := rfl
@[simp] theorem State.setStrait_charged (s : State) (n : Nat) (x : Strait) : (s.setStrait n x).charged = s.charged := rfl
@[simp] theorem State.setStrait_absent (s : State) (n : Nat) (x : Strait) : (s.setStrait n x).absent = s.absent := rfl
@[simp] theorem State.setStrait_l0 (s : State) (n : Nat) (x : Strait) : (s.setStrait n x).l0 = s.l0 := rfl
@[simp] theorem State.setStrait_outCores (s : State) (n : Nat) (x : Strait) : (s.setStrait n x).outCores = s.outCores := rfl
@[simp] theorem State.setStrait_sync (s : State) (n : Nat) (x : Strait) : (s.setStrait n x).sync = s.sync := rfl
@[simp] theorem State.setStrait_groups (s : State) (n : Nat) (x : Strait) : (s.setStrait n x).groups = s.groups := rfl
@[simp] theorem State.setStrait_coll (s : State) (n : Nat) (x : Strait) : (s.setStrait n x).coll = s.coll := rfl
@[simp] theorem State.setStrait_ferries (s : State) (n : Nat) (x : Strait) : (s.setStrait n x).ferries = s.ferries := rfl
@[simp] theorem State.setStrait_charts (s : State) (n : Nat) (x : Strait) : (s.setStrait n x).charts = s.charts := rfl
@[simp] theorem State.setStrait_gradCarry (s : State) (n : Nat) (x : Strait) : (s.setStrait n x).gradCarry = s.gradCarry := rfl
@[simp] theorem State.setStrait_redCarry (s : State) (n : Nat) (x : Strait) : (s.setStrait n x).redCarry = s.redCarry := rfl
@[simp] theorem State.setStrait_tbl (s : State) (n : Nat) (x : Strait) : (s.setStrait n x).tbl = s.tbl := rfl
@[simp] theorem State.setStrait_shoal (s : State) (n : Nat) (x : Strait) : (s.setStrait n x).shoal = s.shoal := rfl
@[simp] theorem State.setStrait_graph (s : State) (n : Nat) (x : Strait) : (s.setStrait n x).graph = s.graph := rfl
@[simp] theorem State.setStrait_vus (s : State) (n : Nat) (x : Strait) : (s.setStrait n x).vus = s.vus := rfl
@[simp] theorem State.setStrait_accs (s : State) (n : Nat) (x : Strait) : (s.setStrait n x).accs = s.accs := rfl
@[simp] theorem State.setStrait_boot (s : State) (n : Nat) (x : Strait) : (s.setStrait n x).boot = s.boot := rfl
@[simp] theorem State.setStrait_outbox (s : State) (n : Nat) (x : Strait) : (s.setStrait n x).outbox = s.outbox := rfl

/-! ### setFerry -/

@[simp] theorem State.setFerry_pending (s : State) (n : Nat) (x : Ferry) : (s.setFerry n x).pending = s.pending := rfl
@[simp] theorem State.setFerry_hard (s : State) (n : Nat) (x : Ferry) : (s.setFerry n x).hard = s.hard := rfl
@[simp] theorem State.setFerry_fresh (s : State) (n : Nat) (x : Ferry) : (s.setFerry n x).fresh = s.fresh := rfl
@[simp] theorem State.setFerry_regs (s : State) (n : Nat) (x : Ferry) : (s.setFerry n x).regs = s.regs := rfl
@[simp] theorem State.setFerry_mem (s : State) (n : Nat) (x : Ferry) : (s.setFerry n x).mem = s.mem := rfl
@[simp] theorem State.setFerry_poison (s : State) (n : Nat) (x : Ferry) : (s.setFerry n x).poison = s.poison := rfl
@[simp] theorem State.setFerry_frm (s : State) (n : Nat) (x : Ferry) : (s.setFerry n x).frm = s.frm := rfl
@[simp] theorem State.setFerry_evt (s : State) (n : Nat) (x : Ferry) : (s.setFerry n x).evt = s.evt := rfl
@[simp] theorem State.setFerry_ctxs (s : State) (n : Nat) (x : Ferry) : (s.setFerry n x).ctxs = s.ctxs := rfl
@[simp] theorem State.setFerry_ops (s : State) (n : Nat) (x : Ferry) : (s.setFerry n x).ops = s.ops := rfl
@[simp] theorem State.setFerry_nextSeq (s : State) (n : Nat) (x : Ferry) : (s.setFerry n x).nextSeq = s.nextSeq := rfl
@[simp] theorem State.setFerry_host (s : State) (n : Nat) (x : Ferry) : (s.setFerry n x).host = s.host := rfl
@[simp] theorem State.setFerry_pwr (s : State) (n : Nat) (x : Ferry) : (s.setFerry n x).pwr = s.pwr := rfl
@[simp] theorem State.setFerry_hbm (s : State) (n : Nat) (x : Ferry) : (s.setFerry n x).hbm = s.hbm := rfl
@[simp] theorem State.setFerry_parts (s : State) (n : Nat) (x : Ferry) : (s.setFerry n x).parts = s.parts := rfl
@[simp] theorem State.setFerry_tasks (s : State) (n : Nat) (x : Ferry) : (s.setFerry n x).tasks = s.tasks := rfl
@[simp] theorem State.setFerry_charged (s : State) (n : Nat) (x : Ferry) : (s.setFerry n x).charged = s.charged := rfl
@[simp] theorem State.setFerry_absent (s : State) (n : Nat) (x : Ferry) : (s.setFerry n x).absent = s.absent := rfl
@[simp] theorem State.setFerry_l0 (s : State) (n : Nat) (x : Ferry) : (s.setFerry n x).l0 = s.l0 := rfl
@[simp] theorem State.setFerry_outCores (s : State) (n : Nat) (x : Ferry) : (s.setFerry n x).outCores = s.outCores := rfl
@[simp] theorem State.setFerry_net (s : State) (n : Nat) (x : Ferry) : (s.setFerry n x).net = s.net := rfl
@[simp] theorem State.setFerry_sync (s : State) (n : Nat) (x : Ferry) : (s.setFerry n x).sync = s.sync := rfl
@[simp] theorem State.setFerry_groups (s : State) (n : Nat) (x : Ferry) : (s.setFerry n x).groups = s.groups := rfl
@[simp] theorem State.setFerry_coll (s : State) (n : Nat) (x : Ferry) : (s.setFerry n x).coll = s.coll := rfl
@[simp] theorem State.setFerry_charts (s : State) (n : Nat) (x : Ferry) : (s.setFerry n x).charts = s.charts := rfl
@[simp] theorem State.setFerry_gradCarry (s : State) (n : Nat) (x : Ferry) : (s.setFerry n x).gradCarry = s.gradCarry := rfl
@[simp] theorem State.setFerry_redCarry (s : State) (n : Nat) (x : Ferry) : (s.setFerry n x).redCarry = s.redCarry := rfl
@[simp] theorem State.setFerry_tbl (s : State) (n : Nat) (x : Ferry) : (s.setFerry n x).tbl = s.tbl := rfl
@[simp] theorem State.setFerry_shoal (s : State) (n : Nat) (x : Ferry) : (s.setFerry n x).shoal = s.shoal := rfl
@[simp] theorem State.setFerry_graph (s : State) (n : Nat) (x : Ferry) : (s.setFerry n x).graph = s.graph := rfl
@[simp] theorem State.setFerry_vus (s : State) (n : Nat) (x : Ferry) : (s.setFerry n x).vus = s.vus := rfl
@[simp] theorem State.setFerry_accs (s : State) (n : Nat) (x : Ferry) : (s.setFerry n x).accs = s.accs := rfl
@[simp] theorem State.setFerry_boot (s : State) (n : Nat) (x : Ferry) : (s.setFerry n x).boot = s.boot := rfl
@[simp] theorem State.setFerry_outbox (s : State) (n : Nat) (x : Ferry) : (s.setFerry n x).outbox = s.outbox := rfl

/-! ### setFch -/

@[simp] theorem State.setFch_pending (s : State) (f c : Nat) (x : FCh) : (s.setFch f c x).pending = s.pending := rfl
@[simp] theorem State.setFch_hard (s : State) (f c : Nat) (x : FCh) : (s.setFch f c x).hard = s.hard := rfl
@[simp] theorem State.setFch_fresh (s : State) (f c : Nat) (x : FCh) : (s.setFch f c x).fresh = s.fresh := rfl
@[simp] theorem State.setFch_regs (s : State) (f c : Nat) (x : FCh) : (s.setFch f c x).regs = s.regs := rfl
@[simp] theorem State.setFch_mem (s : State) (f c : Nat) (x : FCh) : (s.setFch f c x).mem = s.mem := rfl
@[simp] theorem State.setFch_poison (s : State) (f c : Nat) (x : FCh) : (s.setFch f c x).poison = s.poison := rfl
@[simp] theorem State.setFch_frm (s : State) (f c : Nat) (x : FCh) : (s.setFch f c x).frm = s.frm := rfl
@[simp] theorem State.setFch_evt (s : State) (f c : Nat) (x : FCh) : (s.setFch f c x).evt = s.evt := rfl
@[simp] theorem State.setFch_ctxs (s : State) (f c : Nat) (x : FCh) : (s.setFch f c x).ctxs = s.ctxs := rfl
@[simp] theorem State.setFch_ops (s : State) (f c : Nat) (x : FCh) : (s.setFch f c x).ops = s.ops := rfl
@[simp] theorem State.setFch_nextSeq (s : State) (f c : Nat) (x : FCh) : (s.setFch f c x).nextSeq = s.nextSeq := rfl
@[simp] theorem State.setFch_host (s : State) (f c : Nat) (x : FCh) : (s.setFch f c x).host = s.host := rfl
@[simp] theorem State.setFch_pwr (s : State) (f c : Nat) (x : FCh) : (s.setFch f c x).pwr = s.pwr := rfl
@[simp] theorem State.setFch_hbm (s : State) (f c : Nat) (x : FCh) : (s.setFch f c x).hbm = s.hbm := rfl
@[simp] theorem State.setFch_parts (s : State) (f c : Nat) (x : FCh) : (s.setFch f c x).parts = s.parts := rfl
@[simp] theorem State.setFch_tasks (s : State) (f c : Nat) (x : FCh) : (s.setFch f c x).tasks = s.tasks := rfl
@[simp] theorem State.setFch_charged (s : State) (f c : Nat) (x : FCh) : (s.setFch f c x).charged = s.charged := rfl
@[simp] theorem State.setFch_absent (s : State) (f c : Nat) (x : FCh) : (s.setFch f c x).absent = s.absent := rfl
@[simp] theorem State.setFch_l0 (s : State) (f c : Nat) (x : FCh) : (s.setFch f c x).l0 = s.l0 := rfl
@[simp] theorem State.setFch_outCores (s : State) (f c : Nat) (x : FCh) : (s.setFch f c x).outCores = s.outCores := rfl
@[simp] theorem State.setFch_net (s : State) (f c : Nat) (x : FCh) : (s.setFch f c x).net = s.net := rfl
@[simp] theorem State.setFch_sync (s : State) (f c : Nat) (x : FCh) : (s.setFch f c x).sync = s.sync := rfl
@[simp] theorem State.setFch_groups (s : State) (f c : Nat) (x : FCh) : (s.setFch f c x).groups = s.groups := rfl
@[simp] theorem State.setFch_coll (s : State) (f c : Nat) (x : FCh) : (s.setFch f c x).coll = s.coll := rfl
@[simp] theorem State.setFch_charts (s : State) (f c : Nat) (x : FCh) : (s.setFch f c x).charts = s.charts := rfl
@[simp] theorem State.setFch_gradCarry (s : State) (f c : Nat) (x : FCh) : (s.setFch f c x).gradCarry = s.gradCarry := rfl
@[simp] theorem State.setFch_redCarry (s : State) (f c : Nat) (x : FCh) : (s.setFch f c x).redCarry = s.redCarry := rfl
@[simp] theorem State.setFch_tbl (s : State) (f c : Nat) (x : FCh) : (s.setFch f c x).tbl = s.tbl := rfl
@[simp] theorem State.setFch_shoal (s : State) (f c : Nat) (x : FCh) : (s.setFch f c x).shoal = s.shoal := rfl
@[simp] theorem State.setFch_graph (s : State) (f c : Nat) (x : FCh) : (s.setFch f c x).graph = s.graph := rfl
@[simp] theorem State.setFch_vus (s : State) (f c : Nat) (x : FCh) : (s.setFch f c x).vus = s.vus := rfl
@[simp] theorem State.setFch_accs (s : State) (f c : Nat) (x : FCh) : (s.setFch f c x).accs = s.accs := rfl
@[simp] theorem State.setFch_boot (s : State) (f c : Nat) (x : FCh) : (s.setFch f c x).boot = s.boot := rfl
@[simp] theorem State.setFch_outbox (s : State) (f c : Nat) (x : FCh) : (s.setFch f c x).outbox = s.outbox := rfl

/-! ### setPhase -/

@[simp] theorem State.setPhase_pending (s : State) (p : Phase) : (s.setPhase p).pending = s.pending := rfl
@[simp] theorem State.setPhase_hard (s : State) (p : Phase) : (s.setPhase p).hard = s.hard := rfl
@[simp] theorem State.setPhase_fresh (s : State) (p : Phase) : (s.setPhase p).fresh = s.fresh := rfl
@[simp] theorem State.setPhase_regs (s : State) (p : Phase) : (s.setPhase p).regs = s.regs := rfl
@[simp] theorem State.setPhase_mem (s : State) (p : Phase) : (s.setPhase p).mem = s.mem := rfl
@[simp] theorem State.setPhase_poison (s : State) (p : Phase) : (s.setPhase p).poison = s.poison := rfl
@[simp] theorem State.setPhase_evt (s : State) (p : Phase) : (s.setPhase p).evt = s.evt := rfl
@[simp] theorem State.setPhase_ctxs (s : State) (p : Phase) : (s.setPhase p).ctxs = s.ctxs := rfl
@[simp] theorem State.setPhase_ops (s : State) (p : Phase) : (s.setPhase p).ops = s.ops := rfl
@[simp] theorem State.setPhase_nextSeq (s : State) (p : Phase) : (s.setPhase p).nextSeq = s.nextSeq := rfl
@[simp] theorem State.setPhase_host (s : State) (p : Phase) : (s.setPhase p).host = s.host := rfl
@[simp] theorem State.setPhase_pwr (s : State) (p : Phase) : (s.setPhase p).pwr = s.pwr := rfl
@[simp] theorem State.setPhase_hbm (s : State) (p : Phase) : (s.setPhase p).hbm = s.hbm := rfl
@[simp] theorem State.setPhase_parts (s : State) (p : Phase) : (s.setPhase p).parts = s.parts := rfl
@[simp] theorem State.setPhase_tasks (s : State) (p : Phase) : (s.setPhase p).tasks = s.tasks := rfl
@[simp] theorem State.setPhase_charged (s : State) (p : Phase) : (s.setPhase p).charged = s.charged := rfl
@[simp] theorem State.setPhase_absent (s : State) (p : Phase) : (s.setPhase p).absent = s.absent := rfl
@[simp] theorem State.setPhase_l0 (s : State) (p : Phase) : (s.setPhase p).l0 = s.l0 := rfl
@[simp] theorem State.setPhase_outCores (s : State) (p : Phase) : (s.setPhase p).outCores = s.outCores := rfl
@[simp] theorem State.setPhase_net (s : State) (p : Phase) : (s.setPhase p).net = s.net := rfl
@[simp] theorem State.setPhase_sync (s : State) (p : Phase) : (s.setPhase p).sync = s.sync := rfl
@[simp] theorem State.setPhase_groups (s : State) (p : Phase) : (s.setPhase p).groups = s.groups := rfl
@[simp] theorem State.setPhase_coll (s : State) (p : Phase) : (s.setPhase p).coll = s.coll := rfl
@[simp] theorem State.setPhase_ferries (s : State) (p : Phase) : (s.setPhase p).ferries = s.ferries := rfl
@[simp] theorem State.setPhase_charts (s : State) (p : Phase) : (s.setPhase p).charts = s.charts := rfl
@[simp] theorem State.setPhase_gradCarry (s : State) (p : Phase) : (s.setPhase p).gradCarry = s.gradCarry := rfl
@[simp] theorem State.setPhase_redCarry (s : State) (p : Phase) : (s.setPhase p).redCarry = s.redCarry := rfl
@[simp] theorem State.setPhase_tbl (s : State) (p : Phase) : (s.setPhase p).tbl = s.tbl := rfl
@[simp] theorem State.setPhase_shoal (s : State) (p : Phase) : (s.setPhase p).shoal = s.shoal := rfl
@[simp] theorem State.setPhase_graph (s : State) (p : Phase) : (s.setPhase p).graph = s.graph := rfl
@[simp] theorem State.setPhase_vus (s : State) (p : Phase) : (s.setPhase p).vus = s.vus := rfl
@[simp] theorem State.setPhase_accs (s : State) (p : Phase) : (s.setPhase p).accs = s.accs := rfl
@[simp] theorem State.setPhase_boot (s : State) (p : Phase) : (s.setPhase p).boot = s.boot := rfl
@[simp] theorem State.setPhase_outbox (s : State) (p : Phase) : (s.setPhase p).outbox = s.outbox := rfl

/-! ### vuDo -/

@[simp] theorem State.vuDo_pending (s : State) (core : Nat) (f : Vu → Vu) : (s.vuDo core f).pending = s.pending := rfl
@[simp] theorem State.vuDo_hard (s : State) (core : Nat) (f : Vu → Vu) : (s.vuDo core f).hard = s.hard := rfl
@[simp] theorem State.vuDo_fresh (s : State) (core : Nat) (f : Vu → Vu) : (s.vuDo core f).fresh = s.fresh := rfl
@[simp] theorem State.vuDo_regs (s : State) (core : Nat) (f : Vu → Vu) : (s.vuDo core f).regs = s.regs := rfl
@[simp] theorem State.vuDo_mem (s : State) (core : Nat) (f : Vu → Vu) : (s.vuDo core f).mem = s.mem := rfl
@[simp] theorem State.vuDo_poison (s : State) (core : Nat) (f : Vu → Vu) : (s.vuDo core f).poison = s.poison := rfl
@[simp] theorem State.vuDo_frm (s : State) (core : Nat) (f : Vu → Vu) : (s.vuDo core f).frm = s.frm := rfl
@[simp] theorem State.vuDo_evt (s : State) (core : Nat) (f : Vu → Vu) : (s.vuDo core f).evt = s.evt := rfl
@[simp] theorem State.vuDo_ctxs (s : State) (core : Nat) (f : Vu → Vu) : (s.vuDo core f).ctxs = s.ctxs := rfl
@[simp] theorem State.vuDo_ops (s : State) (core : Nat) (f : Vu → Vu) : (s.vuDo core f).ops = s.ops := rfl
@[simp] theorem State.vuDo_nextSeq (s : State) (core : Nat) (f : Vu → Vu) : (s.vuDo core f).nextSeq = s.nextSeq := rfl
@[simp] theorem State.vuDo_host (s : State) (core : Nat) (f : Vu → Vu) : (s.vuDo core f).host = s.host := rfl
@[simp] theorem State.vuDo_pwr (s : State) (core : Nat) (f : Vu → Vu) : (s.vuDo core f).pwr = s.pwr := rfl
@[simp] theorem State.vuDo_hbm (s : State) (core : Nat) (f : Vu → Vu) : (s.vuDo core f).hbm = s.hbm := rfl
@[simp] theorem State.vuDo_parts (s : State) (core : Nat) (f : Vu → Vu) : (s.vuDo core f).parts = s.parts := rfl
@[simp] theorem State.vuDo_tasks (s : State) (core : Nat) (f : Vu → Vu) : (s.vuDo core f).tasks = s.tasks := rfl
@[simp] theorem State.vuDo_charged (s : State) (core : Nat) (f : Vu → Vu) : (s.vuDo core f).charged = s.charged := rfl
@[simp] theorem State.vuDo_absent (s : State) (core : Nat) (f : Vu → Vu) : (s.vuDo core f).absent = s.absent := rfl
@[simp] theorem State.vuDo_l0 (s : State) (core : Nat) (f : Vu → Vu) : (s.vuDo core f).l0 = s.l0 := rfl
@[simp] theorem State.vuDo_outCores (s : State) (core : Nat) (f : Vu → Vu) : (s.vuDo core f).outCores = s.outCores := rfl
@[simp] theorem State.vuDo_net (s : State) (core : Nat) (f : Vu → Vu) : (s.vuDo core f).net = s.net := rfl
@[simp] theorem State.vuDo_sync (s : State) (core : Nat) (f : Vu → Vu) : (s.vuDo core f).sync = s.sync := rfl
@[simp] theorem State.vuDo_groups (s : State) (core : Nat) (f : Vu → Vu) : (s.vuDo core f).groups = s.groups := rfl
@[simp] theorem State.vuDo_coll (s : State) (core : Nat) (f : Vu → Vu) : (s.vuDo core f).coll = s.coll := rfl
@[simp] theorem State.vuDo_ferries (s : State) (core : Nat) (f : Vu → Vu) : (s.vuDo core f).ferries = s.ferries := rfl
@[simp] theorem State.vuDo_charts (s : State) (core : Nat) (f : Vu → Vu) : (s.vuDo core f).charts = s.charts := rfl
@[simp] theorem State.vuDo_gradCarry (s : State) (core : Nat) (f : Vu → Vu) : (s.vuDo core f).gradCarry = s.gradCarry := rfl
@[simp] theorem State.vuDo_redCarry (s : State) (core : Nat) (f : Vu → Vu) : (s.vuDo core f).redCarry = s.redCarry := rfl
@[simp] theorem State.vuDo_tbl (s : State) (core : Nat) (f : Vu → Vu) : (s.vuDo core f).tbl = s.tbl := rfl
@[simp] theorem State.vuDo_shoal (s : State) (core : Nat) (f : Vu → Vu) : (s.vuDo core f).shoal = s.shoal := rfl
@[simp] theorem State.vuDo_graph (s : State) (core : Nat) (f : Vu → Vu) : (s.vuDo core f).graph = s.graph := rfl
@[simp] theorem State.vuDo_boot (s : State) (core : Nat) (f : Vu → Vu) : (s.vuDo core f).boot = s.boot := rfl
@[simp] theorem State.vuDo_accs (s : State) (core : Nat) (f : Vu → Vu) : (s.vuDo core f).accs = s.accs := rfl
@[simp] theorem State.vuDo_outbox (s : State) (core : Nat) (f : Vu → Vu) : (s.vuDo core f).outbox = s.outbox := rfl

end Sys2Proof.Machine
end

