-- ==== Sys2Proof/Laws/Store.lean ====
section
/-! SUPPORT. Laws of the sparse stores and of the canonical form of memory. -/

namespace Sys2Proof.Machine

/-! ### Reading back -/

@[simp] theorem sget_sput_same {α : Type} (k : Nat) (v : α) (l : List (Nat × α)) : sget k (sput k v l) = some v := by
  induction l with
  | nil => simp [sput, sget]
  | cons c r ih =>
    obtain ⟨j, w⟩ := c
    simp only [sput]
    split
    · simp [sget]
    · split
      · simp [sget]
      · simp [sget, *]

theorem sget_sput_ne {α : Type} {j k : Nat} (h : j ≠ k) (v : α) (l : List (Nat × α)) : sget j (sput k v l) = sget j l := by
  induction l with
  | nil => simp [sput, sget, h]
  | cons c r ih =>
    obtain ⟨i, w⟩ := c
    simp only [sput]
    split
    · simp [sget, h]
    · split
      · subst_vars; simp [sget, h]
      · simp [sget, ih]

@[simp] theorem sget_sdel_same {α : Type} (k : Nat) (l : List (Nat × α)) : sget k (sdel k l) = none := by
  induction l with
  | nil => rfl
  | cons c r ih =>
    obtain ⟨i, w⟩ := c
    by_cases hi : i = k
    · subst hi; simpa [sdel] using ih
    · simpa [sdel, sget, hi, Ne.symm hi] using ih

theorem sget_sdel_ne {α : Type} {j k : Nat} (h : j ≠ k) (l : List (Nat × α)) : sget j (sdel k l) = sget j l := by
  induction l with
  | nil => rfl
  | cons c r ih =>
    obtain ⟨i, w⟩ := c
    by_cases hi : i = k
    · subst hi; simpa [sdel, sget, h] using ih
    · simp only [sdel, List.filter_cons, bne_iff_ne, ne_eq, hi, not_false_eq_true, if_true, sget]
      simp only [sdel] at ih
      rw [ih]

/-- A byte reads back as it was written, and every other byte as before. -/
theorem memRd_memWr (m : List Host.Cell) (j k : Nat) (b : Byte) : memRd (memWr m k b) j = if j = k then b else memRd m j := by
  unfold memRd memWr sgetD
  by_cases h : j = k
  · subst h
    rw [if_pos rfl]
    split
    · subst_vars; simp
    · simp
  · rw [if_neg h]
    split
    · rw [sget_sdel_ne h]
    · rw [sget_sput_ne h]

/-- A run of bytes reads back as it was written, and every byte outside it as before. -/
theorem memRd_memWrL (bs : List Byte) (m : List Host.Cell) (j k : Nat) :
    memRd (memWrL m k bs) j = if k ≤ j ∧ j < k + bs.length then nthD bs (j - k) 0 else memRd m j := by
  induction bs generalizing m k with
  | nil => rw [if_neg (by simp only [List.length_nil]; omega)]; rfl
  | cons b bs ih =>
    rw [memWrL, ih, memRd_memWr]
    by_cases h1 : k + 1 ≤ j ∧ j < k + 1 + bs.length
    · rw [if_pos h1, if_pos (by simp; omega)]
      have : j - k = (j - (k + 1)) + 1 := by omega
      rw [this]; simp [nthD]
    · rw [if_neg h1]
      by_cases h2 : j = k
      · subst h2; simp [nthD]
      · rw [if_neg h2, if_neg (by simp; omega)]

/-! ### Rising keys -/

theorem rising_cons {α : Type} (c : Nat × α) (l : List (Nat × α)) :
    rising (c :: l) = true ↔ (∀ d ∈ l, c.1 < d.1) ∧ rising l = true := by
  induction l generalizing c with
  | nil => simp [rising]
  | cons d r ih =>
    obtain ⟨a, x⟩ := c; obtain ⟨b, y⟩ := d
    simp only [rising, Bool.and_eq_true, decide_eq_true_eq, List.forall_mem_cons]
    constructor
    · rintro ⟨h, hr⟩
      refine ⟨⟨h, fun e he => ?_⟩, hr⟩
      exact Nat.lt_trans h (((ih (b, y)).1 hr).1 e he)
    · rintro ⟨⟨h, -⟩, hr⟩; exact ⟨h, hr⟩

theorem rising_filter {α : Type} (p : Nat × α → Bool) (l : List (Nat × α)) (h : rising l = true) : rising (l.filter p) = true := by
  induction l with
  | nil => rfl
  | cons c r ih =>
    obtain ⟨h1, h2⟩ := (rising_cons c r).1 h
    by_cases hp : p c
    · rw [List.filter_cons_of_pos hp]
      exact (rising_cons c _).2 ⟨fun d hd => h1 d ((List.mem_filter.1 hd).1), ih h2⟩
    · rw [List.filter_cons_of_neg hp]; exact ih h2

theorem rising_sdel {α : Type} (k : Nat) (l : List (Nat × α)) (h : rising l = true) : rising (sdel k l) = true :=
  rising_filter _ l h

theorem mem_sput {α : Type} {k : Nat} {v : α} {l : List (Nat × α)} {d : Nat × α} (h : d ∈ sput k v l) : d = (k, v) ∨ d ∈ l := by
  induction l with
  | nil => simp [sput] at h; exact .inl h
  | cons c r ih =>
    obtain ⟨j, w⟩ := c
    simp only [sput] at h
    split at h
    · simpa using h
    · split at h
      · rcases List.mem_cons.1 h with h | h
        · exact .inl h
        · exact .inr (List.mem_cons_of_mem _ h)
      · rcases List.mem_cons.1 h with h | h
        · exact .inr (h ▸ List.mem_cons_self)
        · rcases ih h with h | h
          · exact .inl h
          · exact .inr (List.mem_cons_of_mem _ h)

theorem rising_sput {α : Type} (k : Nat) (v : α) (l : List (Nat × α)) (h : rising l = true) : rising (sput k v l) = true := by
  induction l with
  | nil => rfl
  | cons c r ih =>
    obtain ⟨j, w⟩ := c
    obtain ⟨h1, h2⟩ := (rising_cons (j, w) r).1 h
    simp only [sput]
    split
    · rename_i hk
      refine (rising_cons _ _).2 ⟨fun d hd => ?_, h⟩
      rcases List.mem_cons.1 hd with hd | hd
      · exact hd ▸ hk
      · exact Nat.lt_trans hk (h1 d hd)
    · split
      · rename_i hk
        exact (rising_cons _ _).2 ⟨fun d hd => hk ▸ h1 d hd, h2⟩
      · rename_i hn he
        refine (rising_cons _ _).2 ⟨fun d hd => ?_, ih h2⟩
        rcases mem_sput hd with hd | hd
        · subst hd; simp only; omega
        · exact h1 d hd

/-! ### The canonical form of memory -/

theorem memWf_iff (m : List Host.Cell) : memWf m = true ↔ rising m = true ∧ ∀ c ∈ m, c.2 ≠ 0 := by
  simp [memWf]

theorem memWf_filter (p : Host.Cell → Bool) (m : List Host.Cell) (h : memWf m = true) : memWf (m.filter p) = true := by
  rw [memWf_iff] at *
  exact ⟨rising_filter p m h.1, fun c hc => h.2 c ((List.mem_filter.1 hc).1)⟩

/-- Writing a byte keeps the canonical form. -/
theorem memWf_memWr (m : List Host.Cell) (k : Nat) (b : Byte) (h : memWf m = true) : memWf (memWr m k b) = true := by
  unfold memWr
  split
  · exact memWf_filter _ m h
  · rename_i hb
    rw [memWf_iff] at *
    refine ⟨rising_sput k b m h.1, fun c hc => ?_⟩
    rcases mem_sput hc with hc | hc
    · subst hc; exact hb
    · exact h.2 c hc

theorem memWf_memWrL (bs : List Byte) (m : List Host.Cell) (k : Nat) (h : memWf m = true) : memWf (memWrL m k bs) = true := by
  induction bs generalizing m k with
  | nil => exact h
  | cons b bs ih => exact ih _ _ (memWf_memWr m k b h)

theorem memWf_kWrFenced (s : State) (bs : List Byte) (m : List Host.Cell) (k : Nat) (h : memWf m = true) :
    memWf (s.kWrFenced k bs m) = true := by
  induction bs generalizing m k with
  | nil => exact h
  | cons b bs ih =>
    refine ih _ _ ?_
    split
    · exact h
    · exact memWf_memWr m k b h

/-- Every write to memory keeps the canonical form. -/
theorem memWf_kWr (s : State) (k : Nat) (bs : List Byte) (h : memWf s.mem = true) : memWf (s.kWr k bs).mem = true := by
  simp only [State.kWr]
  split
  · exact memWf_memWrL bs s.mem k h
  · exact memWf_kWrFenced s bs s.mem k h

/-- The memory after reset has the canonical form. -/
theorem memWf_reset : memWf State.reset.mem = true := rfl

/-- Reading back a write, where no channel is fenced. -/
theorem memRd_kWr (s : State) (k j : Nat) (bs : List Byte) (h : s.hbm.fenced = []) :
    memRd (s.kWr k bs).mem j = if k ≤ j ∧ j < k + bs.length then nthD bs (j - k) 0 else memRd s.mem j := by
  simp [State.kWr, h, memRd_memWrL]

/-- Bytes outside a write read as before, fenced channels or not. -/
theorem memRd_kWr_outside (s : State) (k j : Nat) (bs : List Byte) (h : j < k ∨ k + bs.length ≤ j) :
    memRd (s.kWr k bs).mem j = memRd s.mem j := by
  have fence : ∀ (bs : List Byte) (m : List Host.Cell) (k : Nat), (j < k ∨ k + bs.length ≤ j) → memRd (s.kWrFenced k bs m) j = memRd m j := by
    intro bs
    induction bs with
    | nil => intro m k _; rfl
    | cons b bs ih =>
      intro m k h
      simp only [List.length_cons] at h
      rw [State.kWrFenced, ih _ _ (by omega)]
      split
      · rfl
      · rw [memRd_memWr, if_neg (by omega)]
  simp only [State.kWr]
  split
  · rw [memRd_memWrL, if_neg (by omega)]
  · exact fence bs s.mem k h

/-! ### Bytes and numbers -/

@[simp] theorem toLe_length (n v : Nat) : (toLe n v).length = n := by
  induction n generalizing v with
  | zero => rfl
  | succ n ih => simp [toLe, ih]

/-- A number spelled in `n` bytes reads back modulo 2^(8n). -/
theorem leBytes_toLe (n v : Nat) : leBytes (toLe n v) = v % 256 ^ n := by
  induction n generalizing v with
  | zero => simp [toLe, leBytes, Nat.mod_one]
  | succ n ih =>
    simp only [toLe, leBytes, ih, BitVec.toNat_ofNat]
    have : v % 256 ^ (n + 1) = v % 256 + 256 * (v / 256 % 256 ^ n) := by
      rw [Nat.pow_succ, Nat.mul_comm (256 ^ n) 256, Nat.mod_mul]
    omega

end Sys2Proof.Machine
end

