-- ==== Sys2Proof/Laws/Regs.lean ====
section
/-! SUPPORT. Laws of registers and their fields. -/

namespace Sys2Proof.Machine

/-! ### Fields of a number -/

theorem bitsN_le (v lo w : Nat) : bitsN v lo w * 2 ^ lo ≤ v := by
  unfold bitsN
  calc v / 2 ^ lo % 2 ^ w * 2 ^ lo ≤ v / 2 ^ lo * 2 ^ lo := Nat.mul_le_mul_right _ (Nat.mod_le _ _)
    _ ≤ v := Nat.div_mul_le_self _ _

/-- A number is what lies above a field, the field, and what lies below it. -/
theorem split_field (v lo w : Nat) : v = v / 2 ^ (lo + w) * 2 ^ (lo + w) + bitsN v lo w * 2 ^ lo + v % 2 ^ lo := by
  have h1 := Nat.div_add_mod v (2 ^ lo)
  have h2 := Nat.div_add_mod (v / 2 ^ lo) (2 ^ w)
  rw [Nat.div_div_eq_div_mul, ← Nat.pow_add] at h2
  unfold bitsN
  have h3 : v / 2 ^ lo * 2 ^ lo = v / 2 ^ (lo + w) * 2 ^ (lo + w) + v / 2 ^ lo % 2 ^ w * 2 ^ lo := by
    conv => lhs; rw [← h2]
    rw [Nat.add_mul, Nat.mul_comm (2 ^ w), Nat.mul_assoc, ← Nat.pow_add, Nat.add_comm w lo]
  rw [Nat.mul_comm] at h1
  omega

theorem putN_eq (v lo w x : Nat) : putN v lo w x = v / 2 ^ (lo + w) * 2 ^ (lo + w) + x % 2 ^ w * 2 ^ lo + v % 2 ^ lo := by
  have h := split_field v lo w
  unfold putN
  omega

theorem testBit_bitsN (v lo w i : Nat) : (bitsN v lo w).testBit i = (decide (i < w) && v.testBit (lo + i)) := by
  unfold bitsN
  rw [Nat.testBit_mod_two_pow, Nat.testBit_div_two_pow, Nat.add_comm i lo]

theorem testBit_putN (v lo w x i : Nat) :
    (putN v lo w x).testBit i = if lo ≤ i ∧ i < lo + w then x.testBit (i - lo) else v.testBit i := by
  have h0 : v % 2 ^ lo < 2 ^ lo := Nat.mod_lt _ (Nat.two_pow_pos lo)
  have hw : x % 2 ^ w < 2 ^ w := Nat.mod_lt _ (Nat.two_pow_pos w)
  have h1 : putN v lo w x = 2 ^ lo * (2 ^ w * (v / 2 ^ (lo + w)) + x % 2 ^ w) + v % 2 ^ lo := by
    rw [putN_eq, Nat.mul_add, ← Nat.mul_assoc, ← Nat.pow_add, Nat.mul_comm (2 ^ (lo + w)), Nat.mul_comm (2 ^ lo) (x % 2 ^ w)]
  rw [h1, Nat.testBit_two_pow_mul_add _ h0]
  by_cases hi : i < lo
  · rw [if_pos hi, if_neg (by omega), Nat.testBit_mod_two_pow]; simp [hi]
  · rw [if_neg hi, Nat.testBit_two_pow_mul_add _ hw]
    by_cases hj : i - lo < w
    · rw [if_pos hj, if_pos (by omega), Nat.testBit_mod_two_pow]; simp [hj]
    · rw [if_neg hj, if_neg (by omega), Nat.testBit_div_two_pow]
      congr 1; omega

/-- A field reads back as it was put. -/
theorem bitsN_putN (v lo w x : Nat) : bitsN (putN v lo w x) lo w = x % 2 ^ w := by
  apply Nat.eq_of_testBit_eq
  intro i
  rw [testBit_bitsN, testBit_putN, Nat.testBit_mod_two_pow]
  by_cases h : i < w
  · rw [if_pos (by omega)]; simp [h]
  · simp [h]

/-- Putting a field leaves every field that does not overlap it. -/
theorem bitsN_putN_ne (v lo w x lo' w' : Nat) (h : lo + w ≤ lo' ∨ lo' + w' ≤ lo) : bitsN (putN v lo w x) lo' w' = bitsN v lo' w' := by
  apply Nat.eq_of_testBit_eq
  intro i
  rw [testBit_bitsN, testBit_bitsN, testBit_putN]
  by_cases hi : i < w'
  · rw [if_neg (by omega)]
  · simp [hi]

theorem putN_lt (v lo w x : Nat) (hv : v < 2 ^ 64) (hw : lo + w ≤ 64) : putN v lo w x < 2 ^ 64 := by
  apply Nat.lt_pow_two_of_testBit
  intro i hi
  rw [testBit_putN, if_neg (by omega)]
  exact Nat.testBit_lt_two_pow (Nat.lt_of_lt_of_le hv (Nat.pow_le_pow_right (by decide) hi))

/-- A field of a register reads back as it was put. -/
theorem Fld.get_put (f : Fld) (v : Word) (x : Nat) (h : f.lo + f.w ≤ 64) : f.get (f.put v x) = x % 2 ^ f.w := by
  unfold Fld.get Fld.put
  rw [BitVec.toNat_ofNat, Nat.mod_eq_of_lt (putN_lt _ _ _ _ v.isLt h), bitsN_putN]

/-- A field that does not overlap the one that was put reads as before. -/
theorem Fld.get_put_ne (f g : Fld) (v : Word) (x : Nat) (h : f.lo + f.w ≤ 64) (hd : f.lo + f.w ≤ g.lo ∨ g.lo + g.w ≤ f.lo) :
    g.get (f.put v x) = g.get v := by
  unfold Fld.get Fld.put
  rw [BitVec.toNat_ofNat, Nat.mod_eq_of_lt (putN_lt _ _ _ _ v.isLt h), bitsN_putN_ne _ _ _ _ _ _ hd]

/-! ### Registers -/

/-- Whether a register has its home outside the register store. -/
def Reg.apart (r : Reg) : Bool := r = .devLock || r = .cswAddr || r = .devFw

theorem State.reg_plain (s : State) (r : Reg) (h : r.apart = false) : s.reg r = sgetD r.key r.reset s.regs := by
  cases r <;> first | rfl | simp [Reg.apart] at h

/-- A register reads back as it was set. -/
theorem State.reg_setReg (s : State) (r : Reg) (v : Word) (h : r.apart = false) : (s.setReg r v).reg r = v := by
  rw [State.reg_plain _ _ h]
  unfold State.setReg sgetD
  simp only
  split
  · subst_vars; simp
  · simp

/-- Setting a register leaves every register of another address. -/
theorem State.reg_setReg_ne (s : State) (r q : Reg) (v : Word) (h : q.key ≠ r.key) : (s.setReg r v).reg q = s.reg q := by
  have hs : sgetD q.key q.reset (s.setReg r v).regs = sgetD q.key q.reset s.regs := by
    unfold State.setReg sgetD
    simp only
    split
    · rw [sget_sdel_ne h]
    · rw [sget_sput_ne h]
  cases q <;> first | exact hs | rfl | (simp only [State.reg, hs]; rfl)

/-- A field reads back as it was set. -/
theorem State.fld_setFld (s : State) (r : Reg) (f : Fld) (x : Nat) (h : r.apart = false) (hw : f.lo + f.w ≤ 64) :
    (s.setFld r f x).fld r f = x % 2 ^ f.w := by
  unfold State.fld State.setFld
  rw [State.reg_setReg _ _ _ h, Fld.get_put _ _ _ hw]

/-- Setting a field leaves the register's other fields. -/
theorem State.fld_setFld_other (s : State) (r : Reg) (f g : Fld) (x : Nat) (h : r.apart = false) (hw : f.lo + f.w ≤ 64)
    (hd : f.lo + f.w ≤ g.lo ∨ g.lo + g.w ≤ f.lo) : (s.setFld r f x).fld r g = s.fld r g := by
  unfold State.fld State.setFld
  rw [State.reg_setReg _ _ _ h, Fld.get_put_ne _ _ _ _ hw hd]

/-- Setting a field leaves every field of another register. -/
theorem State.fld_setFld_ne (s : State) (r q : Reg) (f g : Fld) (x : Nat) (h : q.key ≠ r.key) : (s.setFld r f x).fld q g = s.fld q g := by
  unfold State.fld State.setFld
  rw [State.reg_setReg_ne _ _ _ _ h]

/-! ### What a command may change -/

@[simp] theorem State.onDev_hard (f : State → State) (s : State) : (s.onDev f).hard = s.hard := by
  unfold State.onDev; split <;> rfl

@[simp] theorem State.onDev_pending (f : State → State) (s : State) : (s.onDev f).pending = s.pending := by
  unfold State.onDev; split <;> rfl

@[simp] theorem State.onCsw_hard (f : State → State) (s : State) : (s.onCsw f).hard = s.hard := by
  unfold State.onCsw; split <;> rfl

@[simp] theorem State.onCsw_pending (f : State → State) (s : State) : (s.onCsw f).pending = s.pending := by
  unfold State.onCsw; split <;> rfl

theorem State.onDev_off (f : State → State) (s : State) (h : s.hard.rails = false) : s.onDev f = s := by
  unfold State.onDev; simp [h]

theorem State.onDev_on (f : State → State) (s : State) (h : s.hard.rails = true) :
    s.onDev f = { f s with hard := s.hard, pending := s.pending } := by
  unfold State.onDev; simp [h]

/-- An effect that keeps the hardware and the queue by itself is the whole effect on a powered package. -/
theorem State.onDev_eq (f : State → State) (s : State) (h : s.hard.rails = true) (h1 : (f s).hard = s.hard) (h2 : (f s).pending = s.pending) :
    s.onDev f = f s := by
  rw [State.onDev_on f s h, ← h1, ← h2]

end Sys2Proof.Machine
end

