-- ==== Sys2Proof/Laws/Events.lean ====
section
/-! SUPPORT. What setting registers and logging events can change: registers and the event logic, nothing else. -/

namespace Sys2Proof.Machine

/-- `t` differs from `s` in registers and event logic only. -/
def State.RegsEvt (s t : State) : Prop := t = { s with regs := t.regs, evt := t.evt }

theorem State.RegsEvt.refl (s : State) : s.RegsEvt s := rfl

theorem State.RegsEvt.trans {s t u : State} (h1 : s.RegsEvt t) (h2 : t.RegsEvt u) : s.RegsEvt u := by
  unfold State.RegsEvt at *
  rw [h2, h1]

theorem State.RegsEvt.ite {s t u : State} {c : Prop} [Decidable c] (h1 : s.RegsEvt t) (h2 : s.RegsEvt u) :
    s.RegsEvt (if c then t else u) := by
  split <;> assumption

theorem regsEvt_setReg (s : State) (r : Reg) (v : Word) : s.RegsEvt (s.setReg r v) := rfl

theorem regsEvt_setFld (s : State) (r : Reg) (f : Fld) (x : Nat) : s.RegsEvt (s.setFld r f x) := rfl

theorem regsEvt_evt (s : State) (e : EvtSt) : s.RegsEvt { s with evt := e } := rfl

theorem regsEvt_each {α : Type} (f : State → α → State) (hf : ∀ (s : State) a, s.RegsEvt (f s a)) (s : State) (l : List α) :
    s.RegsEvt (s.each l f) := by
  unfold State.each
  induction l generalizing s with
  | nil => exact State.RegsEvt.refl s
  | cons a l ih => exact (hf s a).trans (ih _)

theorem regsEvt_noteIdle (s : State) (src : Nat) : s.RegsEvt (s.noteIdle src) := rfl

theorem regsEvt_pend (s : State) (src : Nat) (b : Bool) : s.RegsEvt (s.pend src b) := by
  unfold State.pend
  exact ((regsEvt_setFld s _ _ _).trans (.ite (.refl _) (regsEvt_noteIdle _ _))).trans (regsEvt_evt _ _)

theorem regsEvt_unpend (s : State) (src : Nat) : s.RegsEvt (s.unpend src) := rfl

theorem regsEvt_pulse (s : State) (src : Nat) : s.RegsEvt (s.pulse src) := by
  unfold State.pulse
  exact .ite (.refl _) (.ite (regsEvt_pend _ _ _) (.ite (.refl _) (regsEvt_pend _ _ _)))

theorem regsEvt_relevel (s : State) (src : Nat) : s.RegsEvt (s.relevel src) := by
  unfold State.relevel
  refine State.RegsEvt.trans (t := s.setFld (.irqSrc src) F.irqSrc_LINE (if s.level src then 1 else 0)) (regsEvt_setFld s _ _ _) ?_
  exact .ite (.ite (.ite (.refl _) (regsEvt_pend _ _ _)) (.ite (regsEvt_unpend _ _) (.refl _))) (.ite (regsEvt_pend _ _ _) (.refl _))

theorem regsEvt_push (s : State) (e : Event) : s.RegsEvt (s.push e) :=
  (regsEvt_evt _ _).trans (regsEvt_setFld _ _ _ _)

theorem regsEvt_coalesce (s : State) (e : Event) : s.RegsEvt (s.coalesce e) :=
  (regsEvt_evt _ _).trans ((regsEvt_setFld _ _ _ _).trans ((regsEvt_setFld _ _ _ _).trans (regsEvt_setFld _ _ _ _)))

theorem regsEvt_recVisible (s : State) (l : List Nat) : s.RegsEvt (s.recVisible l) :=
  (regsEvt_each _ regsEvt_noteIdle s l).trans (regsEvt_evt _ _)

theorem regsEvt_endCoalescing (s : State) (c : Coalesce) : s.RegsEvt (s.endCoalescing c) := by
  unfold State.endCoalescing
  exact (regsEvt_evt _ _).trans ((regsEvt_setFld _ _ _ _).trans ((regsEvt_pulse _ _).trans
    (.ite (regsEvt_push _ _) (regsEvt_recVisible _ _))))

theorem regsEvt_emptied (s : State) : s.RegsEvt s.emptied := by
  unfold State.emptied
  split
  · exact .ite (regsEvt_endCoalescing _ _) (.refl _)
  · exact .refl _

theorem regsEvt_enqueue (s : State) (e : Event) : s.RegsEvt (s.enqueue e) := by
  unfold State.enqueue
  exact (regsEvt_emptied s).trans (.ite (regsEvt_coalesce _ _) (regsEvt_push _ _))

theorem regsEvt_event (s : State) (typ src : Nat) (c p : Option Nat) (d0 d : Nat) : s.RegsEvt (s.event typ src c p d0 d) := by
  unfold State.event
  exact (regsEvt_pulse s src).trans (.ite ((regsEvt_evt _ _).trans (regsEvt_enqueue _ _)) (.refl _))

theorem regsEvt_saturated (s : State) (r : Reg) (f : Fld) (b : Nat) : s.RegsEvt (s.saturated r f b) := by
  unfold State.saturated
  exact .ite (regsEvt_event _ _ _ _ _ _ _) (.refl _)

theorem regsEvt_satFld (s : State) (r : Reg) (f : Fld) (n : Nat) : s.RegsEvt (s.satFld r f n) :=
  (regsEvt_setFld s _ _ _).trans (regsEvt_saturated _ _ _ _)

theorem regsEvt_eventW (s : State) (typ src : Nat) (c p : Option Nat) (d0 d : Nat) : s.RegsEvt (s.eventW typ src c p d0 d) :=
  (regsEvt_event s typ src c p d0 d).trans ((regsEvt_saturated _ _ _ _).trans (regsEvt_saturated _ _ _ _))

theorem regsEvt_evtLevels (s : State) : s.RegsEvt s.evtLevels :=
  ((regsEvt_setFld s _ _ _).trans (regsEvt_relevel _ _)).trans (regsEvt_relevel _ _)

theorem regsEvt_plainWrite (s : State) (r : Reg) (v : Word) : s.RegsEvt (s.plainWrite r v) := by
  unfold State.plainWrite
  refine regsEvt_each _ (fun s f => ?_) s r.fields
  cases f.acc <;> first | exact .refl _ | exact regsEvt_setFld _ _ _ _ | exact .ite (regsEvt_setFld _ _ _ _) (.refl _)

/-- Memory, the queue and the hardware stay where only registers and event logic change. -/
theorem State.RegsEvt.keeps {s t : State} (h : s.RegsEvt t) :
    t.mem = s.mem ∧ t.pending = s.pending ∧ t.hard = s.hard ∧ t.frm = s.frm ∧ t.ctxs = s.ctxs ∧ t.ops = s.ops ∧ t.outbox = s.outbox
      ∧ t.boot = s.boot ∧ t.host = s.host ∧ t.net = s.net ∧ t.parts = s.parts := by
  rw [h]
  exact ⟨rfl, rfl, rfl, rfl, rfl, rfl, rfl, rfl, rfl, rfl, rfl⟩

end Sys2Proof.Machine
end

