-- ==== Sys2Proof/Laws/Cmd.lean ====
section
/-! SUPPORT. What each shape of a command does once its condition holds, and what reaching a time leaves as it was. -/

namespace Sys2Proof.Machine

/-! ### The shapes of commands -/

theorem State.onDev_congr {s : State} {f g : State → State} (h : f s = g s) : s.onDev f = s.onDev g := by
  unfold State.onDev; rw [h]

theorem State.onCsw_congr {s : State} {f g : State → State} (h : f s = g s) : s.onCsw f = s.onCsw g := by
  unfold State.onCsw; rw [h]

theorem State.onDev_same (s : State) : s.onDev (fun s => s) = s := by
  unfold State.onDev; split <;> rfl

theorem State.does_eq {s : State} {f g : State → State} (h : f s = g s) : s.does f = .next (s.onDev g) := by
  rw [State.does, State.onDev_congr h]

theorem State.doesIf_eq {s : State} {f g : State → State} {ok : Bool} (hk : ok = true) (h : f s = g s) :
    s.doesIf ok f = .next (s.onDev g) := by
  rw [State.doesIf, hk, if_pos rfl, State.onDev_congr h]

theorem State.does_pure {s t : State} {f : State → State} (hr : s.hard.rails = true) (h : f s = t) (h1 : t.hard = s.hard)
    (h2 : t.pending = s.pending) : s.does f = .next t := by
  subst h
  rw [State.does, State.onDev_eq _ _ hr h1 h2]

theorem State.doesIf_pure {s t : State} {f : State → State} {ok : Bool} (hk : ok = true) (hr : s.hard.rails = true) (h : f s = t)
    (h1 : t.hard = s.hard) (h2 : t.pending = s.pending) : s.doesIf ok f = .next t := by
  subst h
  rw [State.doesIf, hk, if_pos rfl, State.onDev_eq _ _ hr h1 h2]

/-- A write of software to a register without rules of the fuses, locks or package reset, once it is taken and not locked. -/
theorem State.regWrite_open (s : State) (r : Reg) (v : Word) (h : s.hard.rails = true) (ht : s.takes r = true)
    (hl : s.locked r = false) (h1 : r ≠ .devLock) (h2 : r ≠ .devReset) (h3 : r ≠ .devFwCtrl) :
    s.regWrite r v = s.onDev (fun s => s.regSet r v) := by
  cases r <;> simp_all [State.regWrite]

theorem State.takes_open (s : State) (r : Reg) (h : s.open_ = true) : s.takes r = true := by
  simp [State.takes, h]

/-! ### Reaching a time -/

@[simp] theorem State.reach_now (s : State) (t : Nat) : (s.reach t).frm.now = s.counterAfter (s.cyclesTo t) / 2 ^ 32 := by
  rw [State.reach, State.withFrm_frm]

/-- Enough whole steps of `k` from `c` come to at least `d`. -/
theorem le_cdiv_steps (d c k : Nat) (hk : 0 < k) : d ≤ c + cdiv (d - c) k * k := by
  have h := Nat.div_add_mod (d - c + k - 1) k
  have h2 := Nat.mod_lt (d - c + k - 1) hk
  rw [Nat.mul_comm] at h
  unfold cdiv
  omega

theorem State.le_counterAfter (s : State) (t : Nat) : t * 2 ^ 32 ≤ s.counterAfter (s.cyclesTo t) :=
  le_cdiv_steps _ _ _ (Nat.lt_of_lt_of_le Nat.zero_lt_one (Nat.le_max_left 1 _))

/-- System time has come at least as far as the time reached (R55). -/
theorem State.le_reach (s : State) (t : Nat) : t ≤ (s.reach t).frm.now := by
  rw [State.reach_now, Nat.le_div_iff_mul_le (by decide)]
  exact s.le_counterAfter t

/-- System time never runs backward (R55). -/
theorem State.now_le_reach (s : State) (t : Nat) : s.frm.now ≤ (s.reach t).frm.now := by
  rw [State.reach_now, Nat.le_div_iff_mul_le (by decide), State.counterAfter]
  omega

@[simp] theorem State.reach_reg (s : State) (t : Nat) (r : Reg) : (s.reach t).reg r = s.reg r := by
  simp [State.reg]
@[simp] theorem State.reach_inc (s : State) (t : Nat) : (s.reach t).frm.inc = s.frm.inc := by
  rw [State.reach, State.withFrm_frm]
@[simp] theorem State.reach_ta (s : State) (t : Nat) : (s.reach t).frm.ta = s.frm.ta := by
  rw [State.reach, State.withFrm_frm]
@[simp] theorem State.reach_na (s : State) (t : Nat) : (s.reach t).frm.na = s.frm.na := by
  rw [State.reach, State.withFrm_frm]
@[simp] theorem State.reach_started (s : State) (t : Nat) : (s.reach t).frm.started = s.frm.started := by
  rw [State.reach, State.withFrm_frm]
@[simp] theorem State.reach_stPeriod (s : State) (t : Nat) : (s.reach t).frm.stPeriod = s.frm.stPeriod := by
  rw [State.reach, State.withFrm_frm]
@[simp] theorem State.reach_stPhase (s : State) (t : Nat) : (s.reach t).frm.stPhase = s.frm.stPhase := by
  rw [State.reach, State.withFrm_frm]
@[simp] theorem State.reach_stepBy (s : State) (t : Nat) : (s.reach t).frm.stepBy = s.frm.stepBy := by
  rw [State.reach, State.withFrm_frm]
@[simp] theorem State.reach_good (s : State) (t : Nat) : (s.reach t).frm.good = s.frm.good := by
  rw [State.reach, State.withFrm_frm]
@[simp] theorem State.reach_heard (s : State) (t : Nat) : (s.reach t).frm.heard = s.frm.heard := by
  rw [State.reach, State.withFrm_frm]
@[simp] theorem State.reach_notices (s : State) (t : Nat) : (s.reach t).frm.notices = s.frm.notices := by
  rw [State.reach, State.withFrm_frm]
@[simp] theorem State.reach_fld (s : State) (t : Nat) (r : Reg) (f : Fld) : (s.reach t).fld r f = s.fld r f := by
  simp [State.fld]
@[simp] theorem State.reach_bit (s : State) (t : Nat) (r : Reg) (f : Fld) : (s.reach t).bit r f = s.bit r f := by
  simp [State.bit]
@[simp] theorem State.reach_phase (s : State) (t : Nat) : (s.reach t).frm.phase = s.frm.phase := by
  rw [State.reach, State.withFrm_frm]
@[simp] theorem State.reach_lastTick (s : State) (t : Nat) : (s.reach t).frm.lastTick = s.frm.lastTick := by
  rw [State.reach, State.withFrm_frm]
@[simp] theorem State.reach_lastMsg (s : State) (t : Nat) : (s.reach t).frm.lastMsg = s.frm.lastMsg := by
  rw [State.reach, State.withFrm_frm]
@[simp] theorem State.reach_part (s : State) (t p : Nat) : (s.reach t).part p = s.part p := by
  simp [State.part]
@[simp] theorem State.reach_frame (s : State) (t : Nat) : (s.reach t).frame = s.frame := by
  simp [State.frame]
@[simp] theorem State.reach_period (s : State) (t : Nat) : (s.reach t).period = s.period := by
  simp [State.period]
@[simp] theorem State.reach_boundary (s : State) (t k : Nat) : (s.reach t).boundary k = s.boundary k := by
  simp [State.boundary]
@[simp] theorem State.reach_open (s : State) (t : Nat) : (s.reach t).open_ = s.open_ := by
  simp [State.open_, State.stage]
@[simp] theorem State.reach_stage (s : State) (t : Nat) : (s.reach t).stage = s.stage := by
  simp [State.stage]
@[simp] theorem State.reach_master (s : State) (t : Nat) : (s.reach t).master = s.master := by
  simp [State.master]
@[simp] theorem State.reach_tickTime (s : State) (t n : Nat) : (s.reach t).tickTime n = s.tickTime n := by
  simp [State.tickTime]
@[simp] theorem State.reach_strait (s : State) (t n : Nat) : (s.reach t).strait n = s.strait n := by
  simp [State.strait]
@[simp] theorem State.reach_ferry (s : State) (t n : Nat) : (s.reach t).ferry n = s.ferry n := by
  simp [State.ferry]

theorem State.boundaryDue_reach (s : State) (k t : Nat) (hp : s.frm.phase ≠ .idle) (h : s.frm.lastTick + s.boundary k ≤ t) :
    (s.reach t).boundaryDue k = true := by
  have h2 : s.frm.lastTick + s.boundary k ≤ (s.reach t).frm.now := Nat.le_trans h (State.le_reach s t)
  rw [State.boundaryDue, State.reach_phase, State.reach_lastTick, State.reach_boundary, decide_eq_true h2]
  cases h3 : s.frm.phase <;> simp_all

end Sys2Proof.Machine
end

