-- ==== Sys2Proof/Laws/Gate.lean ====
section
/-! SUPPORT. What an operation that can run comes to, and what a context that can fetch comes to. -/

namespace Sys2Proof.Machine

theorem State.runOp_can {s : State} {ctx : Nat} {sel : Desc → Bool} {rs : State → Op → List (Nat × Nat)} {o : Op}
    (f : Op → State → State) (h : s.canRun ctx sel (rs s o) o) : s.runOp ctx sel rs f = f o (s.supplied o (rs s o)) := by
  obtain ⟨_, h1, h2, h3, h4, h5, h6⟩ := h
  simp [State.runOp, h1, State.gate, h2, h3, h4, h5, h6]

theorem State.missing_nil (s : State) (o : Op) : s.missing o [] = [] := by
  unfold State.missing; split <;> rfl

theorem State.badBurst_nil (s : State) : s.badBurst [] = none := by
  simp [State.badBurst]

theorem State.canRun_of_ready {s : State} {ctx : Nat} {sel : Desc → Bool} {o : Op} (hr : s.hard.rails = true)
    (h : s.readyTarget ctx sel = some o) (h1 : o.reads = []) (h2 : o.await = 0) (h3 : s.hostSilent o = none)
    (h4 : s.undoReads o = []) (h5 : s.fencedOuts o = []) : s.canRun ctx sel [] o := by
  refine ⟨hr, h, h1, h2, h3, ?_, ?_⟩
  · rw [h4]; exact State.missing_nil s o
  · rw [h5]; exact State.badBurst_nil s

/-- A run step, whatever the kind of its command. -/
theorem State.operates_run {s : State} {ctx : Nat} {run : Nat → State → State} {g : State → State} (h : run ctx s = g s) (k : OpCmd) :
    s.operates .run k ctx run = .next (s.onDev g) := by
  simp only [State.operates]
  rw [State.onDev_congr (s := s) (g := g) h]

theorem State.admitCmd_fetch {s : State} {k : OpCmd} {ctx : Nat} {x : Ctx} (h : s.fetches k ctx x) :
    s.admitCmd k ctx = s.fetchOne x (s.nextDesc x) := by
  obtain ⟨_, h1, h2, h3, h4⟩ := h
  simp [State.admitCmd, h1, h2, h3, h4]

/-- The operation that a run command drives is one that its test accepts. -/
theorem State.canRun_sel {s : State} {ctx : Nat} {sel : Desc → Bool} {rs : List (Nat × Nat)} {o : Op} (h : s.canRun ctx sel rs o) :
    sel o.desc = true := by
  have := List.find?_some h.2.1
  simp only [Bool.and_eq_true] at this
  exact this.1.1.2

theorem Op.opcode_of {o : Op} {c : Opc} (h : isOpc c o.desc = true) : opcOf o.opcode = some c := by
  simpa [isOpc, Op.opcode, Desc.opcode] using h

theorem Op.outputs_of {o : Op} {c : Opc} (h : isOpc c o.desc = true) : o.outputs = o.desc.outRanges c := by
  rw [Op.outputs, Op.opcode_of h]; rfl

theorem Desc.outRanges_nop (d : Desc) : d.outRanges .nop = [] := rfl

theorem Desc.outRanges_signal (d : Desc) : d.outRanges .signal = [] := rfl

theorem Desc.outRanges_control (d : Desc) : d.outRanges .control = [] := by
  simp only [Desc.outRanges, Desc.tensors, Desc.slotsAt, Desc.slots]
  by_cases h : d.fn = 5 <;> simp [h]

/-- An operation without operand tensors, and with none to write, takes nothing of what a run is supplied with (R395, R414). -/
theorem State.supplied_same {s : State} {o : Op} {c : Opc} (h : isOpc c o.desc = true) (h1 : o.desc.outRanges c = []) (h2 : o.coreReads = false) :
    s.supplied o [] = s := by
  rw [State.supplied, Op.outputs_of h, h1]
  simp [State.l0Fetched, h2, State.draw, State.each]

/-- The run of an operation of the front-end, which reads and writes no tensor. -/
theorem State.runOp_plain {s : State} {ctx : Nat} {sel : Desc → Bool} {o : Op} {c : Opc} {f : Op → State → State} (h : s.canRun ctx sel [] o)
    (hs : isOpc c o.desc = true) (hc : c = .nop ∨ c = .signal ∨ c = .control) : s.runOp ctx sel (fun _ _ => []) f = f o s := by
  have h0 : o.coreReads = false := by
    rw [Op.coreReads, Op.opcode_of hs]
    rcases hc with rfl | rfl | rfl <;> rfl
  have h1 : o.desc.outRanges c = [] := by
    rcases hc with rfl | rfl | rfl
    · exact Desc.outRanges_nop _
    · exact Desc.outRanges_signal _
    · exact Desc.outRanges_control _
  rw [State.runOp_can (rs := fun _ _ => []) f h, State.supplied_same hs h1 h0]

theorem exec_fetch (k : OpCmd) (ctx : Nat) (s : State) : exec (k.instr .fetch ctx) s = .next (s.onDev (fun s => s.admitCmd k ctx)) := by
  cases k <;> rfl

end Sys2Proof.Machine
end

