-- ==== Sys2Proof/Laws/Receive.lean ====
section
/-! SUPPORT. What a message that arrives in order for this package does. -/

namespace Sys2Proof.Machine

theorem State.pass_own (s : State) (x : Rx) (vc : Nat) (m : Msg) (h : s.isOwn x.dst = true) : s.pass x vc m = s.act x m :=
  if_pos (Or.inr h)

theorem State.modRx_own (s : State) (n v : Nat) (f : RxVc → RxVc) (d : Nat) : (s.modRx n v f).isOwn d = s.isOwn d := rfl

theorem State.deliver_own (s : State) (x : Rx) (vc : Nat) (m : Msg) (h : s.isOwn x.dst = true) :
    s.deliver x vc m = (s.modRx x.strait vc (fun r => { r with next := (r.next + 1) % 2 ^ 32, freed := r.freed + 1, unit := 0 })).act x m :=
  State.pass_own _ x vc m h

theorem State.deliverUnit_own (s : State) (x : Rx) (vc : Nat) (m : Msg) (h : s.isOwn x.dst = true) :
    s.deliverUnit x vc m = (s.modRx x.strait vc (fun r => { r with unit := x.unit })).act x m :=
  (if_neg (fun hn => by simp [State.modRx_own, h] at hn)).trans (State.pass_own _ x vc m h)

/-- The message that acts for a code of the flit (R500). -/
def heardMsg (x : Rx) (m : Msg) : Msg := if x.code = 5 then .reserved else m

theorem State.reach_own (s : State) (t d : Nat) : (s.reach t).isOwn d = s.isOwn d := by
  simp [State.isOwn, State.ownId]

theorem State.reach_carries (s : State) (t n v : Nat) : (s.reach t).carries n v = s.carries n v := by
  simp [State.carries, State.strUp, State.strState, State.strait]

theorem State.rxCode_heard (s : State) (n c : Nat) (h : c = 0 ∨ c = 5) : s.rxCode n c = (true, s) := by
  rcases h with h | h <;> simp [State.rxCode, h]

/-- The first message of the flit that is expected. -/
theorem State.sequence_next (s : State) (x : Rx) (vc : Nat) (m : Msg) (ho : s.isOwn x.dst = true)
    (hd : (x.seq + 2 ^ 32 - ((s.strait x.strait).rxv vc).next) % 2 ^ 32 = 0) :
    s.sequence x vc m = (((s.setStrait x.strait { s.strait x.strait with got := (s.strait x.strait).got + 1 }).modRx x.strait vc
      (fun r => { r with next := (r.next + 1) % 2 ^ 32, freed := r.freed + 1, unit := 0 })).act x m).deliverHeld x.strait vc 64 := by
  unfold State.sequence
  extract_lets n y s1 r d
  rw [if_pos hd, State.deliver_own s1 x vc m (by exact ho)]

/-- A later message of the flit delivered last. -/
theorem State.sequenceUnit_next (s : State) (x : Rx) (vc : Nat) (m : Msg) (ho : s.isOwn x.dst = true)
    (hd : (x.seq + 1) % 2 ^ 32 = ((s.strait x.strait).rxv vc).next ∧ ((s.strait x.strait).rxv vc).unit < x.unit) :
    s.sequenceUnit x vc m = (s.modRx x.strait vc (fun r => { r with unit := x.unit })).act x m := by
  unfold State.sequenceUnit
  extract_lets r
  rw [if_pos hd, State.deliverUnit_own _ x vc m ho]

/-- Counting a flit that is taken changes no more than the time and the strait's own record (R492, R494). -/
theorem State.taken_of {α : Type} (f : State → α) (hf : ∀ (u : State) (n : Nat) (y : Strait), f (u.setStrait n y) = f u) (s : State) (x : Rx)
    (v : Nat) : f (s.taken x v) = f (s.reach x.at_) := by
  unfold State.taken
  generalize s.reach x.at_ = u
  simp only [State.modRx]
  split <;> simp only [hf]

@[simp] theorem State.taken_frame (s : State) (x : Rx) (v : Nat) : (s.taken x v).frame = s.frame :=
  (State.taken_of State.frame (fun _ _ _ => rfl) s x v).trans (s.reach_frame x.at_)
@[simp] theorem State.taken_coll (s : State) (x : Rx) (v : Nat) : (s.taken x v).coll = s.coll :=
  (State.taken_of State.coll (fun _ _ _ => rfl) s x v).trans (s.reach_coll x.at_)
@[simp] theorem State.taken_tickTime (s : State) (x : Rx) (v k : Nat) : (s.taken x v).tickTime k = s.tickTime k :=
  (State.taken_of (fun u => u.tickTime k) (fun _ _ _ => rfl) s x v).trans (s.reach_tickTime x.at_ k)
@[simp] theorem State.taken_lastTick (s : State) (x : Rx) (v : Nat) : (s.taken x v).frm.lastTick = s.frm.lastTick :=
  (State.taken_of (fun u => u.frm.lastTick) (fun _ _ _ => rfl) s x v).trans (s.reach_lastTick x.at_)
@[simp] theorem State.taken_part (s : State) (x : Rx) (v p : Nat) : (s.taken x v).part p = s.part p :=
  (State.taken_of (fun u => u.part p) (fun _ _ _ => rfl) s x v).trans (s.reach_part x.at_ p)
@[simp] theorem State.taken_partOf (s : State) (x : Rx) (v c : Nat) : (s.taken x v).partOf c = s.partOf c :=
  (State.taken_of (fun u => u.partOf c) (fun _ _ _ => rfl) s x v).trans (s.reach_fld x.at_ (.ctxCtrl c) F.ctxCtrl_PARTITION)
@[simp] theorem State.taken_refusing (s : State) (x : Rx) (v c : Nat) : (s.taken x v).refusing c = s.refusing c :=
  (State.taken_of (fun u => u.refusing c) (fun _ _ _ => rfl) s x v).trans (by simp only [State.refusing, State.ctx, State.reach_ctxs, State.reach_bit]; rfl)

theorem State.recv_next {s : State} {x : Rx} {vc : Nat} {m : Msg} (h : s.arrivesNext x vc) (hc : x.code = 0 ∨ x.code = 5) :
    s.recv x vc m = ((s.taken x vc).act x (heardMsg x m)).followed x vc := by
  obtain ⟨_, h1, h2, h3, h4, h5⟩ := h
  rw [← State.reach_carries s x.at_] at h2
  rw [← State.reach_own s x.at_] at h3
  rw [← State.reach_strait s x.at_] at h4 h5
  unfold State.recv State.followed State.taken
  generalize s.reach x.at_ = t at h2 h3 h4 h5 ⊢
  simp only [h1, h2, and_self, if_true, State.rxCode_heard t x.strait x.code hc]
  by_cases u : x.unit = 0
  · rw [if_neg (not_not_intro u), if_pos u, if_pos u, State.sequence_next t x vc _ h3 (h4 u)]
    rfl
  · rw [if_pos u, if_neg u, if_neg u, if_pos hc, State.sequenceUnit_next t x vc _ h3 (h5 u)]
    rfl

theorem State.recv_inOrder {s : State} {x : Rx} {vc : Nat} {m : Msg} {g : State → State} (h : s.inOrder x vc)
    (hg : (s.taken x vc).act x m = g s) : s.receives x vc m = .next (s.onDev (fun s => (g s).followed x vc)) := by
  refine congrArg _ (State.onDev_congr ?_)
  show s.recv x vc m = (g s).followed x vc
  rw [State.recv_next h.1 (Or.inl h.2), ← hg]
  simp [heardMsg, h.2]

end Sys2Proof.Machine
end

