-- ==== Sys2Proof/WellFormed.lean ====
section
/-! DEFINITION. Well-formed commands: every operand fits the width of its field, or names a unit that exists. -/

namespace Sys2Proof

/-- The header of a flit fits its fields (R487). -/
def Rx.ok (x : Rx) : Bool :=
  decide (x.strait < 32) && decide (x.seq < 2 ^ 32) && decide (x.src < 4096) && decide (x.dst < 4096) && decide (x.ttl < 16)
    && decide (x.tag < 65536) && decide (x.code < 6) && decide (x.unit < 8)

/-- The header of a stream frame fits its fields (R602). -/
def FRx.ok (r : FRx) : Bool :=
  decide (r.ferry < 4) && decide (r.channel < 64) && decide (r.alive < 65536) && decide (r.check < 2 ^ 64) && decide (r.arg < 2 ^ 64) && decide (r.tag < 2 ^ 32) && decide (r.code < 3)

/-- The header of a causeway cell fits its fields (R685). -/
def CellHdr.ok (h : CellHdr) : Bool :=
  decide (h.dst < 128) && decide (h.src < 128) && decide (h.hops < 256) && decide (h.seq < 2 ^ 32)

/-- The errors of a burst name symbols that it has: 68 in HBM, 576 bits in SRAM (R398). -/
def BurstErr.wf (e : BurstErr) : Bool := e.symbols.all (fun i => decide (i < if 64 * e.burst < 2 ^ 44 then 68 else 576))

/-- Whether a command is well formed. -/
def Instr.wf : Instr → Bool
  | .powerGood => true
  | .railFault .. => true
  | .crystalWindow .. => true
  | .clockHoldoverLimit .. => true
  | .xtalReturn => true
  | .pllRetune kind _ => decide (kind < 3)
  | .pllFail kind _ _ => decide (kind < 3)
  | .harbourModeOpen dies _ _ _ => decide (dies.length = 8)
  | .fullServiceOpen .. => true
  | .firmwareUpdate => true
  | .commitSvn => true
  | .packageReset => true
  | .dieReset die stat _ _ => decide (die < 8) && decide (stat < 3)
  | .shellInserted shell _ _ => decide (shell < 38)
  | .shellRemoved shell _ => decide (shell < 38)
  | .addrToken cell chassis nextPos _ _ => cell.ok && decide (chassis < 256) && decide (nextPos < 256)
  | .statusCell power _ => decide (power < 65536)
  | .regReadCell cell _ tag => cell.ok && decide (tag < 4294967296)
  | .regWriteCell cell _ tag _ => cell.ok && decide (tag < 4294967296)
  | .resetCell cell domain index _ stat _ _ => cell.ok && decide (domain < 256) && decide (index < 256) && decide (stat < 3)
  | .wakeCell cell _ => cell.ok
  | .pkgOff cell pkg _ => cell.ok && decide (pkg < 4096)
  | .flashWriteCell cell _ data => cell.ok && decide (data.length = 32)
  | .ringHead => true
  | .receiverLock => true
  | .tick temps energies => decide (temps.length = 8) && decide (energies.length = 8)
  | .setUpTick temps energies => decide (temps.length = 8) && decide (energies.length = 8)
  | .stretchLimit part _ => decide (part < 64)
  | .stepFrameLimit part _ => decide (part < 64)
  | .intakeBoundary .. => true
  | .workBoundary .. => true
  | .reduceBoundary .. => true
  | .commitBoundary .. => true
  | .schedulerTick .. => true
  | .tickMessage rx _ _ _ frame _ _ _ _ _ _ _ => rx.ok && decide (frame < 18446744073709551616)
  | .tickHoldover .. => true
  | .holdoverLimit .. => true
  | .backupMaster .. => true
  | .stretch rx group frame => rx.ok && decide (group < 4096) && decide (frame < 18446744073709551616)
  | .frmPeriod .. => true
  | .frmPhase .. => true
  | .frmEpoch .. => true
  | .framesEnable => true
  | .framesDisable => true
  | .nop _ ctx => decide (ctx < 8192)
  | .ingest _ ctx => decide (ctx < 8192)
  | .sample _ ctx => decide (ctx < 8192)
  | .gather _ ctx => decide (ctx < 8192)
  | .aggregate _ ctx => decide (ctx < 8192)
  | .dense _ ctx => decide (ctx < 8192)
  | .epilogue _ ctx => decide (ctx < 8192)
  | .loss _ ctx => decide (ctx < 8192)
  | .scatter _ ctx => decide (ctx < 8192)
  | .update _ ctx => decide (ctx < 8192)
  | .updateTable _ ctx => decide (ctx < 8192)
  | .exchange _ ctx => decide (ctx < 8192)
  | .reduce _ ctx => decide (ctx < 8192)
  | .predict _ ctx => decide (ctx < 8192)
  | .copyPlain _ ctx => decide (ctx < 8192)
  | .copyCompress _ ctx => decide (ctx < 8192)
  | .copyExpand _ ctx => decide (ctx < 8192)
  | .copyGroup _ ctx => decide (ctx < 8192)
  | .versionSwitch _ ctx => decide (ctx < 8192)
  | .rowReplace _ ctx => decide (ctx < 8192)
  | .migrateRows _ ctx => decide (ctx < 8192)
  | .hotSetRefresh _ ctx => decide (ctx < 8192)
  | .sketchRead _ ctx => decide (ctx < 8192)
  | .fence _ ctx => decide (ctx < 8192)
  | .commit _ ctx => decide (ctx < 8192)
  | .signalWrite _ ctx => decide (ctx < 8192)
  | .signalAdd _ ctx => decide (ctx < 8192)
  | .signalVector _ ctx => decide (ctx < 8192)
  | .poolAllocate _ ctx => decide (ctx < 8192)
  | .poolFree _ ctx => decide (ctx < 8192)
  | .streamRewind _ ctx => decide (ctx < 8192)
  | .stragglerPolicy _ ctx => decide (ctx < 8192)
  | .groupDefine _ ctx => decide (ctx < 8192)
  | .chartRelease _ ctx => decide (ctx < 8192)
  | .dedupBlockOpen cluster closing => decide (cluster < 1024) && decide (closing < 1024)
  | .regionMergeEmit ctx region => decide (ctx < 8192) && decide (region < 128)
  | .reducePieceCombine ctx _ => decide (ctx < 8192)
  | .abortRestore part => decide (part < 64)
  | .primaryStart part => decide (part < 64)
  | .secondaryStart ctx => decide (ctx < 8192)
  | .taskDispatch core _ => decide (core < 16384)
  | .taskFinish core _ => decide (core < 16384)
  | .completionWrite part => decide (part < 64)
  | .creditWaitStepDown region => decide (region < 128)
  | .creditStepUp region => decide (region < 128)
  | .lagAlarm ctx _ => decide (ctx < 8192)
  | .aliasRebuild => true
  | .rowMoveCopy => true
  | .sketchDecay => true
  | .mov d a => decide (d.core < 16384) && decide (d.reg < 16) && decide (a < 16)
  | .const d imm => decide (d.core < 16384) && decide (d.reg < 16) && decide (imm < 65536)
  | .constLo d imm => decide (d.core < 16384) && decide (d.reg < 16) && decide (imm < 65536)
  | .ldaux d mod => decide (d.core < 16384) && decide (d.reg < 16) && decide (mod < 1024)
  | .ldidx d mod => decide (d.core < 16384) && decide (d.reg < 16) && decide (mod < 1024)
  | .add d a b => decide (d.core < 16384) && decide (d.reg < 16) && decide (a < 16) && decide (b < 16)
  | .sub d a b => decide (d.core < 16384) && decide (d.reg < 16) && decide (a < 16) && decide (b < 16)
  | .mul d a b => decide (d.core < 16384) && decide (d.reg < 16) && decide (a < 16) && decide (b < 16)
  | .div d a b => decide (d.core < 16384) && decide (d.reg < 16) && decide (a < 16) && decide (b < 16)
  | .max d a b => decide (d.core < 16384) && decide (d.reg < 16) && decide (a < 16) && decide (b < 16)
  | .min d a b => decide (d.core < 16384) && decide (d.reg < 16) && decide (a < 16) && decide (b < 16)
  | .leaky d a b => decide (d.core < 16384) && decide (d.reg < 16) && decide (a < 16) && decide (b < 16)
  | .cmpGt d a b => decide (d.core < 16384) && decide (d.reg < 16) && decide (a < 16) && decide (b < 16)
  | .cmpGe d a b => decide (d.core < 16384) && decide (d.reg < 16) && decide (a < 16) && decide (b < 16)
  | .cmpEq d a b => decide (d.core < 16384) && decide (d.reg < 16) && decide (a < 16) && decide (b < 16)
  | .fma d a b c => decide (d.core < 16384) && decide (d.reg < 16) && decide (a < 16) && decide (b < 16) && decide (c < 16)
  | .clamp d a b c => decide (d.core < 16384) && decide (d.reg < 16) && decide (a < 16) && decide (b < 16) && decide (c < 16)
  | .sel d a b c => decide (d.core < 16384) && decide (d.reg < 16) && decide (a < 16) && decide (b < 16) && decide (c < 16)
  | .rcp d a => decide (d.core < 16384) && decide (d.reg < 16) && decide (a < 16)
  | .sqrt d a => decide (d.core < 16384) && decide (d.reg < 16) && decide (a < 16)
  | .rsqrt d a => decide (d.core < 16384) && decide (d.reg < 16) && decide (a < 16)
  | .abs d a => decide (d.core < 16384) && decide (d.reg < 16) && decide (a < 16)
  | .neg d a => decide (d.core < 16384) && decide (d.reg < 16) && decide (a < 16)
  | .relu d a => decide (d.core < 16384) && decide (d.reg < 16) && decide (a < 16)
  | .isFin d a => decide (d.core < 16384) && decide (d.reg < 16) && decide (a < 16)
  | .floor d a => decide (d.core < 16384) && decide (d.reg < 16) && decide (a < 16)
  | .roundI d a => decide (d.core < 16384) && decide (d.reg < 16) && decide (a < 16)
  | .exp d a => decide (d.core < 16384) && decide (d.reg < 16) && decide (a < 16)
  | .log d a => decide (d.core < 16384) && decide (d.reg < 16) && decide (a < 16)
  | .tanh d a => decide (d.core < 16384) && decide (d.reg < 16) && decide (a < 16)
  | .sigmoid d a => decide (d.core < 16384) && decide (d.reg < 16) && decide (a < 16)
  | .erf d a => decide (d.core < 16384) && decide (d.reg < 16) && decide (a < 16)
  | .cos d a => decide (d.core < 16384) && decide (d.reg < 16) && decide (a < 16)
  | .gelu d a => decide (d.core < 16384) && decide (d.reg < 16) && decide (a < 16)
  | .silu d a => decide (d.core < 16384) && decide (d.reg < 16) && decide (a < 16)
  | .softplus d a => decide (d.core < 16384) && decide (d.reg < 16) && decide (a < 16)
  | .rndFmt d a mod => decide (d.core < 16384) && decide (d.reg < 16) && decide (a < 16) && decide (mod < 1024)
  | .rsum d a => decide (d.core < 16384) && decide (d.reg < 16) && decide (a < 16)
  | .rmax d a => decide (d.core < 16384) && decide (d.reg < 16) && decide (a < 16)
  | .rmin d a => decide (d.core < 16384) && decide (d.reg < 16) && decide (a < 16)
  | .rdot d a b => decide (d.core < 16384) && decide (d.reg < 16) && decide (a < 16) && decide (b < 16)
  | .rand d => decide (d.core < 16384) && decide (d.reg < 16)
  | .out a => decide (a.core < 16384) && decide (a.reg < 16)
  | .syncLoad core ctx _ => decide (core < 16384) && decide (ctx < 8192)
  | .syncStore core ctx _ _ => decide (core < 16384) && decide (ctx < 8192)
  | .syncAdd core ctx _ _ => decide (core < 16384) && decide (ctx < 8192)
  | .arm core mon _ _ _ => decide (core < 16384) && decide (mon < 4)
  | .disarm core mon => decide (core < 16384) && decide (mon < 4)
  | .wait core _ _ => decide (core < 16384)
  | .waitLimitExpiry core _ => decide (core < 16384)
  | .arrive core bar => decide (core < 16384) && decide (bar < 16)
  | .barrierRelease part bar _ => decide (part < 64) && decide (bar < 16)
  | .barrier rx bar _ _ _ group frame => rx.ok && decide (bar < 16) && decide (group < 4096) && decide (frame < 18446744073709551616)
  | .watch rx ctx _ frame => rx.ok && decide (ctx < 8192) && decide (frame < 18446744073709551616)
  | .postedWrite rx ctx _ handle e2e _ _ data => rx.ok && decide (ctx < 8192) && decide (handle < 65536) && decide (e2e < 4294967296) && decide (data.length ≤ 256)
  | .postedWriteResend dst _ => decide (dst < 4096)
  | .e2eAck rx vc _ => rx.ok && decide (vc < 4)
  | .lateError rx ctx reason frame tag _ e2e => rx.ok && decide (ctx < 8192) && decide (reason < 8) && decide (frame < 18446744073709551616) && decide (tag < 18446744073709551616) && decide (e2e < 4294967296)
  | .opBind rx ctx handle tag frame => rx.ok && decide (ctx < 8192) && decide (handle < 65536) && decide (tag < 18446744073709551616) && decide (frame < 18446744073709551616)
  | .gradRecord rx _ segment _ ctx count row key vals => rx.ok && decide (segment < 64) && decide (ctx < 8192) && decide (count < 65536) && decide (row < 1099511627776) && decide (key < 268435456) && decide (vals.length = 64)
  | .closeNotice rx ctx key count handle frame => rx.ok && decide (ctx < 8192) && decide (key < 268435456) && decide (count < 281474976710656) && decide (handle < 65536) && decide (frame < 18446744073709551616)
  | .collective rx ctx group _ part _ data => rx.ok && decide (ctx < 8192) && decide (group < 4096) && decide (part < 256) && decide (data.length ≤ 256)
  | .readReq rx ctx tag _ _ => rx.ok && decide (ctx < 8192) && decide (tag < 65536)
  | .rowReq rx ctx tiers requester tag _ _ row key _ => rx.ok && decide (ctx < 8192) && decide (tiers < 32) && decide (requester < 4096) && decide (tag < 65536) && decide (row < 1099511627776) && decide (key < 268435456)
  | .readResp rx _ part tag _ _ data => rx.ok && decide (part < 16) && decide (tag < 65536) && decide (data.length ≤ 256)
  | .rowWrite rx ctx handle e2e requester tag key row _ data => rx.ok && decide (ctx < 8192) && decide (handle < 65536) && decide (e2e < 4294967296) && decide (requester < 4096) && decide (tag < 65536) && decide (key < 268435456) && decide (row < 1099511627776) && decide (data.length ≤ 4096)
  | .verdict rx group vote frame => rx.ok && decide (group < 4096) && decide (vote < 3) && decide (frame < 18446744073709551616)
  | .wake rx => rx.ok
  | .hello strait _ pkg _ _ => decide (strait < 32) && decide (pkg < 4096)
  | .statusFlit strait _ _ _ => decide (strait < 32)
  | .statusFlitDue strait _ => decide (strait < 32)
  | .flitRetryTimeout strait vc _ => decide (strait < 32) && decide (vc < 4)
  | .laneFault strait fiber wl counter _ => decide (strait < 32) && decide (fiber < 4) && decide (wl < 8) && decide (counter < 4096)
  | .laneSwitch strait counter _ => decide (strait < 32) && decide (counter < 4096)
  | .lightLoss strait _ => decide (strait < 32)
  | .straitDown strait _ => decide (strait < 32)
  | .retrainTimeout strait _ => decide (strait < 32)
  | .retrain strait => decide (strait < 32)
  | .straitDisable strait => decide (strait < 32)
  | .linkTraining strait _ _ _ => decide (strait < 32)
  | .recalibration strait _ => decide (strait < 32)
  | .keepaliveWake strait _ => decide (strait < 32)
  | .dataFrame rx payload => rx.ok && decide (payload.length ≤ 4064)
  | .credit rx => rx.ok
  | .ack rx => rx.ok
  | .nak rx => rx.ok
  | .helloFrame rx _ nexts allots => rx.ok && decide (nexts.length = 64) && decide (allots.length = 64)
  | .readData rx payload => rx.ok && decide (payload.length ≤ 4064)
  | .writeAck rx => rx.ok
  | .frameResendTimeout ferry channel _ => decide (ferry < 4) && decide (channel < 64)
  | .flashTimeout ferry tag _ => decide (ferry < 4) && decide (tag < 4096)
  | .ferryReset ferry _ _ => decide (ferry < 4)
  | .ferryLaneLoss ferry _ => decide (ferry < 4)
  | .ferryTraining ferry _ _ => decide (ferry < 4)
  | .channelEnable ferry channel _ => decide (ferry < 4) && decide (channel < 64)
  | .sqTail fn _ _ _ => decide (fn < 256)
  | .cqHead fn _ _ _ => decide (fn < 256)
  | .doorbellReset fn _ _ _ => decide (fn < 256)
  | .moderationTimer fn _ _ => decide (fn < 256)
  | .contextEnable ctx _ => decide (ctx < 8192)
  | .contextReset ctx => decide (ctx < 8192)
  | .contextResetDone ctx => decide (ctx < 8192)
  | .segReload ctx => decide (ctx < 8192)
  | .partitionSetUp part _ => decide (part < 64)
  | .partitionTearDown part => decide (part < 64)
  | .flrVf fn _ => decide (fn < 256)
  | .flrPf .. => true
  | .atsInvalidation fn _ _ _ => decide (fn < 256)
  | .hostLinkDown .. => true
  | .hostLinkUp .. => true
  | .hostAccessFailure ctx slot => decide (ctx < 8192) && decide (slot < 113)
  | .bar4Read .. => true
  | .bar4Write .. => true
  | .spdmVersion .. => true
  | .spdmCapabilities .. => true
  | .spdmAlgorithms .. => true
  | .spdmDigests .. => true
  | .spdmCertificate .. => true
  | .spdmChallenge .. => true
  | .spdmMeasurements .. => true
  | .spdmKeyExchange .. => true
  | .spdmFinish .. => true
  | .spdmEndSession .. => true
  | .ideKeys stream _ => decide (stream < 9)
  | .devLock .. => true
  | .registerWrite .. => true
  | .vfBar0Write fn _ _ _ => decide (fn < 256)
  | .irqCpEoi cp => decide (cp < 4)
  | .irqHostAck .. => true
  | .irqDelivery target _ => decide (target < 5)
  | .cpHoldTimer cp _ => decide (cp < 4)
  | .eventRecordWrite .. => true
  | .eventCoalescing typ src _ => decide (typ < 65536) && decide (src < 768)
  | .eventsLost => true
  | .evtRingHead .. => true
  | .eventRingEnable .. => true
  | .telemetrySnapshot => true
  | .sStateRequest .. => true
  | .sStateEntry .. => true
  | .sStateWake => true
  | .dieOvertemp die _ _ => decide (die < 8)
  | .scrub stack errs _ => decide (stack < 16) && errs.all BurstErr.wf
  | .boundedSlot _ src _ => decide (src < 768)
  | .uncorrectableBurst e _ _ => e.wf
  | .ceWindowEnd channel => decide (channel < 512)
  | .plannedMapout channel _ _ => decide (channel < 512)
  | .immediateMapout channel _ => decide (channel < 512)
  | .coreFault core _ _ => decide (core < 32768)
  | .regionFault region _ => decide (region < 128)
  | .dieFault die _ => decide (die < 8)
  | .recoveryEnd part _ _ => decide (part < 64)
  | .cpWatchdog cp _ => decide (cp < 4)
  | .packageLost pkg _ _ => decide (pkg < 4096)
  | .shoalEnable .. => true
  | .shoalInit => true
  | .delta rx part slot sealNo e2e data => rx.ok && decide (part < 8) && decide (slot < 4294967296) && decide (sealNo < 281474976710656) && decide (e2e < 4294967296) && decide (data.length ≤ 256)
  | .sealNotice rx sealNo count e2e => rx.ok && decide (sealNo < 281474976710656) && decide (count < 65536) && decide (e2e < 4294967296)
  | .parityAck rx sealNo e2e => rx.ok && decide (sealNo < 281474976710656) && decide (e2e < 4294967296)
  | .parityRead rx _ part _ sealNo tag e2e => rx.ok && decide (part < 8) && decide (sealNo < 281474976710656) && decide (tag < 65536) && decide (e2e < 4294967296)
  | .parityReadData rx part _ tag e2e data => rx.ok && decide (part < 8) && decide (tag < 65536) && decide (e2e < 4294967296) && decide (data.length ≤ 256)
  | .revert rx lost sealNo e2e => rx.ok && decide (lost < 4096) && decide (sealNo < 281474976710656) && decide (e2e < 4294967296)
  | .sealQuery rx lost e2e => rx.ok && decide (lost < 4096) && decide (e2e < 4294967296)
  | .sealReport rx _ lost sealNo e2e => rx.ok && decide (lost < 4096) && decide (sealNo < 281474976710656) && decide (e2e < 4294967296)
  | .protectedWriteStale .. => true
  | .rasAlias .. => true
  | .standbyRebuild .. => true
  | .spreadRebuild .. => true

end Sys2Proof
end

