-- ==== Sys2Proof/Tests/Slice0.lean ====
section
/-! SUPPORT. Tests: ill-formed commands that the check refuses, worked examples of the spec, and a state for the hypotheses of every statement. -/

open Sys2Proof Sys2Proof.Machine

namespace Sys2Proof.Tests

set_option Elab.async false

/-! ### States of the tests -/

/-- A state with some fields set. -/
def sets (l : List (Reg × Fld × Nat)) (s : State) : State := l.foldl (fun s x => s.setFld x.1 x.2.1 x.2.2) s

/-- A package in full service. -/
def up : State := sets [(.devStatus, F.devStatus_STAGE, 6)] State.reset

/-- A package in full service with some fields set. -/
def upw (l : List (Reg × Fld × Nat)) : State := sets l up

/-- A package that is off. -/
def dead : State := { State.reset with hard := { State.reset.hard with rails := false, vcsw := false } }

/-- The last address of the last chassis is held. -/
def addressed (s : State) : State := { s with hard := { s.hard with cswValid := true, cswPos := 63, cswChassis := 63 } }

/-- A descriptor from its fields: byte offset and value. -/
def dsc (l : List (Nat × Nat)) : Desc := BitVec.ofNat 1024 (l.foldl (fun n x => n + x.2 * 2 ^ (8 * x.1)) 0)

/-- A started operation with a descriptor. -/
def run (l : List (Nat × Nat)) : Op := { seq := 0, ctx := 8191, part := 63, slot := 0, num := 0, desc := dsc l, frame := 0, stage := .started }

/-- A package that runs one operation. -/
def runs (o : Op) (s : State) : State := { s with ops := [o] }

/-- A package with one strait up. -/
def linked : State := upw [(.strStatus 31, F.strStatus_STATE, 2), (.strCtrl 31, F.strCtrl_ENABLE, 1)]

/-- A flit for this package, the next of its channel. -/
def flit : Rx := ⟨31, 0, 64, 0, 0, 0, 0, 0, false, 0, 0⟩

/-- A package with some state of one strait. -/
def strait (x : Strait) (l : List (Reg × Fld × Nat)) : State := (upw l).setStrait 31 x

/-- A package with one stream port up. -/
def ferried (l : List (Reg × Fld × Nat)) : State := upw ([(.fryStatus 3, F.fryStatus_STATE, 2)] ++ l)

/-- A partition with some state. -/
def parted (p : Part) (s : State) : State := { s with parts := [(p.id, p)] }

/-! ### Ill-formed commands -/

/-- Headers that fit their fields, and some that do not. -/
def rx : Rx := ⟨31, 2 ^ 32 - 1, 4095, 4095, 15, 65535, 0, 5, true, 0, 7⟩
def fx : FRx := ⟨3, 63, 65535, true, 0, 2 ^ 64 - 1, 2 ^ 64 - 1, 2 ^ 32 - 1, 0, 2⟩
def hd : CellHdr := ⟨127, 127, 255, 2 ^ 32 - 1, true⟩
def badRx : Rx := { rx with strait := 32 }
def badFx : FRx := { fx with ferry := 4 }
def badHd : CellHdr := { hd with dst := 128 }

theorem test_headers : (rx.ok && fx.ok && hd.ok) = true ∧
    [badRx, { rx with seq := 2 ^ 32 }, { rx with src := 4096 }, { rx with dst := 4096 }, { rx with ttl := 16 }, { rx with tag := 65536 },
      { rx with code := 6 }, { rx with unit := 8 }].all (fun x => !x.ok) = true
    ∧ [badFx, { fx with channel := 64 }, { fx with alive := 65536 }, { fx with check := 2 ^ 64 }, { fx with arg := 2 ^ 64 },
      { fx with tag := 2 ^ 32 }, { fx with code := 3 }].all (fun x => !x.ok) = true
    ∧ [badHd, { hd with src := 128 }, { hd with hops := 256 }, { hd with seq := 2 ^ 32 }].all (fun x => !x.ok) = true := by
  decide +kernel

/-- One ill-formed command for each check, part 1. -/
theorem test_ill_formed_1 : ([
    .pllRetune 3 0, .pllFail 3 0 0, .harbourModeOpen (List.replicate 9 0) [] [] 0, .dieReset 8 0 [] 0, .dieReset 0 3 [] 0, .shellInserted 38 [] 0,
    .shellRemoved 38 0, .addrToken badHd 0 0 false false, .addrToken hd 256 0 false false, .addrToken hd 0 256 false false, .statusCell 65536 0,
    .regReadCell badHd 0 0, .regReadCell hd 0 4294967296, .regWriteCell badHd 0 0 0, .regWriteCell hd 0 4294967296 0, .resetCell badHd 0 0 0 0 [] 0,
    .resetCell hd 256 0 0 0 [] 0, .resetCell hd 0 256 0 0 [] 0, .resetCell hd 0 0 0 3 [] 0, .wakeCell badHd 0, .pkgOff badHd 0 0, .pkgOff hd 4096 0,
    .flashWriteCell badHd 0 (List.replicate 32 0), .flashWriteCell hd 0 (List.replicate 33 0), .tick (List.replicate 9 0) (List.replicate 8 0),
    .tick (List.replicate 8 0) (List.replicate 9 0), .setUpTick (List.replicate 9 0) (List.replicate 8 0),
    .setUpTick (List.replicate 8 0) (List.replicate 9 0), .stretchLimit 64 0, .stepFrameLimit 64 0, .tickMessage badRx 0 0 false 0 0 0 0 0 0 0 0,
    .tickMessage rx 0 0 false 18446744073709551616 0 0 0 0 0 0 0, .stretch badRx 0 0, .stretch rx 4096 0, .stretch rx 0 18446744073709551616,
    .nop .run 8192, .ingest .run 8192, .sample .run 8192, .gather .run 8192, .aggregate .run 8192, .dense .run 8192, .epilogue .run 8192,
    .loss .run 8192, .scatter .run 8192, .update .run 8192, .updateTable .run 8192, .exchange .run 8192, .reduce .run 8192, .predict .run 8192,
    .copyPlain .run 8192, .copyCompress .run 8192, .copyExpand .run 8192, .copyGroup .run 8192, .versionSwitch .run 8192, .rowReplace .run 8192,
    .migrateRows .run 8192, .hotSetRefresh .run 8192, .sketchRead .run 8192, .fence .run 8192, .commit .run 8192] : List Instr).all (fun i => !i.wf) = true := by decide +kernel

/-- One ill-formed command for each check, part 2. -/
theorem test_ill_formed_2 : ([
    .signalWrite .run 8192, .signalAdd .run 8192, .signalVector .run 8192, .poolAllocate .run 8192, .poolFree .run 8192, .streamRewind .run 8192,
    .stragglerPolicy .run 8192, .groupDefine .run 8192, .chartRelease .run 8192, .dedupBlockOpen 1024 0, .dedupBlockOpen 0 1024,
    .regionMergeEmit 8192 0, .regionMergeEmit 0 128, .reducePieceCombine 8192 0, .abortRestore 64, .primaryStart 64, .secondaryStart 8192,
    .taskDispatch 16384 0, .taskFinish 16384 0, .completionWrite 64, .creditWaitStepDown 128, .creditStepUp 128, .lagAlarm 8192 0, .mov ⟨0, 16⟩ 0,
    .mov ⟨0, 0⟩ 16, .const ⟨0, 16⟩ 0, .const ⟨0, 0⟩ 65536, .constLo ⟨0, 16⟩ 0, .constLo ⟨0, 0⟩ 65536, .ldaux ⟨0, 16⟩ 0, .ldaux ⟨0, 0⟩ 1024, .ldidx ⟨0, 16⟩ 0, .ldidx ⟨0, 0⟩ 1024, .add ⟨0, 16⟩ 0 0,
    .add ⟨0, 0⟩ 16 0, .add ⟨0, 0⟩ 0 16, .sub ⟨0, 16⟩ 0 0, .sub ⟨0, 0⟩ 16 0, .sub ⟨0, 0⟩ 0 16, .mul ⟨0, 16⟩ 0 0, .mul ⟨0, 0⟩ 16 0, .mul ⟨0, 0⟩ 0 16, .div ⟨0, 16⟩ 0 0, .div ⟨0, 0⟩ 16 0, .div ⟨0, 0⟩ 0 16,
    .max ⟨0, 16⟩ 0 0, .max ⟨0, 0⟩ 16 0, .max ⟨0, 0⟩ 0 16, .min ⟨0, 16⟩ 0 0, .min ⟨0, 0⟩ 16 0, .min ⟨0, 0⟩ 0 16, .leaky ⟨0, 16⟩ 0 0, .leaky ⟨0, 0⟩ 16 0, .leaky ⟨0, 0⟩ 0 16, .cmpGt ⟨0, 16⟩ 0 0,
    .cmpGt ⟨0, 0⟩ 16 0, .cmpGt ⟨0, 0⟩ 0 16, .cmpGe ⟨0, 16⟩ 0 0, .cmpGe ⟨0, 0⟩ 16 0, .cmpGe ⟨0, 0⟩ 0 16] : List Instr).all (fun i => !i.wf) = true := by decide +kernel

/-- One ill-formed command for each check, part 3. -/
theorem test_ill_formed_3 : ([
    .cmpEq ⟨0, 16⟩ 0 0, .cmpEq ⟨0, 0⟩ 16 0, .cmpEq ⟨0, 0⟩ 0 16, .fma ⟨0, 16⟩ 0 0 0, .fma ⟨0, 0⟩ 16 0 0, .fma ⟨0, 0⟩ 0 16 0, .fma ⟨0, 0⟩ 0 0 16, .clamp ⟨0, 16⟩ 0 0 0, .clamp ⟨0, 0⟩ 16 0 0,
    .clamp ⟨0, 0⟩ 0 16 0, .clamp ⟨0, 0⟩ 0 0 16, .sel ⟨0, 16⟩ 0 0 0, .sel ⟨0, 0⟩ 16 0 0, .sel ⟨0, 0⟩ 0 16 0, .sel ⟨0, 0⟩ 0 0 16, .rcp ⟨0, 16⟩ 0, .rcp ⟨0, 0⟩ 16, .sqrt ⟨0, 16⟩ 0, .sqrt ⟨0, 0⟩ 16,
    .rsqrt ⟨0, 16⟩ 0, .rsqrt ⟨0, 0⟩ 16, .abs ⟨0, 16⟩ 0, .abs ⟨0, 0⟩ 16, .neg ⟨0, 16⟩ 0, .neg ⟨0, 0⟩ 16, .relu ⟨0, 16⟩ 0, .relu ⟨0, 0⟩ 16, .isFin ⟨0, 16⟩ 0, .isFin ⟨0, 0⟩ 16, .floor ⟨0, 16⟩ 0, .floor ⟨0, 0⟩ 16,
    .roundI ⟨0, 16⟩ 0, .roundI ⟨0, 0⟩ 16, .exp ⟨0, 16⟩ 0, .exp ⟨0, 0⟩ 16, .log ⟨0, 16⟩ 0, .log ⟨0, 0⟩ 16, .tanh ⟨0, 16⟩ 0, .tanh ⟨0, 0⟩ 16, .sigmoid ⟨0, 16⟩ 0, .sigmoid ⟨0, 0⟩ 16, .erf ⟨0, 16⟩ 0,
    .erf ⟨0, 0⟩ 16, .cos ⟨0, 16⟩ 0, .cos ⟨0, 0⟩ 16, .gelu ⟨0, 16⟩ 0, .gelu ⟨0, 0⟩ 16, .silu ⟨0, 16⟩ 0, .silu ⟨0, 0⟩ 16, .softplus ⟨0, 16⟩ 0, .softplus ⟨0, 0⟩ 16, .rndFmt ⟨0, 16⟩ 0 0, .rndFmt ⟨0, 0⟩ 16 0,
    .rndFmt ⟨0, 0⟩ 0 1024, .rsum ⟨0, 16⟩ 0, .rsum ⟨0, 0⟩ 16, .rmax ⟨0, 16⟩ 0, .rmax ⟨0, 0⟩ 16, .rmin ⟨0, 16⟩ 0, .rmin ⟨0, 0⟩ 16] : List Instr).all (fun i => !i.wf) = true := by decide +kernel

/-- One ill-formed command for each check, part 4. -/
theorem test_ill_formed_4 : ([
    .rdot ⟨0, 16⟩ 0 0, .rdot ⟨0, 0⟩ 16 0, .rdot ⟨0, 0⟩ 0 16, .rand ⟨0, 16⟩, .out ⟨0, 16⟩, .syncLoad 16384 0 0, .syncLoad 0 8192 0, .syncStore 16384 0 0 0,
    .syncStore 0 8192 0 0, .syncAdd 16384 0 0 0, .syncAdd 0 8192 0 0, .arm 16384 0 0 0 0, .arm 0 4 0 0 0, .disarm 16384 0, .disarm 0 4,
    .wait 16384 0 0, .waitLimitExpiry 16384 0, .arrive 16384 0, .arrive 0 16, .barrierRelease 64 0 0, .barrierRelease 0 16 0,
    .barrier badRx 0 false false 0 0 0, .barrier rx 16 false false 0 0 0, .barrier rx 0 false false 0 4096 0,
    .barrier rx 0 false false 0 0 18446744073709551616, .watch badRx 0 0 0, .watch rx 8192 0 0, .watch rx 0 0 18446744073709551616,
    .postedWrite badRx 0 false 0 0 0 false [], .postedWrite rx 8192 false 0 0 0 false [], .postedWrite rx 0 false 65536 0 0 false [],
    .postedWrite rx 0 false 0 4294967296 0 false [], .postedWrite rx 0 false 0 0 0 false (List.replicate 257 0), .postedWriteResend 4096 0,
    .e2eAck badRx 0 0, .e2eAck rx 4 0, .lateError badRx 0 0 0 0 0 0, .lateError rx 8192 0 0 0 0 0, .lateError rx 0 8 0 0 0 0,
    .lateError rx 0 0 18446744073709551616 0 0 0, .lateError rx 0 0 0 18446744073709551616 0 0, .lateError rx 0 0 0 0 0 4294967296,
    .opBind badRx 0 0 0 0, .opBind rx 8192 0 0 0, .opBind rx 0 65536 0 0, .opBind rx 0 0 18446744073709551616 0,
    .opBind rx 0 0 0 18446744073709551616, .gradRecord badRx false 0 0 0 0 0 0 (List.replicate 64 0),
    .gradRecord rx false 64 0 0 0 0 0 (List.replicate 64 0), .gradRecord rx false 0 0 8192 0 0 0 (List.replicate 64 0),
    .gradRecord rx false 0 0 0 65536 0 0 (List.replicate 64 0), .gradRecord rx false 0 0 0 0 1099511627776 0 (List.replicate 64 0),
    .gradRecord rx false 0 0 0 0 0 268435456 (List.replicate 64 0), .gradRecord rx false 0 0 0 0 0 0 (List.replicate 65 0),
    .closeNotice badRx 0 0 0 0 0, .closeNotice rx 8192 0 0 0 0, .closeNotice rx 0 268435456 0 0 0, .closeNotice rx 0 0 281474976710656 0 0,
    .closeNotice rx 0 0 0 65536 0, .closeNotice rx 0 0 0 0 18446744073709551616] : List Instr).all (fun i => !i.wf) = true := by decide +kernel

/-- Micro-ops on a core that does not exist. -/
theorem test_ill_formed_cores : ([
    .mov ⟨16384, 0⟩ 0, .const ⟨16384, 0⟩ 0, .constLo ⟨16384, 0⟩ 0, .ldaux ⟨16384, 0⟩ 0, .ldidx ⟨16384, 0⟩ 0, .add ⟨16384, 0⟩ 0 0, .sub ⟨16384, 0⟩ 0 0, .mul ⟨16384, 0⟩ 0 0,
    .div ⟨16384, 0⟩ 0 0, .max ⟨16384, 0⟩ 0 0, .min ⟨16384, 0⟩ 0 0, .leaky ⟨16384, 0⟩ 0 0, .cmpGt ⟨16384, 0⟩ 0 0, .cmpGe ⟨16384, 0⟩ 0 0, .cmpEq ⟨16384, 0⟩ 0 0,
    .fma ⟨16384, 0⟩ 0 0 0, .clamp ⟨16384, 0⟩ 0 0 0, .sel ⟨16384, 0⟩ 0 0 0, .rcp ⟨16384, 0⟩ 0, .sqrt ⟨16384, 0⟩ 0, .rsqrt ⟨16384, 0⟩ 0, .abs ⟨16384, 0⟩ 0,
    .neg ⟨16384, 0⟩ 0, .relu ⟨16384, 0⟩ 0, .isFin ⟨16384, 0⟩ 0, .floor ⟨16384, 0⟩ 0, .roundI ⟨16384, 0⟩ 0, .exp ⟨16384, 0⟩ 0, .log ⟨16384, 0⟩ 0, .tanh ⟨16384, 0⟩ 0,
    .sigmoid ⟨16384, 0⟩ 0, .erf ⟨16384, 0⟩ 0, .cos ⟨16384, 0⟩ 0, .gelu ⟨16384, 0⟩ 0, .silu ⟨16384, 0⟩ 0, .softplus ⟨16384, 0⟩ 0, .rndFmt ⟨16384, 0⟩ 0 0,
    .rsum ⟨16384, 0⟩ 0, .rmax ⟨16384, 0⟩ 0, .rmin ⟨16384, 0⟩ 0, .rdot ⟨16384, 0⟩ 0 0, .rand ⟨16384, 0⟩, .out ⟨16384, 0⟩] : List Instr).all (fun i => !i.wf) = true := by decide +kernel

/-- One ill-formed command for each check, part 5. -/
theorem test_ill_formed_5 : ([
    .collective badRx 0 0 0 0 false [], .collective rx 8192 0 0 0 false [], .collective rx 0 4096 0 0 false [], .collective rx 0 0 0 256 false [],
    .collective rx 0 0 0 0 false (List.replicate 257 0), .readReq badRx 0 0 0 0, .readReq rx 8192 0 0 0, .readReq rx 0 65536 0 0,
    .rowReq badRx 0 0 0 0 0 0 0 0 0, .rowReq rx 8192 0 0 0 0 0 0 0 0, .rowReq rx 0 32 0 0 0 0 0 0 0, .rowReq rx 0 0 4096 0 0 0 0 0 0,
    .rowReq rx 0 0 0 65536 0 0 0 0 0, .rowReq rx 0 0 0 0 0 0 1099511627776 0 0, .rowReq rx 0 0 0 0 0 0 0 268435456 0,
    .readResp badRx 0 0 0 0 false [], .readResp rx 0 16 0 0 false [], .readResp rx 0 0 65536 0 false [],
    .readResp rx 0 0 0 0 false (List.replicate 257 0), .rowWrite badRx 0 0 0 0 0 0 0 false [], .rowWrite rx 8192 0 0 0 0 0 0 false [],
    .rowWrite rx 0 65536 0 0 0 0 0 false [], .rowWrite rx 0 0 4294967296 0 0 0 0 false [], .rowWrite rx 0 0 0 4096 0 0 0 false [],
    .rowWrite rx 0 0 0 0 65536 0 0 false [], .rowWrite rx 0 0 0 0 0 268435456 0 false [], .rowWrite rx 0 0 0 0 0 0 1099511627776 false [],
    .rowWrite rx 0 0 0 0 0 0 0 false (List.replicate 4097 0), .verdict badRx 0 0 0, .verdict rx 4096 0 0, .verdict rx 0 3 0,
    .verdict rx 0 0 18446744073709551616, .wake badRx, .hello 32 0 0 0 0, .hello 0 0 4096 0 0, .statusFlit 32 (⟨[], 0, 0, 0, none⟩) 0 0,
    .statusFlitDue 32 0, .flitRetryTimeout 32 0 0, .flitRetryTimeout 0 4 0, .laneFault 32 0 0 0 0, .laneFault 0 4 0 0 0, .laneFault 0 0 8 0 0,
    .laneFault 0 0 0 4096 0, .laneSwitch 32 0 0, .laneSwitch 0 4096 0, .lightLoss 32 0, .straitDown 32 0, .retrainTimeout 32 0, .retrain 32,
    .straitDisable 32, .linkTraining 32 0 0 0, .recalibration 32 0, .keepaliveWake 32 0, .dataFrame badFx [], .dataFrame fx (List.replicate 4065 0),
    .credit badFx, .ack badFx, .nak badFx, .helloFrame badFx 0 (List.replicate 64 0) (List.replicate 64 0),
    .helloFrame fx 0 (List.replicate 65 0) (List.replicate 64 0)] : List Instr).all (fun i => !i.wf) = true := by decide +kernel

/-- One ill-formed command for each check, part 6. -/
theorem test_ill_formed_6 : ([
    .helloFrame fx 0 (List.replicate 64 0) (List.replicate 65 0), .readData badFx [], .readData fx (List.replicate 4065 0), .writeAck badFx,
    .frameResendTimeout 4 0 0, .frameResendTimeout 0 64 0, .flashTimeout 4 0 0, .flashTimeout 0 4096 0, .ferryReset 4 0 0, .ferryLaneLoss 4 0,
    .ferryTraining 4 0 0, .channelEnable 4 0 0, .channelEnable 0 64 0, .sqTail 256 0 0 0, .cqHead 256 0 0 0, .doorbellReset 256 0 0 0,
    .moderationTimer 256 0 0, .contextEnable 8192 0, .contextReset 8192, .contextResetDone 8192, .segReload 8192, .partitionSetUp 64 0,
    .partitionTearDown 64, .flrVf 256 0, .atsInvalidation 256 0 0 0, .hostAccessFailure 8192 0, .hostAccessFailure 0 113, .ideKeys 9 false,
    .vfBar0Write 256 0 0 0, .irqCpEoi 4, .irqDelivery 5 0, .cpHoldTimer 4 0, .eventCoalescing 65536 0 0, .eventCoalescing 0 768 0,
    .dieOvertemp 8 0 0, .scrub 16 [] 0, .scrub 0 [⟨0, [68], none⟩] 0, .uncorrectableBurst ⟨0, [68], none⟩ none 0, .boundedSlot 0 768 0, .ceWindowEnd 512, .plannedMapout 512 0 0, .immediateMapout 512 0,
    .coreFault 32768 [] 0, .regionFault 128 0, .dieFault 8 0, .recoveryEnd 64 0 0, .cpWatchdog 4 0, .packageLost 4096 false 0,
    .delta badRx 0 0 0 0 [], .delta rx 8 0 0 0 [], .delta rx 0 4294967296 0 0 [], .delta rx 0 0 281474976710656 0 [], .delta rx 0 0 0 4294967296 [],
    .delta rx 0 0 0 0 (List.replicate 257 0), .sealNotice badRx 0 0 0, .sealNotice rx 281474976710656 0 0, .sealNotice rx 0 65536 0,
    .sealNotice rx 0 0 4294967296, .parityAck badRx 0 0, .parityAck rx 281474976710656 0, .parityAck rx 0 4294967296, .parityRead badRx 0 0 0 0 0 0] : List Instr).all (fun i => !i.wf) = true := by decide +kernel

/-- One ill-formed command for each check, part 7. -/
theorem test_ill_formed_7 : ([
    .parityRead rx 0 8 0 0 0 0, .parityRead rx 0 0 0 281474976710656 0 0, .parityRead rx 0 0 0 0 65536 0, .parityRead rx 0 0 0 0 0 4294967296,
    .parityReadData badRx 0 0 0 0 [], .parityReadData rx 8 0 0 0 [], .parityReadData rx 0 0 65536 0 [], .parityReadData rx 0 0 0 4294967296 [],
    .parityReadData rx 0 0 0 0 (List.replicate 257 0), .revert badRx 0 0 0, .revert rx 4096 0 0, .revert rx 0 281474976710656 0,
    .revert rx 0 0 4294967296, .sealQuery badRx 0 0, .sealQuery rx 4096 0, .sealQuery rx 0 4294967296, .sealReport badRx 0 0 0 0,
    .sealReport rx 0 4096 0 0, .sealReport rx 0 0 281474976710656 0, .sealReport rx 0 0 0 4294967296] : List Instr).all (fun i => !i.wf) = true := by decide +kernel

/-- The same commands with every operand in its field are well formed. -/
theorem test_well_formed : ([
    .pllRetune 0 0, .pllFail 0 0 0, .harbourModeOpen (List.replicate 8 0) [] [] 0, .dieReset 0 0 [] 0, .shellInserted 0 [] 0, .shellRemoved 0 0,
    .addrToken hd 0 0 false false, .statusCell 0 0, .regReadCell hd 0 0, .regWriteCell hd 0 0 0, .resetCell hd 0 0 0 0 [] 0, .wakeCell hd 0,
    .pkgOff hd 0 0, .flashWriteCell hd 0 (List.replicate 32 0), .tick (List.replicate 8 0) (List.replicate 8 0),
    .setUpTick (List.replicate 8 0) (List.replicate 8 0), .stretchLimit 0 0, .stepFrameLimit 0 0, .tickMessage rx 0 0 false 0 0 0 0 0 0 0 0,
    .stretch rx 0 0, .nop .run 0, .ingest .run 0, .sample .run 0, .gather .run 0, .aggregate .run 0, .dense .run 0, .epilogue .run 0, .loss .run 0,
    .scatter .run 0, .update .run 0, .updateTable .run 0, .exchange .run 0, .reduce .run 0, .predict .run 0, .copyPlain .run 0, .copyCompress .run 0,
    .copyExpand .run 0, .copyGroup .run 0, .versionSwitch .run 0, .rowReplace .run 0, .migrateRows .run 0, .hotSetRefresh .run 0, .sketchRead .run 0,
    .fence .run 0, .commit .run 0, .signalWrite .run 0, .signalAdd .run 0, .signalVector .run 0, .poolAllocate .run 0, .poolFree .run 0,
    .streamRewind .run 0, .stragglerPolicy .run 0, .groupDefine .run 0, .chartRelease .run 0, .dedupBlockOpen 0 0, .regionMergeEmit 0 0,
    .reducePieceCombine 0 0, .abortRestore 0, .primaryStart 0, .secondaryStart 0] : List Instr).all Instr.wf = true := by decide +kernel

theorem test_well_formed_2 : ([
    .taskDispatch 0 0, .taskFinish 0 0, .completionWrite 0, .creditWaitStepDown 0, .creditStepUp 0, .lagAlarm 0 0, .mov ⟨0, 0⟩ 0, .const ⟨0, 0⟩ 0,
    .constLo ⟨0, 0⟩ 0, .ldaux ⟨0, 0⟩ 0, .ldidx ⟨0, 0⟩ 0, .add ⟨0, 0⟩ 0 0, .sub ⟨0, 0⟩ 0 0, .mul ⟨0, 0⟩ 0 0, .div ⟨0, 0⟩ 0 0, .max ⟨0, 0⟩ 0 0, .min ⟨0, 0⟩ 0 0, .leaky ⟨0, 0⟩ 0 0, .cmpGt ⟨0, 0⟩ 0 0,
    .cmpGe ⟨0, 0⟩ 0 0, .cmpEq ⟨0, 0⟩ 0 0, .fma ⟨0, 0⟩ 0 0 0, .clamp ⟨0, 0⟩ 0 0 0, .sel ⟨0, 0⟩ 0 0 0, .rcp ⟨0, 0⟩ 0, .sqrt ⟨0, 0⟩ 0, .rsqrt ⟨0, 0⟩ 0, .abs ⟨0, 0⟩ 0, .neg ⟨0, 0⟩ 0, .relu ⟨0, 0⟩ 0,
    .isFin ⟨0, 0⟩ 0, .floor ⟨0, 0⟩ 0, .roundI ⟨0, 0⟩ 0, .exp ⟨0, 0⟩ 0, .log ⟨0, 0⟩ 0, .tanh ⟨0, 0⟩ 0, .sigmoid ⟨0, 0⟩ 0, .erf ⟨0, 0⟩ 0, .cos ⟨0, 0⟩ 0, .gelu ⟨0, 0⟩ 0, .silu ⟨0, 0⟩ 0, .softplus ⟨0, 0⟩ 0,
    .rndFmt ⟨0, 0⟩ 0 0, .rsum ⟨0, 0⟩ 0, .rmax ⟨0, 0⟩ 0, .rmin ⟨0, 0⟩ 0, .rdot ⟨0, 0⟩ 0 0, .rand ⟨0, 0⟩, .out ⟨0, 0⟩, .syncLoad 0 0 0, .syncStore 0 0 0 0, .syncAdd 0 0 0 0,
    .arm 0 0 0 0 0, .disarm 0 0, .wait 0 0 0, .waitLimitExpiry 0 0, .arrive 0 0, .barrierRelease 0 0 0, .barrier rx 0 false false 0 0 0,
    .watch rx 0 0 0] : List Instr).all Instr.wf = true := by decide +kernel

theorem test_well_formed_3 : ([
    .postedWrite rx 0 false 0 0 0 false [], .postedWriteResend 0 0, .e2eAck rx 0 0, .lateError rx 0 0 0 0 0 0, .opBind rx 0 0 0 0,
    .gradRecord rx false 0 0 0 0 0 0 (List.replicate 64 0), .closeNotice rx 0 0 0 0 0, .collective rx 0 0 0 0 false [], .readReq rx 0 0 0 0,
    .rowReq rx 0 0 0 0 0 0 0 0 0, .readResp rx 0 0 0 0 false [], .rowWrite rx 0 0 0 0 0 0 0 false [], .verdict rx 0 0 0, .wake rx, .hello 0 0 0 0 0,
    .statusFlit 0 (⟨[], 0, 0, 0, none⟩) 0 0, .statusFlitDue 0 0, .flitRetryTimeout 0 0 0, .laneFault 0 0 0 0 0, .laneSwitch 0 0 0, .lightLoss 0 0,
    .straitDown 0 0, .retrainTimeout 0 0, .retrain 0, .straitDisable 0, .linkTraining 0 0 0 0, .recalibration 0 0, .keepaliveWake 0 0,
    .dataFrame fx [], .credit fx, .ack fx, .nak fx, .helloFrame fx 0 (List.replicate 64 0) (List.replicate 64 0), .readData fx [], .writeAck fx,
    .frameResendTimeout 0 0 0, .flashTimeout 0 0 0, .ferryReset 0 0 0, .ferryLaneLoss 0 0, .ferryTraining 0 0 0, .channelEnable 0 0 0,
    .sqTail 0 0 0 0, .cqHead 0 0 0 0, .doorbellReset 0 0 0 0, .moderationTimer 0 0 0, .contextEnable 0 0, .contextReset 0, .contextResetDone 0,
    .segReload 0, .partitionSetUp 0 0, .partitionTearDown 0, .flrVf 0 0, .atsInvalidation 0 0 0 0, .hostAccessFailure 0 0, .ideKeys 0 false,
    .vfBar0Write 0 0 0 0, .irqCpEoi 0, .irqDelivery 0 0, .cpHoldTimer 0 0, .eventCoalescing 0 0 0] : List Instr).all Instr.wf = true := by decide +kernel

theorem test_well_formed_4 : ([
    .dieOvertemp 0 0 0, .scrub 0 [] 0, .uncorrectableBurst ⟨0, [67], none⟩ none 0, .boundedSlot 0 0 0, .ceWindowEnd 0, .plannedMapout 0 0 0, .immediateMapout 0 0, .coreFault 0 [] 0,
    .regionFault 0 0, .dieFault 0 0, .recoveryEnd 0 0 0, .cpWatchdog 0 0, .packageLost 0 false 0, .delta rx 0 0 0 0 [], .sealNotice rx 0 0 0,
    .parityAck rx 0 0, .parityRead rx 0 0 0 0 0 0, .parityReadData rx 0 0 0 0 [], .revert rx 0 0 0, .sealQuery rx 0 0, .sealReport rx 0 0 0 0] : List Instr).all Instr.wf = true := by decide +kernel

/-- A context with one descriptor waiting. -/
def ringCtx : Ctx := { id := 8191, tail := 1 }

/-- A package in intake whose context waits with a descriptor in its ring. -/
def ring (d : Desc) : State :=
  (({ upw [(.frmCtrl, F.frmCtrl_ENABLE, 1), (.hstPartCtrl 0, F.hstPartCtrl_ACTIVE, 1), (.ctxCtrl 8191, F.ctxCtrl_ENABLE, 1)] with
      frm := { up.frm with phase := .intake }
      ctxs := [(8191, ringCtx)] } : State).kWr 0 (toLe 128 d.toNat))

/-- A NOP descriptor of the context. -/
def nopD : Desc := dsc [(1, 0x30), (4, 8191)]

/-! ### Worked examples of the spec -/

/-- The nine bytes "123456789". -/
def digits : List Byte := [0x31, 0x32, 0x33, 0x34, 0x35, 0x36, 0x37, 0x38, 0x39]

/-- The conformance values of the check unit (after R604) and of the identity memories' CRC (R694). -/
theorem test_check_values : checkValue 32 0x04C11DB7 0xFFFFFFFF true true true digits = 0xCBF43926
    ∧ checkValue 16 0x1021 0xFFFF false false false digits = 0x29B1 := by decide +kernel

/-- The shoal example: line 1,000 of rank 7 lies in stripe 1,143 at position 5, its P at rank 0 and its Q at rank 1 in slot 142 (R642). -/
theorem test_holders : stripeOf 16 14 7 1000 = (1143, 5) ∧ holderOf 16 2 1143 0 = (0, 142) ∧ holderOf 16 2 1143 1 = (1, 142) := by decide +kernel

/-- The alias table of the weights 1, 2, 3 and 2 (R150). -/
theorem test_alias : buildAlias [.ofInt 1, .ofInt 2, .ofInt 3, .ofInt 2]
    = some [(0, 0x80000000, 1), (1, 0x80000000, 2), (2, 0xFFFFFFFF, 2), (3, 0xFFFFFFFF, 3)] := by decide +kernel

/-- Floyd's selection of 3 of 5 positions with the three words of the example (R160). -/
theorem test_floyd : floyd (fun i => nthD [0x40000000, 0xF0000000, 0xA0000000] i 0) 0 5 3 = [0, 3, 4] := by decide +kernel

/-- The first three words from a state in which only s[126] is 1 (R379). -/
theorem test_random_words : [0, 32, 64].map (fun n => lfsrWord 32 0 (lfsrSteps n (2 ^ 126))) = [1, 0, 1] := by decide +kernel

/-- A period of 333.33 µs with WORK_END 840 puts the work boundary at 279.99 µs (R31). -/
theorem test_work_boundary :
    (upw [(.frmPeriod, F.frmPeriod_PERIOD, 33333), (.frmPhase, F.frmPhase_WORK_END, 840)]).boundary 2 = 279990 := by decide +kernel

/-- Conversions of the example: 460.0 and 10^6 to E4M3, −3.5 to unsigned INT8 and signed INT4 (R291, R292). -/
theorem test_conversions : encodeElem 3 false true false (.ofInt 460) = 0x7E ∧ encodeElem 3 false true false (.ofInt 1000000) = 0x7E
    ∧ encodeElem 5 false true false (fv32 0xC0600000#32) = 0 ∧ encodeElem 6 true true false (fv32 0xC0600000#32) = 0xC := by decide +kernel

/-- The E4M3 block of the example: amax 5.0 gives the scale byte 0x79, 5.0 becomes 0x7A and 0.01 becomes 0x32 (R293). -/
theorem test_block_scale : narrowBlock 3 false [.ofInt 5, fv32 0x3C23D70A#32] = (0x79, [0x7A, 0x32]) := by decide +kernel

/-- max(−0, +0), max(NaN, +∞) and min(−3.0, −0) (R295). -/
theorem test_extrema : bits32 (FV.maxv (fv32 0x80000000#32) .zero) = 0 ∧ bits32 (FV.maxv .nan (fv32 0x7F800000#32)) = 0x7FC00000#32
    ∧ bits32 (FV.minv (.ofInt (-3)) (fv32 0x80000000#32)) = 0xC0400000#32 := by decide +kernel

/-- The tokens and literals of the compressed row of the example (R331). -/
theorem test_compressed_row :
    ((compressRow 5 ([5, 253, 7] ++ List.replicate 37 0 ++ [1] ++ List.replicate 23 0) []).1.drop 4).take 8
      = [0x82, 0x24, 0x80, 0x16, 5, 253, 7, 1] := by decide +kernel

/-- Buckets of rows with 0, 200, 3, 130 and 7 non-zero elements (R340). -/
theorem test_buckets : [0, 200, 3, 130, 7].map bucketOf = [0, 8, 2, 8, 3] := by decide +kernel

/-- PLACE_KIND 5 completes with 0x13 and DETAIL 7; with opcode 0x13 and a non-zero byte 6 the status is 0x12 (R84). -/
theorem test_refusals :
    (ring (dsc [(1, 0x30), (4, 8191), (7, 5)])).refusal ringCtx (dsc [(1, 0x30), (4, 8191), (7, 5)]) 0 = some (0x13, 7)
    ∧ ((ring (dsc [(0, 0x13), (1, 0x30), (4, 8191), (6, 1)])).refusal ringCtx (dsc [(0, 0x13), (1, 0x30), (4, 8191), (6, 1)]) 0).map Prod.fst
      = some 0x12 := by decide +kernel

/-- An energy of 820 nJ has the class bound 896, charged as 784 at P1 and 672 at P2 (R434). -/
theorem test_charges : boundOf 820 = 896 ∧ chargeAt 896 1 = 784 ∧ chargeAt 896 2 = 672 := by decide +kernel

/-- After its first map-out a die's usable range is 96,768 MiB, and no reserve is left (R403). -/
theorem test_mapout : ((upw [(.memCtrl, F.memCtrl_RESERVE, 1)]).mapOut 80 false).fld (.memDieStatus 1) F.memDieStatus_USABLE_MIB = 96768 := by
  decide +kernel

/-- The register writes of the example: a 4-byte write of SCH_UNDO_BASE is ignored and counted, SCH_UNDO_SIZE takes one (R727). -/
theorem test_register_writes : (up.access 0x4C100 4 0x40000000).fld .devAccess F.devAccess_SPLIT = 1
    ∧ (up.access 0x4C100 4 0x40000000).reg (.schUndoBase 2) = 0
    ∧ (up.access 0x4C108 4 0x4000).fld (.schUndoSize 2) F.schUndoSize_UNITS = 16384 := by decide +kernel

/-- The addressing example: with CHASSIS 1 and NEXT 1 the package becomes 0x041 and forwards NEXT 2 (R687). -/
theorem test_address : (addrToken ⟨0x7E, 0x7F, 0, 0, true⟩ 1 1 false false up).ownId = 0x41
    ∧ (addrToken ⟨0x7E, 0x7F, 0, 0, true⟩ 1 1 false false up).outbox = [.cell 1 0x7E 0x7F 1 0 [1, 2, 0]] := by decide +kernel

/-- No word spells a command, since the table gives its rows no bits. -/
theorem test_no_words : decodeTableWord 16 0xFFFF = none := rfl

/-! ### Hypotheses of the statements -/

theorem wit_StepRunsFront : ∃ (s : State), s.pending = [] :=
  ⟨up, by decide +kernel⟩

theorem wit_PowerAndReset :
    (∃ (s : State), s.hard.rails = false)
    ∧ (∃ (s : State), s.hard.rails = true)
    ∧ (∃ (s : State) (d : Nat), s.hard.rails = true ∧ d < 8 ∧ 5 ≤ s.stage) :=
  ⟨⟨dead, by decide +kernel⟩,
    ⟨up, by decide +kernel⟩,
    ⟨up, 7, by decide +kernel⟩⟩

theorem wit_Clocks :
    (∃ (s : State) (count : Nat), s.hard.rails = true ∧ windowOk count false = true ∧ s.fld .clkStatus F.clkStatus_REF = 1)
    ∧ (∃ (s : State) (t0 at_ : Nat), s.hard.rails = true ∧ s.boot.holdSince = some t0 ∧ s.fld .clkStatus F.clkStatus_REF = 4 ∧ t0 + 10000000 ≤ at_ ∧ s.stage ≠ 1)
    ∧ (∃ (s : State), s.hard.rails = true ∧ s.bit .clkCtrl F.clkCtrl_XTAL_RETURN = true ∧ 16 ≤ s.boot.good ∧ 2 ≤ s.fld .clkStatus F.clkStatus_REF)
    ∧ (∃ (s : State), s.hard.rails = true)
    ∧ (∃ (s : State) (unit : Nat), s.hard.rails = true ∧ unit < 128 ∧ unit ∉ s.boot.withheld) :=
  ⟨⟨upw [(.clkStatus, F.clkStatus_REF, 1)], 208896, by decide +kernel⟩,
    ⟨{ upw [(.clkStatus, F.clkStatus_REF, 4)] with boot := { up.boot with holdSince := some 0 } }, 0, 10000000, by decide +kernel⟩,
    ⟨{ upw [(.clkStatus, F.clkStatus_REF, 2), (.clkCtrl, F.clkCtrl_XTAL_RETURN, 1)] with boot := { up.boot with good := 16 } }, by decide +kernel⟩,
    ⟨up, by decide +kernel⟩,
    ⟨up, 127, by decide +kernel⟩⟩

theorem wit_ServiceAndFirmware :
    (∃ (s : State), s.hard.rails = true ∧ (s.stage = 3 ∨ s.stage = 4))
    ∧ (∃ (s : State) (dark : List Nat), s.hard.rails = true ∧ s.stage = 5 ∧ s.settled dark = true)
    ∧ (∃ (s : State), s.hard.rails = true ∧ bitN s.hard.lock.toNat 5 = false ∧ 3 ≤ s.stage ∧ s.stage ≠ 7)
    ∧ (∃ (s : State), s.hard.rails = true ∧ bitN s.hard.lock.toNat 5 = false ∧ 3 ≤ s.stage ∧ s.stage ≠ 7)
    ∧ (∃ (s : State) (k : Nat), s.hard.rails = true ∧ k < 38)
    ∧ (∃ (s : State) (k : Nat), s.hard.rails = true ∧ k < 38 ∧ s.bit (.devShell k) F.devShell_PRESENT = true) :=
  ⟨⟨sets [(.devStatus, F.devStatus_STAGE, 4)] State.reset, by decide +kernel⟩,
    ⟨sets [(.devStatus, F.devStatus_STAGE, 5)] State.reset, List.range 38, by decide +kernel⟩,
    ⟨sets [(.devStatus, F.devStatus_STAGE, 3)] State.reset, by decide +kernel⟩,
    ⟨sets [(.devStatus, F.devStatus_STAGE, 3)] State.reset, by decide +kernel⟩,
    ⟨up, 37, by decide +kernel⟩,
    ⟨upw [(.devShell 37, F.devShell_PRESENT, 1)], 37, by decide +kernel⟩⟩

theorem wit_CausewayCells :
    (∃ (s : State), s.hard.rails = true ∧ s.hard.vcsw = true ∧ s.hard.cswValid = true ∧ s.cswDark = false ∧ s.boot.statusStage ≠ some s.stage)
    ∧ (∃ (s : State) (h : CellHdr) (off : Nat), s.cellForMe h = true ∧ s.hard.rails = true ∧ cellServes off = true ∧ (Reg.ofAddr off).isSome = true)
    ∧ (∃ (s : State) (h : CellHdr) (off : Nat), s.cellForMe h = true ∧ s.hard.rails = true ∧ cellServes off = true ∧ s.bit .cswCtrl F.cswCtrl_MGMT_WRITE = true)
    ∧ (∃ (s : State) (h : CellHdr), s.cellForMe h = true ∧ s.hard.rails = true)
    ∧ (∃ (s : State) (h : CellHdr), s.cellForMe h = true ∧ s.hard.rails = true)
    ∧ (∃ (s : State) (h : CellHdr) (pkg : Nat), s.cellForMe h = true ∧ s.hard.rails = true ∧ pkg < 4096)
    ∧ (∃ (s : State) (h : CellHdr) (off : Nat), s.cellForMe h = true ∧ s.hard.rails = true ∧ s.stage = 2 ∧ off % 32 = 0 ∧ s.bit .cswCtrl F.cswCtrl_MGMT_WRITE = true)
    ∧ (∃ (s : State), s.hard.vcsw = true ∧ s.stage ≠ 1)
    ∧ (∃ (s : State), s.hard.vcsw = true) :=
  ⟨⟨addressed up, by decide +kernel⟩,
    ⟨addressed up, ⟨63, 0, 0, 0, true⟩, 0xB0000, by decide +kernel⟩,
    ⟨addressed (upw [(.cswCtrl, F.cswCtrl_MGMT_WRITE, 1)]), ⟨63, 0, 0, 0, true⟩, 0xB0000, by decide +kernel⟩,
    ⟨addressed up, ⟨63, 0, 0, 0, true⟩, by decide +kernel⟩,
    ⟨addressed up, ⟨63, 0, 0, 0, true⟩, by decide +kernel⟩,
    ⟨addressed up, ⟨63, 0, 0, 0, true⟩, 4095, by decide +kernel⟩,
    ⟨addressed (sets [(.devStatus, F.devStatus_STAGE, 2), (.cswCtrl, F.cswCtrl_MGMT_WRITE, 1)] State.reset), ⟨63, 0, 0, 0, true⟩, 32, by decide +kernel⟩,
    ⟨up, by decide +kernel⟩,
    ⟨up, by decide +kernel⟩⟩

theorem wit_AddressToken :
    (∃ (s : State) (h : CellHdr) (next : Nat), s.hard.vcsw = true ∧ h.crcOk = true ∧ h.hops < 64 ∧ s.hard.cswValid = false ∧ next < 64)
    ∧ (∃ (s : State) (h : CellHdr) (next : Nat), s.hard.vcsw = true ∧ h.crcOk = true ∧ h.hops < 64 ∧ s.hard.cswValid = false ∧ 64 ≤ next)
    ∧ (∃ (s : State) (h : CellHdr), s.hard.vcsw = true ∧ h.crcOk = true ∧ h.hops < 64 ∧ s.hard.cswValid = true ∧ s.hard.cswPos < 64 ∧ s.hard.cswChassis < 64) :=
  ⟨⟨up, ⟨0x7E, 0x7F, 63, 0, true⟩, 63, by decide +kernel⟩,
    ⟨up, ⟨0x7E, 0x7F, 63, 0, true⟩, 64, by decide +kernel⟩,
    ⟨addressed up, ⟨0x7E, 0x7F, 63, 0, true⟩, by decide +kernel⟩⟩

theorem wit_FrameTicks :
    (∃ (s : State), s.hard.rails = true ∧ s.open_ = true ∧ s.bit .frmCtrl F.frmCtrl_ENABLE = true)
    ∧ (∃ (s : State), s.hard.rails = true ∧ s.open_ = true ∧ s.bit .frmCtrl F.frmCtrl_ENABLE = false)
    ∧ (∃ (s : State) (p at_ : Nat), s.hard.rails = true ∧ p < 64 ∧ s.tickTime (s.frame + 1) ≤ at_ ∧ 3 ≤ (s.part p).stretch ∧ (s.part p).restoring = false ∧ (s.reach at_).unfinished p = true)
    ∧ (∃ (s : State) (p at_ : Nat), s.hard.rails = true ∧ p < 64 ∧ s.tickTime (s.frame + 1) ≤ at_ ∧ 63 ≤ (s.part p).stepFrames ∧ (s.part p).stepFirst ≤ s.frame ∧ (s.part p).restoring = false) :=
  ⟨⟨upw [(.frmCtrl, F.frmCtrl_ENABLE, 1)], by decide +kernel⟩,
    ⟨up, by decide +kernel⟩,
    ⟨parted { id := 63, stretch := 3 } (runs (run []) up), 63, 500000, by decide +kernel⟩,
    ⟨parted { id := 63, stepFrames := 63 } up, 63, 500000, by decide +kernel⟩⟩

theorem wit_PhaseBoundaries :
    (∃ (s : State) (at_ : Nat), s.hard.rails = true ∧ s.frm.phase = .intake ∧ s.frm.lastTick + s.boundary 1 ≤ at_)
    ∧ (∃ (s : State) (at_ : Nat), s.hard.rails = true ∧ s.frm.phase = .work ∧ s.frm.lastTick + s.boundary 2 ≤ at_)
    ∧ (∃ (s : State) (at_ : Nat), s.hard.rails = true ∧ s.frm.phase = .reduce ∧ s.frm.lastTick + s.boundary 3 ≤ at_)
    ∧ (∃ (s : State) (at_ : Nat), s.hard.rails = true ∧ s.frm.phase = .commit ∧ s.frm.lastTick + s.boundary 4 ≤ at_)
    ∧ (∃ (s : State), s.hard.rails = true ∧ s.open_ = true) :=
  ⟨⟨{ up with frm := { up.frm with phase := .intake } }, 500000, by decide +kernel⟩,
    ⟨{ up with frm := { up.frm with phase := .work } }, 500000, by decide +kernel⟩,
    ⟨{ up with frm := { up.frm with phase := .reduce } }, 500000, by decide +kernel⟩,
    ⟨{ up with frm := { up.frm with phase := .commit } }, 500000, by decide +kernel⟩,
    ⟨up, by decide +kernel⟩⟩

theorem wit_TimeKeeping :
    (∃ (s : State) (at_ : Nat), s.hard.rails = true ∧ s.master = false ∧ s.frm.lastMsg + s.period * 10 ≤ at_ ∧ s.bit .frmStatus F.frmStatus_HOLDOVER = false)
    ∧ (∃ (s : State) (at_ : Nat), s.hard.rails = true ∧ s.master = false ∧ s.frm.lastMsg + 100000000 ≤ at_ ∧ s.bit .frmStatus F.frmStatus_IN_STEP = true)
    ∧ (∃ (s : State) (at_ : Nat), s.hard.rails = true ∧ s.bit .rasCtrl F.rasCtrl_BACKUP_MASTER = true ∧ s.master = false ∧ s.bit .frmStatus F.frmStatus_HOLDOVER = true ∧ s.frm.lastMsg + s.period * 10 + 10000000 ≤ at_)
    ∧ (∃ (s : State), s.hard.rails = true ∧ s.open_ = true ∧ bitN s.hard.lock.toNat 0 = false ∧ s.master = true)
    ∧ (∃ (s : State), s.hard.rails = true ∧ s.open_ = true ∧ bitN s.hard.lock.toNat 0 = false ∧ s.master = true)
    ∧ (∃ (s : State), s.hard.rails = true ∧ s.open_ = true ∧ bitN s.hard.lock.toNat 0 = false ∧ s.master = true ∧ s.frm.started = false)
    ∧ (∃ (s : State), s.hard.rails = true ∧ s.open_ = true ∧ bitN s.hard.lock.toNat 0 = false ∧ s.hard.cswValid = true) :=
  ⟨⟨upw [(.frmCtrl, F.frmCtrl_MASTER, 0)], 500000, by decide +kernel⟩,
    ⟨upw [(.frmCtrl, F.frmCtrl_MASTER, 0), (.frmStatus, F.frmStatus_IN_STEP, 1)], 100000000, by decide +kernel⟩,
    ⟨upw [(.frmCtrl, F.frmCtrl_MASTER, 0), (.frmStatus, F.frmStatus_HOLDOVER, 1), (.rasCtrl, F.rasCtrl_BACKUP_MASTER, 1)], 10500000, by decide +kernel⟩,
    ⟨up, by decide +kernel⟩,
    ⟨up, by decide +kernel⟩,
    ⟨up, by decide +kernel⟩,
    ⟨addressed up, by decide +kernel⟩⟩

theorem wit_OperationsAdmitted :
    (∃ (k : OpCmd) (s : State) (ctx : Nat) (x : Ctx) (o : Opc), s.fetches k ctx x ∧ s.checks x ∧ opcOf (s.nextDesc x).opcode = some o ∧ (s.looked x o).checkable x (s.nextDesc x) o ∧ (s.looked x o).refusal x (s.nextDesc x) x.fetched = none ∧ (s.looked x o).held x (s.nextDesc x) o = false)
    ∧ (∃ (k : OpCmd) (s : State) (ctx : Nat) (x : Ctx) (f : Fail), s.fetches k ctx x ∧ firstFail (versionFails x (s.nextDesc x)) = some f)
    ∧ (∃ (k : OpCmd) (s : State) (ctx : Nat) (x : Ctx) (o : Opc) (f : Fail), s.fetches k ctx x ∧ s.checks x ∧ opcOf (s.nextDesc x).opcode = some o ∧ (s.looked x o).refusal x (s.nextDesc x) x.fetched = some f ∧ f.1 < 0x15)
    ∧ (∃ (k : OpCmd) (s : State) (ctx : Nat) (x : Ctx) (o : Opc) (f : Fail), s.fetches k ctx x ∧ s.checks x ∧ opcOf (s.nextDesc x).opcode = some o ∧ (s.looked x o).refusal x (s.nextDesc x) x.fetched = some f ∧ (s.looked x o).checkable x (s.nextDesc x) o)
    ∧ (∃ (k : OpCmd) (s : State) (ctx : Nat) (x : Ctx), s.fetches k ctx x ∧ firstFail (versionFails x (s.nextDesc x)) = none ∧ s.tableHeld (s.nextDesc x) = true)
    ∧ (∃ (k : OpCmd) (s : State) (ctx : Nat) (x : Ctx) (o : Op) (c : Opc) (rest : List Op), s.hard.rails = true ∧ s.ctx? ctx = some x ∧ (s.part (s.partOf ctx)).rerun = o :: rest ∧ o.ctx = ctx ∧ o.desc.cmd = k ∧ s.partTakes (s.partOf ctx) = true ∧ opcOf o.opcode = some c ∧ o.stage ≠ .refused)
    ∧ (∃ (d : Desc), d.version / 16 < 3) :=
  ⟨⟨.nop, ring nopD, 8191, ringCtx, .nop, by unfold State.fetches State.checks State.checkable; decide +kernel⟩,
    ⟨.nop, ring (dsc []), 8191, ringCtx, (0x10, 0), by unfold State.fetches; decide +kernel⟩,
    ⟨.nop, ring (dsc [(1, 0x30), (4, 8191), (7, 5)]), 8191, ringCtx, .nop, (0x13, 7), by unfold State.fetches State.checks; decide +kernel⟩,
    ⟨.nop, ring (dsc [(1, 0x30), (4, 8191), (7, 5)]), 8191, ringCtx, .nop, (0x13, 7), by unfold State.fetches State.checks State.checkable; decide +kernel⟩,
    ⟨.gather, { (ring (dsc [(0, 3), (1, 0x30), (4, 8191)])) with tbl := { up.tbl with switches := [⟨0, 0, 0, []⟩] } }, 8191, ringCtx, by unfold State.fetches; decide +kernel⟩,
    ⟨.nop, parted { id := 0, rerun := [{ run [] with stage := .admitted }] } (ring nopD), 8191, ringCtx, { run [] with stage := .admitted }, .nop, [], by decide +kernel⟩,
    ⟨dsc [], by decide +kernel⟩⟩

/-- A gather record with nothing in it. -/
def chart0 : Chart := { (default : Chart) with ctx := 8191, part := 63 }

theorem wit_SamplingRuns :
    (∃ (s : State) (ctx : Nat) (o : Op), s.canRun ctx (isOpc .ingest) ([]) o)
    ∧ (∃ (s : State) (ctx : Nat) (o : Op), s.canRun ctx (isOpc .sample) o.sampleReads o) :=
  ⟨⟨runs (run [(0, 1)]) up, 8191, run [(0, 1)], by unfold State.canRun; decide +kernel⟩,
    ⟨runs (run [(0, 2)]) up, 8191, run [(0, 2)], by unfold State.canRun; decide +kernel⟩⟩

theorem wit_MatrixRuns :
    (∃ (s : State) (ctx : Nat) (o : Op), s.canRun ctx (isOpc .aggregate) (o.inputs .aggregate) o)
    ∧ (∃ (s : State) (ctx : Nat) (o : Op), s.canRun ctx (isOpc .dense) (s.denseReads o) o)
    ∧ (∃ (s : State) (ctx : Nat) (o : Op), s.canRun ctx (isOpc .epilogue) (o.inputs .epilogue) o)
    ∧ (∃ (s : State) (ctx : Nat) (o : Op), s.canRun ctx (isOpc .loss) (o.inputs .loss) o)
    ∧ (∃ (s : State) (ctx : Nat) (o : Op), s.canRun ctx (isOpc .predict) (o.inputs .predict) o) :=
  ⟨⟨runs (run [(0, 4)]) up, 8191, run [(0, 4)], by unfold State.canRun; decide +kernel⟩,
    ⟨runs (run [(0, 5)]) up, 8191, run [(0, 5)], by unfold State.canRun; decide +kernel⟩,
    ⟨runs (run [(0, 6)]) up, 8191, run [(0, 6)], by unfold State.canRun; decide +kernel⟩,
    ⟨runs (run [(0, 7)]) up, 8191, run [(0, 7)], by unfold State.canRun; decide +kernel⟩,
    ⟨runs (run [(0, 12)]) up, 8191, run [(0, 12)], by unfold State.canRun; decide +kernel⟩⟩

theorem wit_TableRowRuns :
    (∃ (s : State) (ctx : Nat) (o : Op), s.canRun ctx (isOpc .gather) (o.inputs .gather) o)
    ∧ (∃ (s : State) (ctx : Nat) (o : Op), s.canRun ctx (isOpc .scatter) (s.scatterReads o) o)
    ∧ (∃ (s : State) (ctx : Nat) (o : Op), s.canRun ctx (fun d => isOpc .update d && !d.flag 8) (o.inputs .update) o)
    ∧ (∃ (s : State) (ctx : Nat) (o : Op), s.canRun ctx (fun d => isOpc .update d && d.flag 8) ([]) o) :=
  ⟨⟨runs (run [(0, 3)]) up, 8191, run [(0, 3)], by unfold State.canRun; decide +kernel⟩,
    ⟨runs (run [(0, 8)]) up, 8191, run [(0, 8)], by unfold State.canRun; decide +kernel⟩,
    ⟨runs (run [(0, 9)]) up, 8191, run [(0, 9)], by unfold State.canRun; decide +kernel⟩,
    ⟨runs (run [(0, 9), (2, 256)]) up, 8191, run [(0, 9), (2, 256)], by unfold State.canRun; decide +kernel⟩⟩

theorem wit_CollectiveRuns :
    (∃ (s : State) (ctx : Nat) (o : Op), s.canRun ctx (isOpc .exchange) (o.inputs .exchange) o)
    ∧ (∃ (s : State) (ctx : Nat) (o : Op), s.canRun ctx (isOpc .reduce) (o.inputs .reduce) o)
    ∧ (∃ (s : State) (ctx : Nat) (o : Op), s.canRun ctx (fun d => isOpc .control d && d.fn == 5) (o.inputs .control) o) :=
  ⟨⟨runs (run [(0, 10)]) up, 8191, run [(0, 10)], by unfold State.canRun; decide +kernel⟩,
    ⟨runs (run [(0, 11)]) up, 8191, run [(0, 11)], by unfold State.canRun; decide +kernel⟩,
    ⟨runs (run [(0, 18), (112, 5)]) up, 8191, run [(0, 18), (112, 5)], by unfold State.canRun; decide +kernel⟩⟩

theorem wit_CopyAndTableRuns :
    (∃ (s : State) (ctx : Nat) (o : Op), s.canRun ctx (isCopy 0) (o.inputs .copy) o)
    ∧ (∃ (s : State) (ctx : Nat) (o : Op), s.canRun ctx (isCopy 1) (o.inputs .copy) o)
    ∧ (∃ (s : State) (ctx : Nat) (o : Op), s.canRun ctx (isCopy 2) (o.inputs .copy) o)
    ∧ (∃ (s : State) (ctx : Nat) (o : Op), s.canRun ctx (isCopy 3) (o.inputs .copy) o)
    ∧ (∃ (s : State) (ctx : Nat) (o : Op), s.canRun ctx (isTable 0) ([]) o)
    ∧ (∃ (s : State) (ctx : Nat) (o : Op), s.canRun ctx (isTable 1) (o.inputs .table) o)
    ∧ (∃ (s : State) (ctx : Nat) (o : Op), s.canRun ctx (isTable 2) (o.inputs .table) o)
    ∧ (∃ (s : State) (ctx : Nat) (o : Op), s.canRun ctx (isTable 3) (o.inputs .table) o)
    ∧ (∃ (s : State) (ctx : Nat) (o : Op), s.canRun ctx (isTable 4) ([]) o) :=
  ⟨⟨runs (run [(0, 13), (112, 0)]) up, 8191, run [(0, 13), (112, 0)], by unfold State.canRun; decide +kernel⟩,
    ⟨runs (run [(0, 13), (112, 1)]) up, 8191, run [(0, 13), (112, 1)], by unfold State.canRun; decide +kernel⟩,
    ⟨runs (run [(0, 13), (112, 2)]) up, 8191, run [(0, 13), (112, 2)], by unfold State.canRun; decide +kernel⟩,
    ⟨runs (run [(0, 13), (112, 3)]) up, 8191, run [(0, 13), (112, 3)], by unfold State.canRun; decide +kernel⟩,
    ⟨runs (run [(0, 14), (112, 0)]) up, 8191, run [(0, 14), (112, 0)], by unfold State.canRun; decide +kernel⟩,
    ⟨runs (run [(0, 14), (112, 1)]) up, 8191, run [(0, 14), (112, 1)], by unfold State.canRun; decide +kernel⟩,
    ⟨runs (run [(0, 14), (112, 2)]) up, 8191, run [(0, 14), (112, 2)], by unfold State.canRun; decide +kernel⟩,
    ⟨runs (run [(0, 14), (112, 3)]) up, 8191, run [(0, 14), (112, 3)], by unfold State.canRun; decide +kernel⟩,
    ⟨runs (run [(0, 14), (112, 4)]) up, 8191, run [(0, 14), (112, 4)], by unfold State.canRun; decide +kernel⟩⟩

theorem wit_ControlRuns :
    (∃ (s : State) (ctx : Nat) (o : Op), s.canRun ctx (isOpc .nop) [] o)
    ∧ (∃ (s : State) (ctx : Nat) (o : Op), s.canRun ctx (isControl 3) [] o)
    ∧ (∃ (s : State) (ctx : Nat) (o : Op), s.canRun ctx (isControl 4) [] o)
    ∧ (∃ (s : State) (ctx : Nat) (o : Op), s.canRun ctx (isControl 6) [] o ∧ (s.chart? o.ctx (o.desc.param 4 4)).isSome = true)
    ∧ (∃ (s : State) (ctx : Nat) (o : Op), s.canRun ctx (isControl 6) [] o ∧ s.chart? o.ctx (o.desc.param 4 4) = none)
    ∧ (∃ (s : State) (ctx : Nat) (o : Op), s.canRun ctx (isOpc .fence) [] o ∧ s.fenceClear o = true)
    ∧ (∃ (s : State) (ctx : Nat) (o : Op), s.canRun ctx (isSignal 0) [] o ∧ s.isOwn (pkgOf (o.desc.param 0 8)) = true ∧ remoteOff (o.desc.param 0 8) % 2 ^ 43 + 4 ≤ sramSize)
    ∧ (∃ (s : State) (ctx : Nat) (o : Op), s.canRun ctx (isSignal 1) [] o ∧ s.isOwn (pkgOf (o.desc.param 0 8)) = true ∧ remoteOff (o.desc.param 0 8) % 2 ^ 43 + 4 ≤ sramSize)
    ∧ (∃ (s : State) (ctx : Nat) (o : Op), s.canRun ctx (isSignal 2) [] o) :=
  ⟨⟨runs (run []) up, 8191, run [], by unfold State.canRun; decide +kernel⟩,
    ⟨runs (run [(0, 18), (112, 3)]) up, 8191, run [(0, 18), (112, 3)], by unfold State.canRun; decide +kernel⟩,
    ⟨runs (run [(0, 18), (112, 4)]) up, 8191, run [(0, 18), (112, 4)], by unfold State.canRun; decide +kernel⟩,
    ⟨{ (runs (run [(0, 18), (112, 6)]) up) with charts := [chart0] }, 8191, run [(0, 18), (112, 6)], by unfold State.canRun; decide +kernel⟩,
    ⟨runs (run [(0, 18), (112, 6)]) up, 8191, run [(0, 18), (112, 6)], by unfold State.canRun; decide +kernel⟩,
    ⟨runs (run [(0, 15)]) up, 8191, run [(0, 15)], by unfold State.canRun; decide +kernel⟩,
    ⟨runs (run [(0, 17), (124, 0), (112, 2 ^ 60)]) up, 8191, run [(0, 17), (124, 0), (112, 2 ^ 60)], by unfold State.canRun; decide +kernel⟩,
    ⟨runs (run [(0, 17), (124, 1), (112, 2 ^ 60)]) up, 8191, run [(0, 17), (124, 1), (112, 2 ^ 60)], by unfold State.canRun; decide +kernel⟩,
    ⟨runs (run [(0, 17), (124, 2)]) up, 8191, run [(0, 17), (124, 2)], by unfold State.canRun; decide +kernel⟩⟩

/-- Partition 63 with a pool of four units of 64 KiB, running one operation. -/
def pooled (l : List (Nat × Nat)) (bufs : List Buf) (freed : List Nat) : State :=
  parted { id := 63, pool := bufs, freed := freed } (runs (run l) (upw [(.schPoolSize 63, F.schPoolSize_UNITS, 4)]))

theorem wit_PoolRuns :
    (∃ (s : State) (ctx a : Nat) (o : Op), s.canRun ctx (isControl 1) [] o ∧ s.poolTurn o = true ∧ o.prog = [] ∧ firstFit (s.part o.part).pool (s.poolUnits o.part) (o.desc.param 4 4) ((s.part o.part).pool.length + 1) 0 = some a)
    ∧ (∃ (s : State) (ctx : Nat) (o : Op), s.canRun ctx (isControl 1) [] o ∧ s.poolTurn o = true ∧ o.prog = [] ∧ firstFit (s.part o.part).pool (s.poolUnits o.part) (o.desc.param 4 4) ((s.part o.part).pool.length + 1) 0 = none)
    ∧ (∃ (s : State) (ctx aux : Nat) (o : Op), s.canRun ctx (isControl 1) [] o ∧ s.poolTurn o = true ∧ o.prog = [aux])
    ∧ (∃ (s : State) (ctx : Nat) (o : Op), s.canRun ctx (isControl 2) [] o ∧ s.poolTurn o = true ∧ o.prog ≠ [])
    ∧ (∃ (s : State) (ctx u : Nat) (b : Buf) (o : Op), s.canRun ctx (isControl 2) [] o ∧ s.poolTurn o = true ∧ o.prog = [] ∧ o.desc.param 8 8 = s.poolBase o.part + 64 * u ∧ u < s.poolUnits o.part ∧ (s.part o.part).pool.find? (fun b => b.unit == u) = some b ∧ b.ctx = o.ctx ∧ b.tag = o.tag)
    ∧ (∃ (s : State) (ctx u : Nat) (b : Buf) (o : Op), s.canRun ctx (isControl 2) [] o ∧ s.poolTurn o = true ∧ o.prog = [] ∧ o.desc.param 8 8 = s.poolBase o.part + 64 * u ∧ u < s.poolUnits o.part ∧ (s.part o.part).pool.find? (fun b => b.unit == u) = some b ∧ b.ctx ≠ o.ctx)
    ∧ (∃ (s : State) (ctx u : Nat) (o : Op), s.canRun ctx (isControl 2) [] o ∧ s.poolTurn o = true ∧ o.prog = [] ∧ o.desc.param 8 8 = s.poolBase o.part + 64 * u ∧ u < s.poolUnits o.part ∧ (s.part o.part).pool.find? (fun b => b.unit == u) = none ∧ o.desc.param 8 8 ∈ (s.part o.part).freed) :=
  ⟨⟨pooled [(0, 18), (112, 1), (116, 4)] [] [], 8191, 0, run [(0, 18), (112, 1), (116, 4)], by unfold State.canRun; decide +kernel⟩,
    ⟨runs (run [(0, 18), (112, 1), (116, 4)]) up, 8191, run [(0, 18), (112, 1), (116, 4)], by unfold State.canRun; decide +kernel⟩,
    ⟨runs { run [(0, 18), (112, 1)] with prog := [64] } up, 8191, 64, { run [(0, 18), (112, 1)] with prog := [64] }, by unfold State.canRun; decide +kernel⟩,
    ⟨runs { run [(0, 18), (112, 2)] with prog := [0] } up, 8191, { run [(0, 18), (112, 2)] with prog := [0] }, by unfold State.canRun; decide +kernel⟩,
    ⟨pooled [(0, 18), (112, 2)] [⟨0, 4, 8191, 0⟩] [], 8191, 0, ⟨0, 4, 8191, 0⟩, run [(0, 18), (112, 2)], by unfold State.canRun; decide +kernel⟩,
    ⟨pooled [(0, 18), (112, 2)] [⟨0, 4, 0, 0⟩] [], 8191, 0, ⟨0, 4, 0, 0⟩, run [(0, 18), (112, 2)], by unfold State.canRun; decide +kernel⟩,
    ⟨pooled [(0, 18), (112, 2)] [] [0], 8191, 0, run [(0, 18), (112, 2)], by unfold State.canRun; decide +kernel⟩⟩

theorem wit_CommitSteps :
    (∃ (s : State) (ctx : Nat) (o : Op), s.hard.rails = true ∧ s.runTarget ctx (isOpc .commit) = some o ∧ o.prog = [])
    ∧ (∃ (s : State) (ctx : Nat) (o : Op), s.hard.rails = true ∧ s.runTarget ctx (isOpc .commit) = some o ∧ o.prog = [0] ∧ s.drained o.part = true ∧ s.flashDurable o.part = true)
    ∧ (∃ (s : State) (ctx mine frame st : Nat) (o : Op), s.hard.rails = true ∧ s.runTarget ctx (isOpc .commit) = some o ∧ o.prog = [1, mine, frame] ∧ s.decision o.part mine frame = some st)
    ∧ (∃ (s : State) (ctx : Nat) (o : Op), s.hard.rails = true ∧ s.runTarget ctx (isOpc .commit) = some o ∧ o.prog = [2] ∧ s.sealsOpen = false)
    ∧ (∃ (s : State) (p st de : Nat) (o : Op), s.hard.rails = true ∧ p < 64 ∧ s.ops.find? (fun o => o.part == p && isOpc .commit o.desc && o.stage == .started) = some o ∧ o.prog = [3, st, de])
    ∧ (∃ (s : State) (p st de : Nat) (o : Op), s.hard.rails = true ∧ p < 64 ∧ s.ops.find? (fun o => o.part == p && isOpc .commit o.desc && o.stage == .started) = some o ∧ o.prog = [4, st, de] ∧ s.drained p = true) :=
  ⟨⟨runs { run [(0, 16)] with prog := [] } up, 8191, { run [(0, 16)] with prog := [] }, by decide +kernel⟩,
    ⟨runs { run [(0, 16)] with prog := [0] } up, 8191, { run [(0, 16)] with prog := [0] }, by decide +kernel⟩,
    ⟨runs { run [(0, 16)] with prog := [1, 1, 0] } up, 8191, 1, 0, 0x30, { run [(0, 16)] with prog := [1, 1, 0] }, by decide +kernel⟩,
    ⟨runs { run [(0, 16)] with prog := [2] } up, 8191, { run [(0, 16)] with prog := [2] }, by decide +kernel⟩,
    ⟨runs { run [(0, 16)] with prog := [3, 0x30, 0] } up, 63, 0x30, 0, { run [(0, 16)] with prog := [3, 0x30, 0] }, by decide +kernel⟩,
    ⟨runs { run [(0, 16)] with prog := [4, 0x30, 0] } up, 63, 0x30, 0, { run [(0, 16)] with prog := [4, 0x30, 0] }, by decide +kernel⟩⟩

/-- A package in its work phase with one admitted operation. -/
def working (o : Op) : State := runs { o with stage := .admitted } ({ up with frm := { up.frm with phase := .work } })

theorem wit_OperationStarts :
    (∃ (s : State) (p : Nat) (o : Op) (c : Opc), s.hard.rails = true ∧ p < 64 ∧ s.ops.find? (fun o => o.part == p && o.isPrimary && o.stage != .refused && o.stage != .finished) = some o ∧ opcOf o.opcode = some c ∧ s.mayStart o c = true ∧ s.predAt o o.desc.depA ≠ .failed ∧ s.predAt o o.desc.depB ≠ .failed)
    ∧ (∃ (s : State) (ctx : Nat) (o : Op) (c : Opc), s.hard.rails = true ∧ ctx < 8192 ∧ opcOf o.opcode = some c ∧ (s.opsOf ctx).find? s.secondaryMay = some o ∧ s.predAt o o.desc.depA ≠ .failed ∧ s.predAt o o.desc.depB ≠ .failed)
    ∧ (∃ (s : State) (ctx : Nat) (o : Op) (c : Opc), s.hard.rails = true ∧ ctx < 8192 ∧ opcOf o.opcode = some c ∧ (s.opsOf ctx).find? s.secondaryMay = some o ∧ s.predAt o o.desc.depA = .failed)
    ∧ (∃ (s : State) (p : Nat), s.hard.rails = true ∧ p < 64 ∧ s.completionsDue p = true ∧ (s.part p).commit.isSome = true)
    ∧ (∃ (s : State) (p core : Nat), s.regionIn p (core / 128) = true) :=
  ⟨⟨working (run [(0, 5)]), 63, { run [(0, 5)] with stage := .admitted }, .dense, by decide +kernel⟩,
    ⟨working (run [(0, 13)]), 8191, { run [(0, 13)] with stage := .admitted }, .copy, by decide +kernel⟩,
    ⟨{ (working { run [(0, 13), (10, 1)] with num := 1 }) with ctxs := [(8191, { id := 8191, failed := [0] })] }, 8191, { run [(0, 13), (10, 1)] with num := 1, stage := .admitted }, .copy, by decide +kernel⟩,
    ⟨parted { id := 63, commit := some 0 } ({ up with frm := { up.frm with phase := .commit } }), 63, by decide +kernel⟩,
    ⟨upw [(.schRegState 127, F.schRegState_PARTITION, 63)], 63, 16383, by decide +kernel⟩⟩

theorem wit_Scheduling :
    (∃ (s : State) (core at_ : Nat) (t : Task), s.hard.rails = true ∧ core < 16384 ∧ (s.reach at_).coreFree core = true ∧ firstTask ((s.reach at_).ownReady core) = some t ∧ chargeAt t.bound ((s.reach at_).pstate ((s.reach at_).payer t core)) ≤ (s.reach at_).balance ((s.reach at_).payer t core))
    ∧ (∃ (s : State) (core : Nat) (t : Task), s.hard.rails = true ∧ core < 16384 ∧ s.tasks.find? (fun t => t.at_ == .running core) = some t ∧ (t.cluster, t.op) ∉ s.graph.waitBlocks)
    ∧ (∃ (s : State) (core : Nat) (t : Task), s.hard.rails = true ∧ core < 16384 ∧ s.tasks.find? (fun t => t.at_ == .running core) = some t ∧ (t.cluster, t.op) ∈ s.graph.waitBlocks)
    ∧ (∃ (s : State) (r : Nat), s.hard.rails = true ∧ r < 128 ∧ 10 ≤ s.fld (.schRegState r) F.schRegState_WAIT_TICKS)
    ∧ (∃ (s : State) (r : Nat), s.hard.rails = true ∧ r < 128 ∧ 8 ≤ sgetD r 0 s.pwr.good ∧ bitN (s.fld .pwrStatus F.pwrStatus_THROTTLE) (r / 16) = false)
    ∧ (∃ (s : State) (c at_ t0 : Nat) (x : Ctx), s.hard.rails = true ∧ c < 8192 ∧ s.ctx? c = some x ∧ x.waitsSince = some t0 ∧ t0 + s.fld .schLag F.schLag_LIMIT * 1000 < at_ ∧ s.bit .schLag F.schLag_ALARM = false) :=
  ⟨⟨{ (runs (run [(0, 5)]) (upw [(.schRegState 127, F.schRegState_PARTITION, 63), (.schRegCredit 127, F.schRegCredit_BALANCE, 8)])) with tasks := [⟨0, 0, 63, 127, 1023, 8, 0, 0, false, .ready⟩] }, 16383, 0, ⟨0, 0, 63, 127, 1023, 8, 0, 0, false, .ready⟩, by decide +kernel⟩,
    ⟨{ up with tasks := [⟨0, 0, 0, 127, 1023, 8, 0, 0, false, .running 16383⟩] }, 16383, ⟨0, 0, 0, 127, 1023, 8, 0, 0, false, .running 16383⟩, by decide +kernel⟩,
    ⟨{ up with tasks := [⟨0, 0, 0, 127, 1023, 8, 0, 0, false, .running 16383⟩], graph := { up.graph with waitBlocks := [(1023, 0)] } }, 16383, ⟨0, 0, 0, 127, 1023, 8, 0, 0, false, .running 16383⟩, by decide +kernel⟩,
    ⟨upw [(.schRegState 127, F.schRegState_WAIT_TICKS, 10)], 127, by decide +kernel⟩,
    ⟨{ up with pwr := { up.pwr with good := [(127, 8)] } }, 127, by decide +kernel⟩,
    ⟨{ upw [(.schLag, F.schLag_LIMIT, 0)] with ctxs := [(8191, { ringCtx with exposed := [(1, 0)] })] }, 8191, 1, 0, { ringCtx with exposed := [(1, 0)] }, by decide +kernel⟩⟩

/-- A region in which four clusters sample and a fifth waits. -/
def dedups : State :=
  { (runs (run [(0, 2)]) up) with
    tasks := [1016, 1017, 1018, 1019, 1023].map (fun c => ⟨0, c, 63, 127, c, 8, 0, 0, false, .running (16 * c)⟩)
    graph := { up.graph with openBlocks := [(1016, 0), (1017, 0), (1018, 0), (1019, 0)], waitBlocks := [(1023, 0)] } }

/-- A REDUCE of one member that has sent its pieces. -/
def reduceRun0 : CollRun := { (default : CollRun) with ctx := 8191, reduce := true, elems := 1, sent := true }

/-- A row on its way to the tail. -/
def move0 : Move := { (default : Move) with ctx := 8191 }

theorem wit_InnerSteps :
    (∃ (s : State) (cluster closing op : Nat), s.hard.rails = true ∧ s.dedupTrim.graph.waitBlocks.find? (fun x => x.1 == cluster) = some (cluster, op) ∧ closing / 8 = cluster / 8 ∧ (s.dedupTrim.graph.openBlocks.filter (fun y => y.1 / 8 == cluster / 8 && y.1 != closing)).length < 4)
    ∧ (∃ (s : State) (ctx r : Nat) (o : Op) (c : Chart), s.hard.rails = true ∧ r < 128 ∧ s.ops.find? (fun o => o.ctx == ctx && o.stage == .started && isOpc .scatter o.desc && s.merges o r) = some o ∧ s.chart? ctx (o.desc.param 0 2) = some c)
    ∧ (∃ (s : State) (ctx piece me : Nat) (o : Op) (r : CollRun) (g : Group), s.hard.rails = true ∧ s.ops.find? (fun o => o.ctx == ctx && o.stage == .started && isOpc .reduce o.desc && s.combines o piece) = some o ∧ s.run? o.seq = some r ∧ sget (o.desc.param 0 2) s.groups = some g ∧ s.rankIn g = some me)
    ∧ (∃ (s : State) (q : AliasReq) (rest : List AliasReq), s.hard.rails = true ∧ s.graph.queue = q :: rest ∧ s.aliasBusy q.node = false ∧ (∀ d ∈ s.graph.done, d.1 = q.graph → d.2.1 ≠ q.node))
    ∧ (∃ (s : State) (m : Move) (g p a map : Nat), s.hard.rails = true ∧ s.tbl.moves.find? s.moveDue = some m ∧ s.moveSource (s.tblAt m.desc) m = some (g, p, a, map) ∧ s.isOwn (pkgOf (s.shardE (s.repOp m.ctx m.desc) (s.tblAt m.desc).slot.2.2 g).ctrl) = true)
    ∧ (∃ (s : State) (n : Nat), s.hard.rails = true ∧ s.fld .tblSketchCtrl F.tblSketchCtrl_DECAY_FRAMES = n ∧ n ≠ 0 ∧ n ≤ s.tbl.decayAt) :=
  ⟨⟨dedups, 1023, 1016, 0, by decide +kernel⟩,
    ⟨{ (runs (run [(0, 8)]) up) with charts := [chart0], tbl := { up.tbl with merge := [{ (default : Partial) with region := 127 }] } }, 8191, 127, run [(0, 8)], chart0, by decide +kernel⟩,
    ⟨{ (runs (run [(0, 11)]) up) with groups := [(0, ⟨8191, [(0, 0)]⟩)], coll := { up.coll with runs := [reduceRun0] } }, 8191, 0, 0, run [(0, 11)], reduceRun0, ⟨8191, [(0, 0)]⟩, by decide +kernel⟩,
    ⟨{ up with graph := { up.graph with queue := [⟨0, 0, 0, 0, 0, 0⟩] } }, ⟨0, 0, 0, 0, 0, 0⟩, [], by decide +kernel⟩,
    ⟨{ up with tbl := { up.tbl with moves := [move0] } }, move0, 0, 0, 0, 0, by decide +kernel⟩,
    ⟨{ upw [(.tblSketchCtrl, F.tblSketchCtrl_DECAY_FRAMES, 1)] with tbl := { up.tbl with decayAt := 1 } }, 1, by decide +kernel⟩⟩

theorem wit_MicroOps : ∃ (s : State) (core : Nat), s.hard.rails = true ∧ core < 16384 := ⟨up, 16383, by decide +kernel⟩

theorem wit_MicroOpFrame : ∃ (c : Instr) (core : Nat) (ds : List Nat) (s : State), writesLanes c = some (core, ds) ∧ core < 16384 ∧ s.hard.rails = true :=
  ⟨.fma ⟨16383, 15⟩ 15 15 15, 16383, [15], up, by decide +kernel⟩

theorem wit_SyncCommands :
    (∃ (s : State) (core a : Nat), s.hard.rails = true ∧ core < 16384 ∧ syncWord a = true ∧ s.syncLocal a = true)
    ∧ (∃ (s : State) (core m off cond : Nat), s.hard.rails = true ∧ core < 16384 ∧ m < 4 ∧ off % 4 = 0 ∧ off + 4 ≤ 0xC0000 ∧ cond ≤ 2)
    ∧ (∃ (s : State) (core : Nat), s.hard.rails = true ∧ core < 16384)
    ∧ (∃ (s : State) (core limit : Nat), s.hard.rails = true ∧ core < 16384 ∧ 1 ≤ limit ∧ limit ≤ 2 ^ 24)
    ∧ (∃ (s : State) (core at_ : Nat) (w : Nat × Nat × Nat), s.hard.rails = true ∧ core < 16384 ∧ s.sync.waits.find? (fun w => w.1 == core) = some w ∧ w.2.1 + w.2.2 ≤ at_)
    ∧ (∃ (s : State) (core k p : Nat), s.hard.rails = true ∧ core < 16384 ∧ s.fld (.schRegState (core / 128)) F.schRegState_PARTITION = p ∧ p < 64 ∧ k < 16 ∧ core ∉ s.absent ∧ s.bit (.schBarCfg p k) F.schBarCfg_ENABLE = true ∧ s.coreDrained core = true)
    ∧ (∃ (s : State) (p k u : Nat), s.hard.rails = true ∧ p < 64 ∧ k < 16 ∧ s.bit (.schBarCfg p k) F.schBarCfg_ENABLE = true ∧ s.barReady p k u = true ∧ s.barScope p k ≠ 4) :=
  ⟨⟨up, 16383, 2 ^ 60 + sramSize - 4, by decide +kernel⟩,
    ⟨up, 16383, 3, 0xBFFFC, 2, by decide +kernel⟩,
    ⟨up, 16383, by decide +kernel⟩,
    ⟨up, 16383, 2 ^ 24, by decide +kernel⟩,
    ⟨{ up with sync := { up.sync with waits := [(16383, 0, 10)] } }, 16383, 10, (16383, 0, 10), by decide +kernel⟩,
    ⟨upw [(.schRegState 127, F.schRegState_PARTITION, 63), (.schBarCfg 63 15, F.schBarCfg_ENABLE, 1)], 16383, 15, 63, by decide +kernel⟩,
    ⟨{ upw [(.schBarCfg 63 15, F.schBarCfg_ENABLE, 1)] with sync := { up.sync with bars := [(barKey 63 15 0, { expected := [0], arrived := [0] })] } }, 63, 15, 0, by decide +kernel⟩⟩

theorem wit_SyncWordWrites : ∃ (s : State) (core a : Nat), s.hard.rails = true ∧ core < 16384 ∧ syncWord a = true ∧ s.syncLocal a = true :=
  ⟨up, 16383, 2 ^ 60 + sramSize - 4, by decide +kernel⟩

theorem wit_WriteMessages :
    (∃ (s : State) (x : Rx), s.inOrder x 0)
    ∧ (∃ (s : State) (x : Rx), s.inOrder x 0)
    ∧ (∃ (s : State) (x : Rx), s.inOrder x 2)
    ∧ (∃ (s : State) (x : Rx), s.inOrder x 3)
    ∧ (∃ (s : State) (x : Rx), s.inOrder x 0)
    ∧ (∃ (s : State) (x : Rx), s.arrivesNext x 3 ∧ x.code = 5) :=
  ⟨⟨linked, flit, by unfold State.inOrder State.arrivesNext; decide +kernel⟩,
    ⟨linked, flit, by unfold State.inOrder State.arrivesNext; decide +kernel⟩,
    ⟨linked, flit, by unfold State.inOrder State.arrivesNext; decide +kernel⟩,
    ⟨linked, flit, by unfold State.inOrder State.arrivesNext; decide +kernel⟩,
    ⟨linked, flit, by unfold State.inOrder State.arrivesNext; decide +kernel⟩,
    ⟨linked, { flit with code := 5 }, by unfold State.arrivesNext; decide +kernel⟩⟩

theorem wit_FrameTaggedMessages :
    (∃ (s : State) (x : Rx) (ctx : Nat), s.inOrder x 0 ∧ tagFrame s.frame x.tag = s.frame ∧ s.refusing ctx = false)
    ∧ (∃ (s : State) (x : Rx) (ctx group chunk : Nat), s.inOrder x 0 ∧ tagFrame s.frame x.tag = s.frame ∧ s.refusing ctx = false ∧ s.coll.runs.any (fun r => r.group == group && r.frame == s.frame && r.ordinal == chunk / 2 ^ 24) = true)
    ∧ (∃ (s : State) (x : Rx), s.inOrder x 3 ∧ tagFrame s.frame x.tag = s.frame)
    ∧ (∃ (s : State) (x : Rx), s.inOrder x 0 ∧ tagFrame s.frame x.tag = s.frame + 1 ∧ s.tickTime (s.frame + 1) ≤ x.at_ + 200)
    ∧ (∃ (s : State) (x : Rx), s.inOrder x 0 ∧ tagFrame s.frame x.tag = s.frame + 1 ∧ x.at_ + 200 < s.tickTime (s.frame + 1))
    ∧ (∃ (s : State) (x : Rx) (ctx : Nat), s.inOrder x 0 ∧ tagFrame s.frame x.tag + 1 = s.frame ∧ (s.part (s.partOf ctx)).stretch = 0 ∧ x.at_ ≤ s.frm.lastTick + 200 ∧ s.refusing ctx = false)
    ∧ (∃ (s : State) (x : Rx) (ctx : Nat), s.inOrder x 0 ∧ tagFrame s.frame x.tag + 1 = s.frame ∧ (s.part (s.partOf ctx)).stretch = 0 ∧ s.frm.lastTick + 200 < x.at_) :=
  ⟨⟨linked, flit, 0, by unfold State.inOrder State.arrivesNext; decide +kernel⟩,
    ⟨{ linked with coll := { up.coll with runs := [{ reduceRun0 with ctx := 0 }] } }, flit, 0, 0, 0, by unfold State.inOrder State.arrivesNext; decide +kernel⟩,
    ⟨linked, flit, by unfold State.inOrder State.arrivesNext; decide +kernel⟩,
    ⟨linked, { flit with tag := 1, at_ := 499800 }, by unfold State.inOrder State.arrivesNext; decide +kernel⟩,
    ⟨linked, { flit with tag := 1, at_ := 499799 }, by unfold State.inOrder State.arrivesNext; decide +kernel⟩,
    ⟨sets [(.frmNumber, F.frmNumber_FRAME, 1)] linked, { flit with at_ := 200 }, 0, by unfold State.inOrder State.arrivesNext; decide +kernel⟩,
    ⟨sets [(.frmNumber, F.frmNumber_FRAME, 1)] linked, { flit with at_ := 201 }, 0, by unfold State.inOrder State.arrivesNext; decide +kernel⟩⟩

theorem wit_ReadMessages :
    (∃ (s : State) (x : Rx) (ctx : Nat), s.inOrder x 1 ∧ s.refusing ctx = false)
    ∧ (∃ (s : State) (x : Rx) (ctx : Nat), s.inOrder x 1 ∧ s.refusing ctx = false)
    ∧ (∃ (s : State) (x : Rx), s.inOrder x 2) :=
  ⟨⟨linked, flit, 0, by unfold State.inOrder State.arrivesNext; decide +kernel⟩,
    ⟨linked, flit, 0, by unfold State.inOrder State.arrivesNext; decide +kernel⟩,
    ⟨linked, flit, by unfold State.inOrder State.arrivesNext; decide +kernel⟩⟩

theorem wit_ControlMessages :
    (∃ (s : State) (x : Rx), s.inOrder x 3)
    ∧ (∃ (s : State) (x : Rx), s.inOrder x 3)
    ∧ (∃ (s : State) (x : Rx), s.inOrder x 3)
    ∧ (∃ (s : State) (x : Rx), s.inOrder x 3)
    ∧ (∃ (s : State) (x : Rx), s.inOrder x 3) :=
  ⟨⟨linked, flit, by unfold State.inOrder State.arrivesNext; decide +kernel⟩,
    ⟨linked, flit, by unfold State.inOrder State.arrivesNext; decide +kernel⟩,
    ⟨linked, flit, by unfold State.inOrder State.arrivesNext; decide +kernel⟩,
    ⟨linked, flit, by unfold State.inOrder State.arrivesNext; decide +kernel⟩,
    ⟨linked, flit, by unfold State.inOrder State.arrivesNext; decide +kernel⟩⟩

theorem wit_ShoalMessages :
    (∃ (s : State) (x : Rx), s.inOrder x 0)
    ∧ (∃ (s : State) (x : Rx), s.inOrder x 0)
    ∧ (∃ (s : State) (x : Rx), s.inOrder x 0)
    ∧ (∃ (s : State) (x : Rx), s.inOrder x 0)
    ∧ (∃ (s : State) (x : Rx), s.inOrder x 0)
    ∧ (∃ (s : State) (x : Rx), s.inOrder x 0)
    ∧ (∃ (s : State) (x : Rx), s.inOrder x 0)
    ∧ (∃ (s : State) (x : Rx), s.inOrder x 0) :=
  ⟨⟨linked, flit, by unfold State.inOrder State.arrivesNext; decide +kernel⟩,
    ⟨linked, flit, by unfold State.inOrder State.arrivesNext; decide +kernel⟩,
    ⟨linked, flit, by unfold State.inOrder State.arrivesNext; decide +kernel⟩,
    ⟨linked, flit, by unfold State.inOrder State.arrivesNext; decide +kernel⟩,
    ⟨linked, flit, by unfold State.inOrder State.arrivesNext; decide +kernel⟩,
    ⟨linked, flit, by unfold State.inOrder State.arrivesNext; decide +kernel⟩,
    ⟨linked, flit, by unfold State.inOrder State.arrivesNext; decide +kernel⟩,
    ⟨linked, flit, by unfold State.inOrder State.arrivesNext; decide +kernel⟩⟩

theorem wit_StraitsOpen :
    (∃ (s : State) (n txDown rxDown : Nat), s.hard.rails = true ∧ s.mayTrain n txDown rxDown = true ∧ (s.strait n).retrain = none ∧ (s.strState n = 0 ∨ s.strState n = 1 ∨ s.strState n = 7))
    ∧ (∃ (s : State) (n txDown rxDown t : Nat), s.hard.rails = true ∧ s.mayTrain n txDown rxDown = true ∧ (s.strait n).retrain = some t)
    ∧ (∃ (s : State) (n version pkg port : Nat), s.hard.rails = true ∧ s.hears n = true ∧ version / 16 = 3 ∧ s.miscabled n pkg port = false ∧ s.strState n = 1 ∧ (s.strait n).retrain = none ∧ (s.strait n).hello = true)
    ∧ (∃ (s : State) (n version pkg port : Nat), s.hard.rails = true ∧ s.hears n = true ∧ version / 16 = 3 ∧ s.miscabled n pkg port = false ∧ s.strState n = 1 ∧ (s.strait n).retrain = none ∧ (s.strait n).hello = false)
    ∧ (∃ (s : State) (n : Nat) (p : StatusFlit), s.hard.rails = true ∧ n < 32 ∧ s.strState n = 1 ∧ (s.strait n).hello = true ∧ (s.strait n).retrain = none ∧ (s.strait n).measure = true ∧ p.tEcho ≠ 0 ∧ p.vcs = [] ∧ p.lane = none)
    ∧ (∃ (s : State) (n version pkg port : Nat), s.hard.rails = true ∧ s.hears n = true ∧ version / 16 = 3 ∧ s.miscabled n pkg port = true ∧ s.strState n ≠ 5)
    ∧ (∃ (s : State) (n : Nat), s.hard.rails = true ∧ s.open_ = true ∧ n < 32 ∧ bitN s.hard.lock.toNat 3 = false ∧ s.bit (.strCtrl n) F.strCtrl_ENABLE = true ∧ s.strUp n = true)
    ∧ (∃ (s : State) (n : Nat), s.hard.rails = true ∧ s.open_ = true ∧ n < 32 ∧ bitN s.hard.lock.toNat 3 = false ∧ s.bit (.strCtrl n) F.strCtrl_ENABLE = true ∧ F.strCtrl_RETRAIN.get (s.reg (.strCtrl n)) = 0)
    ∧ (∃ (s : State) (n t at_ : Nat), s.hard.rails = true ∧ n < 32 ∧ (s.strait n).retrain = some t ∧ t + 1000000 ≤ at_)
    ∧ (∃ (s : State) (n : Nat), s.hard.rails = true ∧ n < 32 ∧ s.strState n = 4 ∧ s.fld .pwrStatus F.pwrStatus_STATE = 0) :=
  ⟨⟨addressed (upw [(.strCtrl 31, F.strCtrl_ENABLE, 1), (.strStatus 31, F.strStatus_STATE, 7)]), 31, 0, 0, by decide +kernel⟩,
    ⟨addressed (strait { retrain := some 0 } [(.strCtrl 31, F.strCtrl_ENABLE, 1)]), 31, 0, 0, 0, by decide +kernel⟩,
    ⟨strait { trained := true, hello := true } [(.strStatus 31, F.strStatus_STATE, 1)], 31, 0x30, 0, 0, by decide +kernel⟩,
    ⟨strait { trained := true } [(.strStatus 31, F.strStatus_STATE, 1)], 31, 0x30, 0, 0, by decide +kernel⟩,
    ⟨strait { trained := true, hello := true, measure := true } [(.strStatus 31, F.strStatus_STATE, 1)], 31, ⟨[], 0, 1, 0, none⟩, by decide +kernel⟩,
    ⟨{ upw [(.devShell 31, F.devShell_ID_VALID, 1), (.devShell 31, F.devShell_TYPE, 0), (.strStatus 31, F.strStatus_STATE, 2)] with boot := { up.boot with shells := [(31, List.replicate 28 0 ++ [1, 0x80, 0])] } }, 31, 0x30, 0, 0, by decide +kernel⟩,
    ⟨linked, 31, by decide +kernel⟩,
    ⟨linked, 31, by decide +kernel⟩,
    ⟨strait { retrain := some 0 } [], 31, 0, 1000000, by decide +kernel⟩,
    ⟨upw [(.strStatus 31, F.strStatus_STATE, 4)], 31, by decide +kernel⟩⟩

theorem wit_StraitsWork :
    (∃ (s : State) (n : Nat) (p : StatusFlit), s.hard.rails = true ∧ n < 32 ∧ s.statusOn n = true ∧ (s.strait n).measure = false ∧ p.lane = none)
    ∧ (∃ (s : State) (n at_ : Nat), s.hard.rails = true ∧ n < 32 ∧ s.statusOn n = true ∧ (128 ≤ (s.strait n).got ∨ (s.strait n).gap = true ∨ (s.strait n).statusAt + 500 ≤ at_))
    ∧ (∃ (s : State) (n v : Nat), s.hard.rails = true ∧ n < 32 ∧ v < 4 ∧ s.carries n v = true)
    ∧ (∃ (s : State) (n : Nat), s.hard.rails = true ∧ n < 32)
    ∧ (∃ (s : State) (n : Nat), s.hard.rails = true ∧ n < 32 ∧ s.strState n ≠ 7 ∧ s.strState n ≠ 0)
    ∧ (∃ (s : State) (n f w : Nat), s.hard.rails = true ∧ n < 32 ∧ f < 4 ∧ w < 5 ∧ s.strUp n = true ∧ w ≠ 4 ∧ exclOf (s.fld (.strLaneMap n) F.strLaneMap_RX_EXCL03) f = 4
      ∧ (s.strait n).laneAsked = none ∧ (s.strait n).laneNext = [])
    ∧ (∃ (s : State) (n f w c : Nat), s.hard.rails = true ∧ n < 32 ∧ (s.strait n).laneAsked = some (f, w, c % 4096) ∧ (s.strait n).laneOk = true ∧ (s.strait n).laneTaken = none ∧ (s.strait n).laneNext = [])
    ∧ (∃ (s : State) (n : Nat), s.hard.rails = true ∧ n < 32 ∧ s.strUp n = true ∧ (s.strait n).retrain = none)
    ∧ (∃ (s : State) (dst : Nat) (t : E2eTx), s.hard.rails = true ∧ sget dst s.net.tx = some t) :=
  ⟨⟨linked, 31, ⟨[], 0, 0, 0, none⟩, by decide +kernel⟩,
    ⟨linked, 31, 500, by decide +kernel⟩,
    ⟨upw [(.strStatus 31, F.strStatus_STATE, 4)], 31, 3, by decide +kernel⟩,
    ⟨up, 31, by decide +kernel⟩,
    ⟨linked, 31, by decide +kernel⟩,
    ⟨upw [(.strStatus 31, F.strStatus_STATE, 2), (.strLaneMap 31, F.strLaneMap_RX_EXCL03, 4 * 8 ^ 3)], 31, 3, 3, by decide +kernel⟩,
    ⟨strait { laneAsked := some (3, 3, 0), laneOk := true } [], 31, 3, 3, 0, by decide +kernel⟩,
    ⟨linked, 31, by decide +kernel⟩,
    ⟨{ up with net := { up.net with tx := [(4095, {})] } }, 4095, {}, by decide +kernel⟩⟩

/-- An outstanding flash request of no bytes. -/
def flash0 (w : FlashFor) : FlashReq := { (default : FlashReq) with tag := 0, off := 0, len := 0, at_ := 0, got := [], what := w }

theorem wit_FerryFrames :
    (∃ (s : State) (r : FRx) (payload : List Byte), s.frameInOrder r 1 payload)
    ∧ (∃ (s : State) (r : FRx) (payload : List Byte) (q : FlashReq), s.frameInOrder r 6 payload ∧ (((s.frameTaken r).fryFree r.ferry 63 (frameBlocks payload.length)).ferry r.ferry).reqs.find? (fun q => q.tag == r.tag % 4096) = some q ∧ q.what.writes = false ∧ r.status = 0 ∧ r.arg % 2 ^ 42 = (q.off + q.come) % 2 ^ 42 ∧ ({ q with got := q.got ++ [(r.arg % 2 ^ 42, payload)] } : FlashReq).complete = true)
    ∧ (∃ (s : State) (r : FRx) (q : FlashReq), s.frameInOrder r 8 [] ∧ (((s.frameTaken r).fryFree r.ferry 63 (frameBlocks 0)).ferry r.ferry).reqs.find? (fun q => q.tag == r.tag % 4096) = some q ∧ q.what.writes = true ∧ r.status = 0)
    ∧ (∃ (s : State) (r : FRx) (q : FlashReq), s.frameInOrder r 8 [] ∧ (((s.frameTaken r).fryFree r.ferry 63 (frameBlocks 0)).ferry r.ferry).reqs.find? (fun q => q.tag == r.tag % 4096) = some q ∧ q.what.writes = true ∧ r.status ≠ 0)
    ∧ (∃ (s : State) (r : FRx), s.frameHeard r)
    ∧ (∃ (s : State) (r : FRx) (version : Nat), s.hard.rails = true ∧ r.ferry < 4 ∧ r.code = 0 ∧ version / 16 = 3 ∧ s.fryState r.ferry ∉ [0, 5, 6]) :=
  ⟨⟨ferried [(.fryChCfg 3 62, F.fryChCfg_ENABLE, 1)], ⟨3, 62, 0, true, 0, 735006822, 0, 0, 0, 0⟩, [], by unfold State.frameInOrder; decide +kernel⟩,
    ⟨(ferried [(.fryChCfg 3 63, F.fryChCfg_ENABLE, 1)]).setFerry 3 { reqs := [flash0 (.piece 0 0)] }, ⟨3, 63, 0, true, 0, 493450925, 0, 0, 0, 0⟩, [], flash0 (.piece 0 0), by unfold State.frameInOrder; decide +kernel⟩,
    ⟨(ferried [(.fryChCfg 3 63, F.fryChCfg_ENABLE, 1)]).setFerry 3 { reqs := [flash0 (.write none none)] }, ⟨3, 63, 0, true, 0, 76627402, 0, 0, 0, 0⟩, flash0 (.write none none), by unfold State.frameInOrder; decide +kernel⟩,
    ⟨(ferried [(.fryChCfg 3 63, F.fryChCfg_ENABLE, 1)]).setFerry 3 { reqs := [flash0 (.write none none)] }, ⟨3, 63, 0, true, 2, 3858757991, 0, 0, 0, 0⟩, flash0 (.write none none), by unfold State.frameInOrder; decide +kernel⟩,
    ⟨ferried [], ⟨3, 63, 0, true, 0, 0, 0, 0, 0, 0⟩, by unfold State.frameHeard; decide +kernel⟩,
    ⟨ferried [], ⟨3, 63, 0, true, 0, 0, 0, 0, 0, 0⟩, 0x30, by decide +kernel⟩⟩

theorem wit_FerryEvents :
    (∃ (s : State) (f c : Nat), s.hard.rails = true ∧ f < 4 ∧ c < 64)
    ∧ (∃ (s : State) (f tag at_ : Nat) (q : FlashReq), s.hard.rails = true ∧ f < 4 ∧ (s.ferry f).reqs.find? (fun q => q.tag == tag) = some q ∧ q.at_ + 1000 * s.fld (.fryCtrl f) F.fryCtrl_FLASH_TIMEOUT ≤ at_ ∧ q.what.writes = true)
    ∧ (∃ (s : State) (f tag at_ : Nat) (q : FlashReq), s.hard.rails = true ∧ f < 4 ∧ (s.ferry f).reqs.find? (fun q => q.tag == tag) = some q ∧ q.at_ + 1000 * s.fld (.fryCtrl f) F.fryCtrl_FLASH_TIMEOUT ≤ at_ ∧ q.what.writes = false)
    ∧ (∃ (s : State) (f : Nat), s.hard.rails = true ∧ f < 4)
    ∧ (∃ (s : State) (f : Nat), s.hard.rails = true ∧ f < 4 ∧ s.fryUp f = true ∧ s.fld (.fryStatus f) F.fryStatus_LANES = 8)
    ∧ (∃ (s : State) (f lanes : Nat), s.hard.rails = true ∧ f < 4 ∧ s.fld .devStatus F.devStatus_STAGE ∈ [5, 6] ∧ s.bit (.fryCtrl f) F.fryCtrl_ENABLE = true ∧ s.fryUp f = false ∧ s.bit (.devShell (ferryShell f)) F.devShell_TYPE_MISMATCH = false ∧ (lanes = 8 ∨ lanes = 4))
    ∧ (∃ (s : State) (f c : Nat) (v : Word), s.hard.rails = true ∧ s.open_ = true ∧ f < 4 ∧ c < 64 ∧ s.bit (.fryChCfg f c) F.fryChCfg_ENABLE = false ∧ F.fryChCfg_ENABLE.get v = 1) :=
  ⟨⟨up, 3, 63, by decide +kernel⟩,
    ⟨up.setFerry 3 { reqs := [{ flash0 (.write none none) with tag := 4095 }] }, 3, 4095, 65535000, { flash0 (.write none none) with tag := 4095 }, by decide +kernel⟩,
    ⟨up.setFerry 3 { reqs := [flash0 (.piece 0 0)] }, 3, 0, 65535000, flash0 (.piece 0 0), by decide +kernel⟩,
    ⟨up, 3, by decide +kernel⟩,
    ⟨ferried [(.fryStatus 3, F.fryStatus_LANES, 8)], 3, by decide +kernel⟩,
    ⟨upw [(.fryCtrl 3, F.fryCtrl_ENABLE, 1)], 3, 4, by decide +kernel⟩,
    ⟨up, 3, 62, 1, by decide +kernel⟩⟩

theorem wit_Doorbells :
    (∃ (s : State) (fn page c : Nat) (x : Ctx), s.hard.rails = true ∧ s.pageCtx fn page = some c ∧ s.ctx? c = some x ∧ s.doorbellsOn c = true)
    ∧ (∃ (s : State) (fn page c : Nat), s.hard.rails = true ∧ s.pageCtx fn page = some c)
    ∧ (∃ (s : State) (fn vec at_ : Nat), s.hard.rails = true ∧ 0 < (sgetD (vecKey fn vec) ({} : Moder) s.evt.moder).pend ∧ (sgetD (vecKey fn vec) ({} : Moder) s.evt.moder).since + 1000 * s.modTimer fn vec ≤ at_ ∧ s.modHeld fn vec = false) :=
  ⟨⟨{ upw [(.ctxCtrl 8191, F.ctxCtrl_ENABLE, 1)] with ctxs := [(8191, ringCtx)] }, 0, 8191, 8191, ringCtx, by decide +kernel⟩,
    ⟨up, 0, 8191, 8191, by decide +kernel⟩,
    ⟨{ up with evt := { up.evt with moder := [(vecKey 255 7, { pend := 1 })] } }, 255, 7, 65535000, by decide +kernel⟩⟩

theorem wit_ContextsAndPartitions :
    (∃ (s : State) (c : Nat) (v : Word), s.hard.rails = true ∧ s.open_ = true ∧ c < 8192 ∧ s.bit (.ctxCtrl c) F.ctxCtrl_ENABLE = false ∧ F.ctxCtrl_ENABLE.get v = 1)
    ∧ (∃ (s : State) (c : Nat), s.hard.rails = true ∧ s.open_ = true ∧ c < 8192 ∧ s.bit (.ctxCtrl c) F.ctxCtrl_ENABLE = true)
    ∧ (∃ (s : State) (c : Nat), s.hard.rails = true ∧ c < 8192 ∧ (s.ctx c).resetStep = 2 ∧ s.host.flr = false)
    ∧ (∃ (s : State) (c : Nat), s.hard.rails = true ∧ c < 8192 ∧ (s.ctx c).resetStep = 2 ∧ s.host.flr = true ∧ sdel c s.ctxs = [])
    ∧ (∃ (s : State) (c : Nat) (x : Ctx), s.hard.rails = true ∧ s.open_ = true ∧ c < 8192 ∧ s.bit (.ctxCtrl c) F.ctxCtrl_ENABLE = true ∧ F.ctxCtrl_RESET.get (s.reg (.ctxCtrl c)) = 0 ∧ s.ctx? c = some x ∧ s.segErr c = 0)
    ∧ (∃ (s : State) (p : Nat), s.hard.rails = true ∧ s.open_ = true ∧ p < 64 ∧ bitN s.hard.lock.toNat 6 = false ∧ s.bit (.hstPartCtrl p) F.hstPartCtrl_ACTIVE = false)
    ∧ (∃ (s : State) (p : Nat), s.hard.rails = true ∧ s.open_ = true ∧ p < 64 ∧ bitN s.hard.lock.toNat 6 = false ∧ s.bit (.hstPartCtrl p) F.hstPartCtrl_ACTIVE = true) :=
  ⟨⟨up, 8191, 1, by decide +kernel⟩,
    ⟨upw [(.ctxCtrl 8191, F.ctxCtrl_ENABLE, 1)], 8191, by decide +kernel⟩,
    ⟨{ up with ctxs := [(8191, { id := 8191, resetStep := 2 })] }, 8191, by decide +kernel⟩,
    ⟨{ up with ctxs := [(8191, { id := 8191, resetStep := 2 })], host := { up.host with flr := true } }, 8191, by decide +kernel⟩,
    ⟨({ upw [(.ctxCtrl 8191, F.ctxCtrl_ENABLE, 1), (.ctxPasid 8191, F.ctxPasid_SEG_COUNT, 1)] with ctxs := [(8191, ringCtx)] } : State).kWr 8 [63], 8191, ringCtx, by decide +kernel⟩,
    ⟨up, 63, by decide +kernel⟩,
    ⟨upw [(.hstPartCtrl 63, F.hstPartCtrl_ACTIVE, 1)], 63, by decide +kernel⟩⟩

theorem wit_HostEvents :
    (∃ (s : State) (fn : Nat), s.hard.rails = true ∧ fn ≠ 0 ∧ fn ≤ 255)
    ∧ (∃ (s : State), s.hard.rails = true ∧ s.ctxs = [])
    ∧ (∃ (s : State) (at_ : Nat), s.hard.rails = true ∧ ((s.reach at_).each (s.ctxs.map Prod.fst) State.contextReset).ctxs ≠ [])
    ∧ (∃ (s : State), s.hard.rails = true)
    ∧ (∃ (s : State), s.hard.rails = true ∧ s.ctxs ≠ [] ∧ s.host.downAt = none)
    ∧ (∃ (s : State) (rate : Nat), s.hard.rails = true ∧ 1 ≤ rate ∧ rate ≤ 6 ∧ s.host.downAt = none)
    ∧ (∃ (s : State) (ctx slot : Nat) (o : Op), s.hard.rails = true ∧ s.hostUser ctx slot = some o)
    ∧ (∃ (s : State) (off n k : Nat), s.hard.rails = true ∧ s.bar4 off n = some k)
    ∧ (∃ (s : State) (off n : Nat), s.hard.rails = true ∧ s.bar4 off n = none)
    ∧ (∃ (s : State) (off k : Nat) (bs : List Byte), s.hard.rails = true ∧ s.bar4 off bs.length = some k) :=
  ⟨⟨up, 255, by decide +kernel⟩,
    ⟨up, by decide +kernel⟩,
    ⟨{ up with ctxs := [(8191, ringCtx)] }, 0, by decide +kernel⟩,
    ⟨up, by decide +kernel⟩,
    ⟨{ up with ctxs := [(8191, ringCtx)] }, by decide +kernel⟩,
    ⟨up, 6, by decide +kernel⟩,
    ⟨runs (run [(0, 3)]) up, 8191, 48, run [(0, 3)], by decide +kernel⟩,
    ⟨up, 7 * dieRange + up.usable 7 - 8, 8, 7 * dieRange + up.usable 7 - 8, by decide +kernel⟩,
    ⟨up, 0xC300000000, 8, by decide +kernel⟩,
    ⟨up, 7 * dieRange + up.usable 7 - 8, 7 * dieRange + up.usable 7 - 8, List.replicate 8 1, by decide +kernel⟩⟩

theorem wit_WindowWriteFrame : ∃ (s : State) (off k : Nat) (bs : List Byte), s.hard.rails = true ∧ s.bar4 off bs.length = some k ∧ s.hbm.fenced = [] :=
  ⟨up, 7 * dieRange + up.usable 7 - 8, 7 * dieRange + up.usable 7 - 8, List.replicate 8 1, by decide +kernel⟩

theorem wit_Attestation :
    (∃ (s : State), s.hard.rails = true ∧ s.doe = true)
    ∧ (∃ (s : State) (stream : Nat), s.hard.rails = true ∧ s.doe = true ∧ s.host.spdm = 5 ∧ stream ≤ 8) :=
  ⟨⟨upw [(.hstLink, F.hstLink_RATE, 1)], by decide +kernel⟩,
    ⟨{ upw [(.hstLink, F.hstLink_RATE, 1)] with host := { up.host with spdm := 5 } }, 8, by decide +kernel⟩⟩

theorem wit_RegisterCommands :
    (∃ (s : State), s.hard.rails = true)
    ∧ (∃ (a x : Nat) (r : Reg), msixAddr a = false ∧ imageAddr a = false ∧ a % 8 = 0 ∧ Reg.ofAddr a = some r ∧ x < 2 ^ 64)
    ∧ (∃ (s : State) (a : Nat), s.hard.rails = true ∧ msixAddr a = false ∧ imageAddr a = false ∧ a % 8 = 0 ∧ Reg.ofAddr a = none)
    ∧ (∃ (s : State) (a : Nat), s.hard.rails = true ∧ a % 8 ≠ 0)
    ∧ (∃ (s : State) (fn vec : Nat), s.hard.rails = true ∧ s.open_ = true ∧ fn ≠ 0 ∧ fn ≤ 255 ∧ s.host.vfEnable = true ∧ fn ≤ s.host.numVfs ∧ vec < 8) :=
  ⟨⟨up, by decide +kernel⟩,
    ⟨0x10000, 2 ^ 64 - 1, .clkCtrl, by decide +kernel⟩,
    ⟨up, 0x638, by decide +kernel⟩,
    ⟨up, 1, by decide +kernel⟩,
    ⟨{ up with host := { up.host with vfEnable := true, numVfs := 255 } }, 255, 7, by decide +kernel⟩⟩

theorem wit_InterruptCommands :
    (∃ (s : State) (c : Nat) (p : Nat × Nat) (rest : List (Nat × Nat)), s.hard.rails = true ∧ s.open_ = true ∧ c < 4 ∧ nthD s.evt.cpStacks c [] = p :: rest)
    ∧ (∃ (s : State) (v : Word), s.hard.rails = true ∧ s.open_ = true ∧ s.bit (.irqVec (F.irqHostAck_VECTOR.get v)) F.irqVec_IN_SERVICE = true)
    ∧ (∃ (s : State) (c : Nat), s.hard.rails = true ∧ c < 4)
    ∧ (∃ (s : State) (c at_ t0 b : Nat), s.hard.rails = true ∧ c < 4 ∧ nthD s.evt.hold c none = some t0 ∧ t0 + 1000 * s.fld (.irqCp c) F.irqCp_TIMER ≤ at_ ∧ ((s.reach at_).holdEnd c).cpBest c = some b) :=
  ⟨⟨{ up with evt := { up.evt with cpStacks := [[], [], [], [(1, 767)]] } }, 3, (1, 767), [], by decide +kernel⟩,
    ⟨upw [(.irqVec 0, F.irqVec_IN_SERVICE, 1)], 0, by decide +kernel⟩,
    ⟨up, 3, by decide +kernel⟩,
    ⟨{ upw [(.irqSrc 767, F.irqSrc_PENDING, 1), (.irqSrc 767, F.irqSrc_ENABLE, 1), (.irqSrc 767, F.irqSrc_TARGET, 3), (.irqSrc 767, F.irqSrc_PRIORITY, 1)] with evt := { up.evt with hold := [none, none, none, some 0] } }, 3, 65535000, 0, 767, by decide +kernel⟩⟩

theorem wit_EventCommands :
    (∃ (s : State) (e : Event) (rest : List Event), s.hard.rails = true ∧ s.evt.pend = e :: rest ∧ s.bit .evtRingCtrl F.evtRingCtrl_ENABLE = true ∧ s.evtFull = false ∧ spaceOf s.evtBase ≠ 2)
    ∧ (∃ (s : State) (src : Nat), s.hard.rails = true ∧ src < 768)
    ∧ (∃ (s : State) (c : Coalesce), s.hard.rails = true ∧ s.evt.coal = some c ∧ s.evt.pend = [])
    ∧ (∃ (s : State) (v : Word), s.hard.rails = true ∧ s.open_ = true ∧ F.evtRingHead_HEAD.get v < s.evtSize)
    ∧ (∃ (s : State), s.hard.rails = true ∧ s.open_ = true)
    ∧ (∃ (s : State), s.hard.rails = true ∧ s.evt.snap = true) :=
  ⟨⟨{ upw [(.evtRingCtrl, F.evtRingCtrl_ENABLE, 1)] with evt := { up.evt with pend := [⟨0, 767, 1, 0, 0, none, none, 0, 0, [767]⟩] } }, ⟨0, 767, 1, 0, 0, none, none, 0, 0, [767]⟩, [], by decide +kernel⟩,
    ⟨up, 767, by decide +kernel⟩,
    ⟨{ up with evt := { up.evt with coal := some ⟨1, [0], 0, 0⟩ } }, ⟨1, [0], 0, 0⟩, by decide +kernel⟩,
    ⟨up, 0, by decide +kernel⟩,
    ⟨up, by decide +kernel⟩,
    ⟨{ up with evt := { up.evt with snap := true } }, by decide +kernel⟩⟩

theorem wit_PowerCommands :
    (∃ (s : State), s.hard.rails = true ∧ s.open_ = true)
    ∧ (∃ (s : State), s.hard.rails = true ∧ s.open_ = true)
    ∧ (∃ (s : State) (st : Nat), s.hard.rails = true ∧ s.sPending = true ∧ s.bit .frmCtrl F.frmCtrl_ENABLE = false ∧ s.idleNow = true ∧ s.fld .pwrCtrl F.pwrCtrl_REQ = st ∧ (List.range 32).filter s.strUp = [] ∧ (List.range 4).filter s.fryUp = [])
    ∧ (∃ (s : State) (d t : Nat), s.hard.rails = true ∧ d < 8 ∧ 840 ≤ t ∧ d ∉ s.pwr.stopped) :=
  ⟨⟨up, by decide +kernel⟩,
    ⟨up, by decide +kernel⟩,
    ⟨upw [(.pwrCtrl, F.pwrCtrl_REQ, 2), (.pwrStatus, F.pwrStatus_BUSY, 1)], 2, by decide +kernel⟩,
    ⟨up, 7, 840, by decide +kernel⟩⟩

theorem wit_MemoryCommands :
    (∃ (s : State) (stack : Nat), s.hard.rails = true ∧ stack < 16)
    ∧ (∃ (s : State) (stack b : Nat) (l : List Nat), s.hard.rails = true ∧ stack < 16 ∧ 64 * b < 2 ^ 44 ∧ s.burstCh b / 32 = stack ∧ l.eraseDups.length = 1)
    ∧ (∃ (s : State) (stack b : Nat) (l : List Nat), s.hard.rails = true ∧ stack < 16 ∧ 64 * b < 2 ^ 44 ∧ s.burstCh b / 32 = stack ∧ 2 ≤ l.eraseDups.length)
    ∧ (∃ (s : State) (src : Nat), s.hard.rails = true ∧ s.hbm.slots.find? (fun x => x.1 == 0 && x.2.1 == src) = none)
    ∧ (∃ (s : State) (e : BurstErr) (p : Nat), s.hard.rails = true ∧ p < 64 ∧ s.codeFinds e = .uncorrectable)
    ∧ (∃ (s : State) (e : BurstErr) (p : Nat), s.hard.rails = true ∧ p < 64 ∧ s.codeFinds e = .corrected)
    ∧ (∃ (s : State) (c th : Nat), s.hard.rails = true ∧ c < 512 ∧ s.fld .memCtrl F.memCtrl_CE_THRESH = th ∧ th ≠ 0 ∧ th < sgetD c 0 s.hbm.ceCount)
    ∧ (∃ (s : State) (c lines : Nat), s.hard.rails = true ∧ c < 512 ∧ s.hbm.copy = none ∧ (c, false) ∈ s.hbm.cand ∧ s.mapoutOk (c / 64) = true ∧ lines < copyLines)
    ∧ (∃ (s : State) (c : Nat), s.hard.rails = true ∧ c < 512 ∧ (c, true) ∈ s.hbm.cand ∧ s.mapoutOk (c / 64) = true) :=
  ⟨⟨up, 15, by decide +kernel⟩,
    ⟨up, 0, 0, [67], by decide +kernel⟩,
    ⟨up, 0, 0, [0, 67], by decide +kernel⟩,
    ⟨up, 767, by decide +kernel⟩,
    ⟨up, ⟨0, [], some (511, 0)⟩, 63, by decide +kernel⟩,
    ⟨up, ⟨0, [67], none⟩, 63, by decide +kernel⟩,
    ⟨{ upw [(.memCtrl, F.memCtrl_CE_THRESH, 1)] with hbm := { up.hbm with ceCount := [(511, 2)] } }, 511, 1, by decide +kernel⟩,
    ⟨{ upw [(.memCtrl, F.memCtrl_RESERVE, 1)] with hbm := { up.hbm with cand := [(511, false)] } }, 511, 0, by decide +kernel⟩,
    ⟨{ upw [(.memCtrl, F.memCtrl_RESERVE, 1)] with hbm := { up.hbm with cand := [(511, true)] } }, 511, by decide +kernel⟩⟩

theorem wit_FaultCommands :
    (∃ (s : State) (pid l : Nat), s.hard.rails = true ∧ pid < 32768 ∧ pid % 32 ≤ 16 ∧ s.logicalOf pid = some l ∧ pid ∉ s.boot.coresDue.map Prod.fst ∧ l ∉ s.absent ∧ s.lostIn (pid / 32) < 2)
    ∧ (∃ (s : State) (r : Nat), s.hard.rails = true ∧ r < 128 ∧ r ∉ s.boot.withheld)
    ∧ (∃ (s : State) (d : Nat), s.hard.rails = true ∧ d < 8)
    ∧ (∃ (s : State) (p : Nat), s.hard.rails = true ∧ p < 64 ∧ (s.part p).recovering = true)
    ∧ (∃ (s : State) (c : Nat), s.hard.rails = true ∧ c < 4)
    ∧ (∃ (s : State) (x : Nat), s.hard.rails = true ∧ x < 4096) :=
  ⟨⟨up, 32751, 16383, by decide +kernel⟩,
    ⟨up, 127, by decide +kernel⟩,
    ⟨up, 7, by decide +kernel⟩,
    ⟨parted { id := 63, recovering := true } up, 63, by decide +kernel⟩,
    ⟨up, 3, by decide +kernel⟩,
    ⟨up, 4095, by decide +kernel⟩⟩

theorem wit_ShoalCommands :
    (∃ (s : State) (v : Word), s.hard.rails = true ∧ s.open_ = true ∧ bitN s.hard.lock.toNat 4 = false ∧ s.bit .rasShoalCtrl F.rasShoalCtrl_ENABLE = false ∧ F.rasShoalCtrl_ENABLE.get v = 1 ∧ F.rasShoalCtrl_INIT.get v = 0)
    ∧ (∃ (s : State), s.hard.rails = true ∧ s.open_ = true ∧ bitN s.hard.lock.toNat 4 = false ∧ s.bit .rasShoalCtrl F.rasShoalCtrl_ENABLE = true)
    ∧ (∃ (s : State) (k n : Nat), s.hard.rails = true ∧ s.bit .rasShoalCtrl F.rasShoalCtrl_ENABLE = true ∧ s.fld .rasShoalStatus F.rasShoalStatus_STATE ∉ [0, 3, 5] ∧ s.shoalRanges.any (fun r => overlap k n r.1 r.2) = true)
    ∧ (∃ (s : State) (v : Word), s.hard.rails = true ∧ s.open_ = true ∧ F.rasAlias_VALID.get v = 0)
    ∧ (∃ (s : State) (me : Nat), s.hard.rails = true ∧ s.shRank = some me ∧ s.bit .rasAlias F.rasAlias_VALID = true)
    ∧ (∃ (s : State) (first n me r : Nat), s.hard.rails = true ∧ s.bit .rasShoalCtrl F.rasShoalCtrl_MODE = true ∧ s.bit .rasShoalStandby F.rasShoalStandby_VALID = false ∧ s.shRank = some me ∧ s.bit .rasAlias F.rasAlias_VALID = false ∧ s.fld .rasShoalStatus F.rasShoalStatus_STATE = 4 ∧ findIdxN (· == s.fld .rasShoalStatus F.rasShoalStatus_LOST) 0 s.members = some r ∧ first + n < (s.rebuildLines me r first n).fld .rasShoalLines F.rasShoalLines_LINES) :=
  ⟨⟨up, F.rasShoalCtrl_ENABLE.put 0 1, by decide +kernel⟩,
    ⟨upw [(.rasShoalCtrl, F.rasShoalCtrl_ENABLE, 1)], by decide +kernel⟩,
    ⟨upw [(.rasShoalCtrl, F.rasShoalCtrl_ENABLE, 1), (.rasShoalStatus, F.rasShoalStatus_STATE, 2), (.rasShoalRangeLines 7, F.rasShoalRangeLines_LINES, 1)], 2047, 1, by decide +kernel⟩,
    ⟨up, 0, by decide +kernel⟩,
    ⟨upw [(.rasShoalCtrl, F.rasShoalCtrl_K, 2), (.rasShoalCtrl, F.rasShoalCtrl_M, 1), (.rasAlias, F.rasAlias_VALID, 1)], 0, by decide +kernel⟩,
    ⟨upw [(.rasShoalCtrl, F.rasShoalCtrl_K, 2), (.rasShoalCtrl, F.rasShoalCtrl_M, 1), (.rasShoalCtrl, F.rasShoalCtrl_MODE, 1), (.rasShoalStatus, F.rasShoalStatus_STATE, 4), (.rasShoalStatus, F.rasShoalStatus_LOST, 5), (.rasShoalMember 0, F.rasShoalMember_ID1, 5), (.rasShoalLines, F.rasShoalLines_LINES, 1)], 0, 0, 0, 1, by decide +kernel⟩⟩

theorem wit_HardOkKept : ∃ (s t : State), s.hardOk = true ∧ step s = .next t :=
  ⟨addressed up, addressed up, by decide +kernel, rfl⟩

theorem wit_FusesNeverFall :
    (∃ (s : State), s.hard.rails = true ∧ bitN s.hard.lock.toNat 5 = false ∧ 3 ≤ s.stage ∧ s.stage ≠ 7 ∧ s.boot.fwSvn ≤ 64)
    ∧ (∃ (s t : State), step s = .next t) :=
  ⟨⟨up, by decide +kernel⟩,
    ⟨up, up, rfl⟩⟩

theorem wit_LocksStay :
    (∃ (s t : State) (c : Instr) (q : List Instr), mayRestart c = false ∧ step { s with pending := c :: q } = .next t)
    ∧ (∃ (v : Word), F.devReset_PACKAGE.get v ≠ 1)
    ∧ (∃ (s : State), s.hard.rails = true)
    ∧ (∃ (s : State), s.hard.rails = false) :=
  ⟨⟨{ dead with hard := { dead.hard with lock := 0x80 } }, { dead with hard := { dead.hard with lock := 0x80 } }, .nop .run 0, [], by decide +kernel, rfl⟩,
    ⟨0, by decide +kernel⟩,
    ⟨up, by decide +kernel⟩,
    ⟨dead, by decide +kernel⟩⟩

theorem wit_AddressKept :
    (∃ (s t : State), s.hard.cswValid = true ∧ step s = .next t)
    ∧ (∃ (s : State), s.hard.cswValid = false)
    ∧ (∃ (s : State), s.hard.cswValid = false)
    ∧ (∃ (s : State), s.hard.cswValid = false)
    ∧ (∃ (s t : State), s.hard.cswValid = false ∧ exec .framesEnable s = .next t) :=
  ⟨⟨addressed up, addressed up, by decide +kernel, rfl⟩,
    ⟨up, by decide +kernel⟩,
    ⟨up, by decide +kernel⟩,
    ⟨up, by decide +kernel⟩,
    ⟨dead, dead, by decide +kernel, rfl⟩⟩

theorem wit_LockedRegisters : ∃ (s : State) (a b : Nat) (r : Reg), s.hard.rails = true ∧ msixAddr a = false ∧ imageAddr a = false ∧ a % 8 = 0 ∧ Reg.ofAddr a = some r ∧ s.takes r = true ∧ r.lockBit = some b ∧ bitN s.hard.lock.toNat b = true ∧ r ≠ .rasShoalCtrl :=
  ⟨{ up with hard := { up.hard with lock := 0x80 } }, 0xB0000, 7, .cswCtrl, by decide +kernel⟩

theorem wit_FieldsByAccess : ∃ (r : Reg) (f : Fld), f ∈ r.fields ∧ r ∉ [.devLock, .cswAddr, .devFw] :=
  ⟨.frmPeriod, F.frmPeriod_PERIOD, by decide +kernel⟩

theorem wit_DuplicatePostedWrites : ∃ (s : State) (x : Rx) (e2e : Nat), s.inOrder x 0 ∧ ((s.strait x.strait).rxv 0).held = [] ∧ s.coll.owed = [] ∧ 2 ^ 31 ≤ (e2e + 2 ^ 32 - (sgetD (s.e2eKey x.src x.dst) ({} : E2eRx) s.net.rx).next) % 2 ^ 32 :=
  ⟨linked, flit, 2 ^ 31, by unfold State.inOrder State.arrivesNext; decide +kernel⟩

theorem wit_LinesDoNotCollide : ∃ (mapped : List (List Nat)) (a b : Nat), (∀ d, (nthD mapped d []).Nodup ∧ (nthD mapped d []).length ≤ 8 ∧ ∀ c ∈ nthD mapped d [], c < 64) ∧ (hbmHome a).2.2 < 786432 - 12288 * (nthD mapped (hbmHome a).1 []).length ∧ (hbmHome b).2.2 < 786432 - 12288 * (nthD mapped (hbmHome b).1 []).length ∧ hbmLocate mapped a = hbmLocate mapped b :=
  ⟨[[], [16]], 0x2012345678, 0x2012345678, by rintro (_ | _ | d) <;> simp [nthD], by decide +kernel⟩

theorem wit_MicroOpValues :
    (∃ (a : W32), isNan32 a = false)
    ∧ (∃ (a b : W32), (isNan32 a = true ∨ isNan32 b = true))
    ∧ (∃ (a : W32), isNan32 a = true)
    ∧ (∃ (a : W32), isNan32 a = true) :=
  ⟨⟨0x80000000#32, by decide +kernel⟩,
    ⟨0x7FC00000#32, 0, by decide +kernel⟩,
    ⟨0xFFC00001#32, by decide +kernel⟩,
    ⟨0x7FC00000#32, by decide +kernel⟩⟩

theorem wit_PoolFirstFit : ∃ (n : Nat), 1 ≤ n :=
  ⟨1, by decide +kernel⟩

theorem wit_CommitVerdict :
    (∃ (s : State) (p : Nat), s.fld (.schCommitCtrl p) F.schCommitCtrl_GROUP = 0)
    ∧ (∃ (s : State) (ctx mine frame : Nat) (o : Op), s.hard.rails = true ∧ s.runTarget ctx (isOpc .commit) = some o ∧ o.prog = [1, mine, frame] ∧ s.decision o.part mine frame = some 0)
    ∧ (∃ (s : State) (ctx mine frame : Nat) (o : Op), s.hard.rails = true ∧ s.runTarget ctx (isOpc .commit) = some o ∧ o.prog = [1, mine, frame] ∧ s.decision o.part mine frame = some 0x32) :=
  ⟨⟨up, 63, by decide +kernel⟩,
    ⟨runs { run [(0, 16)] with prog := [1, 0, 0] } up, 8191, 0, 0, { run [(0, 16)] with prog := [1, 0, 0] }, by decide +kernel⟩,
    ⟨runs { run [(0, 16)] with prog := [1, 2, 0] } up, 8191, 2, 0, { run [(0, 16)] with prog := [1, 2, 0] }, by decide +kernel⟩⟩

/-- Hypotheses inside a conclusion: another chassis, a satisfied monitor or none, doorbell values at the bound, a partition in use, steps of the SPDM connection, field accesses, pools with and without room, verdicts. -/
theorem wit_inner :
    (1 : Nat) % 64 ≠ (addressed up).hard.cswChassis
    ∧ ({ up with sync := { up.sync with mons := [⟨16383, 3, 0, 0, 0, true⟩] } } : State).monMask 16383 ≠ 0 ∧ up.monMask 16383 = 0
    ∧ 63 < 2 ^ ringCtx.sqLog2 ∧ 2 ^ ringCtx.sqLog2 ≤ 64 ∧ ringCtx.tail ≠ up.fld (.ctxStatus 8191) F.ctxStatus_SQ_HEAD
    ∧ up.partInUse 63 = false ∧ ({ upw [(.ctxCtrl 8191, F.ctxCtrl_ENABLE, 1), (.ctxCtrl 8191, F.ctxCtrl_PARTITION, 63)] with
        ctxs := [(8191, ringCtx)] } : State).partInUse 63 = true
    ∧ fieldInRange .cswCtrl F.cswCtrl_STATUS_MS 0 = false ∧ fieldInRange .cswCtrl F.cswCtrl_STATUS_MS 1 = true
    ∧ firstFit [] 1 1 1 0 = some 0 ∧ firstFit [⟨0, 1, 0, 0⟩] 1 1 2 0 = none
    ∧ (parted { id := 63, taint := true, nonfinite := true } up).decision 63 1 0 = some 0x30
    ∧ (parted { id := 63, nonfinite := true } up).decision 63 2 0 = some 0x32 ∧ up.decision 63 0 0 = some 0 := by
  decide +kernel

end Sys2Proof.Tests
end

section
/-! SUPPORT. The causeway's cells, and the addressing token (ch. 19, R685–R687). -/

namespace Sys2Proof.Machine

/-! ### Cells -/

theorem State.onCsw_on (f : State → State) (s : State) (h : s.hard.vcsw = true) :
    s.onCsw f = { f s with hard := s.hard, pending := s.pending } := by
  unfold State.onCsw; simp [h]

/-- An effect that keeps the hardware and the queue by itself is the whole effect while the causeway is supplied. -/
theorem State.onCsw_eq (f : State → State) (s : State) (h : s.hard.vcsw = true) (h1 : (f s).hard = s.hard)
    (h2 : (f s).pending = s.pending) : s.onCsw f = f s := by
  rw [State.onCsw_on f s h, ← h1, ← h2]

/-- A cell that has not passed 64 packages goes on, with one hop more (R685). -/
theorem State.forwardCell_of_lt (s : State) (typ : Nat) (h : CellHdr) (payload : List Byte) (hh : h.hops < 64) :
    s.forwardCell typ h payload = s.emit (.cell typ h.dst h.src (h.hops + 1) h.seq payload) := by
  rw [State.forwardCell, if_pos (by omega)]

/-- No cell that arrives touches fuses, locks, rails or the address by its arrival (R685). -/
@[simp] theorem State.cellIn_hard (s : State) (typ : Nat) (h : CellHdr) (payload : List Byte) :
    (s.cellIn typ h payload).2.hard = s.hard := by
  unfold State.cellIn
  repeat' split
  all_goals simp

@[simp] theorem State.sendCell_hard (s : State) (typ : Nat) (payload : List Byte) : (s.sendCell typ payload).hard = s.hard :=
  State.onCsw_hard _ s

@[simp] theorem State.regData_hard (s : State) (off tag value status : Nat) : (s.regData off tag value status).hard = s.hard :=
  State.sendCell_hard s _ _

/-! ### The addressing token -/

/-- What a token leaves in CSW_STATUS: CONFLICT and FULL are set, and never cleared (R687). -/
def State.tokenMarks (s : State) (conflict full : Bool) : State :=
  let s := if conflict then s.setFld .cswStatus F.cswStatus_CONFLICT 1 else s
  if full then s.setFld .cswStatus F.cswStatus_FULL 1 else s

theorem State.regsEvt_tokenMarks (s : State) (conflict full : Bool) : s.RegsEvt (s.tokenMarks conflict full) :=
  (State.RegsEvt.ite (regsEvt_setFld s _ _ _) (.refl s)).trans (.ite (regsEvt_setFld _ _ _ _) (.refl _))

@[simp] theorem State.tokenMarks_hard (s : State) (conflict full : Bool) : (s.tokenMarks conflict full).hard = s.hard := by
  rw [s.regsEvt_tokenMarks conflict full]

@[simp] theorem State.tokenMarks_pending (s : State) (conflict full : Bool) : (s.tokenMarks conflict full).pending = s.pending := by
  rw [s.regsEvt_tokenMarks conflict full]

@[simp] theorem State.tokenMarks_outbox (s : State) (conflict full : Bool) : (s.tokenMarks conflict full).outbox = s.outbox := by
  rw [s.regsEvt_tokenMarks conflict full]

/-- FULL is another field of CSW_STATUS, so setting it leaves a CONFLICT that was set. -/
theorem State.tokenMarks_conflict (s : State) (full : Bool) : (s.tokenMarks true full).fld .cswStatus F.cswStatus_CONFLICT = 1 := by
  have hset : (s.setFld .cswStatus F.cswStatus_CONFLICT 1).fld .cswStatus F.cswStatus_CONFLICT = 1 :=
    State.fld_setFld s _ _ _ rfl (by decide)
  cases full with
  | false => exact hset
  | true => exact (State.fld_setFld_other _ _ _ _ _ rfl (by decide) (by decide)).trans hset

/-- The effect of a token on CSW_STATUS and the cell that goes on, for a good token and with the supply on. -/
theorem State.onCsw_token (s : State) (h : CellHdr) (conflict full : Bool) (out : List Byte) (hv : s.hard.vcsw = true)
    (hh : h.hops < 64) :
    s.onCsw (fun s => (s.tokenMarks conflict full).forwardCell 1 h out)
      = (s.tokenMarks conflict full).emit (.cell 1 h.dst h.src (h.hops + 1) h.seq out) := by
  simp only [State.forwardCell_of_lt _ _ _ _ hh]
  exact State.onCsw_eq _ s hv (by simp) (by simp)

section token
variable {s : State} {h : CellHdr} (chassis : Nat) {next : Nat} (conflict full : Bool)
  (hv : s.hard.vcsw = true) (hc : h.crcOk = true) (hh : h.hops < 64)
include hv hc hh

/-- Without an address, NEXT below 64 and the chassis are taken, and the token goes on with NEXT + 1 (R687). -/
theorem addrToken_taken (ha : s.hard.cswValid = false) (hn : next < 64) :
    addrToken h chassis next conflict full s =
      { (s.tokenMarks false false).emit (.cell 1 h.dst h.src (h.hops + 1) h.seq [BitVec.ofNat 8 (chassis % 64),
          BitVec.ofNat 8 (next + 1), BitVec.ofNat 8 ((if conflict then 1 else 0) + (if full then 2 else 0))]) with
        hard := { s.hard with cswValid := true, cswPos := next, cswChassis := chassis % 64 } } := by
  rw [← State.onCsw_token _ _ _ _ _ hv hh]
  simp [addrToken, State.tokenMarks, ha, hv, hc, hn, Nat.not_le.mpr hn]

/-- Without an address and with NEXT at 64, nothing is taken, and the token goes on with FULL set (R687). -/
theorem addrToken_full (ha : s.hard.cswValid = false) (hn : 64 ≤ next) :
    addrToken h chassis next conflict full s =
      (s.tokenMarks false true).emit (.cell 1 h.dst h.src (h.hops + 1) h.seq [BitVec.ofNat 8 (chassis % 64), BitVec.ofNat 8 next,
        BitVec.ofNat 8 ((if conflict then 1 else 0) + 2)]) := by
  rw [← State.onCsw_token _ _ _ _ _ hv hh]
  simp [addrToken, State.tokenMarks, ha, hv, hc, hn, Nat.not_lt.mpr hn]

/-- A package with an address keeps it; the token goes on past its position, with CONFLICT for another chassis (R687). -/
theorem addrToken_kept (ha : s.hard.cswValid = true) :
    addrToken h chassis next conflict full s =
      (s.tokenMarks (chassis % 64 != s.hard.cswChassis % 64) (decide (64 ≤ next))).emit
        (.cell 1 h.dst h.src (h.hops + 1) h.seq [BitVec.ofNat 8 (chassis % 64), BitVec.ofNat 8 (max next (s.hard.cswPos % 64 + 1)),
          BitVec.ofNat 8 ((if conflict || chassis % 64 != s.hard.cswChassis % 64 then 1 else 0) + (if full then 2 else 0))]) := by
  rw [← State.onCsw_token _ _ _ _ _ hv hh]
  simp [addrToken, State.tokenMarks, ha, hv, hc]

end token

/-- Settles O6: one equation of ADDR_TOKEN for each of the three cases of R687. -/
theorem addressToken : Obligations.AddressToken := by
  unfold Obligations.AddressToken
  refine ⟨fun s h chassis next conflict full hv hc hh ha hn => ?_, fun s h chassis next conflict full hv hc hh ha hn => ?_,
    fun s h chassis next conflict full hv hc hh ha hp hch => ?_⟩
  · refine ⟨_, congrArg Host.Outcome.next (addrToken_taken chassis conflict full hv hc hh ha hn), rfl, ?_, rfl⟩
    simp [State.ownId, Nat.mod_eq_of_lt hn]
  · exact ⟨_, congrArg Host.Outcome.next (addrToken_full chassis conflict full hv hc hh ha hn), by simp [State.emit]⟩
  · refine ⟨_, congrArg Host.Outcome.next (addrToken_kept chassis conflict full hv hc hh ha), by simp, fun hne => ?_, ?_⟩
    · have hb : (chassis % 64 != s.hard.cswChassis % 64) = true := by
        rw [Nat.mod_eq_of_lt hch]; exact bne_iff_ne.mpr hne
      rw [hb]
      exact s.tokenMarks_conflict _
    · simp [State.emit, Nat.mod_eq_of_lt hp, Nat.mod_eq_of_lt hch]

end Sys2Proof.Machine
end

section
/-! SUPPORT. What each command can do to fuses, locks, rails and the causeway address (R680, R687, R690, R737, R743). -/

namespace Sys2Proof.Machine
open Sys2Proof

/-! ### The changes there are -/

/-- One change that a write of software or a reset can make: the fuse counter rises, lock bits are set, the locks clear (R680, R690, R737). -/
inductive Hard.Write : Hard → Hard → Prop
  | burn (h : Hard) {n : Nat} (hn : n ≤ 64) : Hard.Write h { h with svn := max h.svn n }
  | lock (h : Hard) (v : Word) : Hard.Write h { h with lock := h.lock ||| (v &&& 0xFF#64) }
  | unlock (h : Hard) : Hard.Write h { h with lock := 0 }

/-- Any number of such changes, in turn: a long write makes one for each of its registers (R728). -/
inductive Hard.Writes (a : Hard) : Hard → Prop
  | refl : a.Writes a
  | tail {b c : Hard} (h : a.Writes b) (hw : b.Write c) : a.Writes c

/-- What a command can do: such writes, the taking of an address, or the loss or return of the rails (R665, R687, R743, R745). -/
inductive Hard.Change (a : Hard) : Hard → Prop
  | writes {b : Hard} (h : a.Writes b) : a.Change b
  | address {pos chassis : Nat} (ha : a.cswValid = false) (hp : pos < 64) (hc : chassis < 64) :
      a.Change { a with cswValid := true, cswPos := pos, cswChassis := chassis }
  | off (keep : Bool) :
      a.Change { a with
        lock := 0, rails := false, vcsw := keep, cswValid := keep && a.cswValid,
        cswPos := if keep then a.cswPos else 0, cswChassis := if keep then a.cswChassis else 0 }
  | on (h : a.rails = false) : a.Change { a with lock := 0, rails := true, vcsw := true }

theorem Hard.Writes.single {a b : Hard} (h : a.Write b) : a.Writes b := .tail .refl h

theorem Hard.Writes.trans {a b c : Hard} (h1 : a.Writes b) (h2 : b.Writes c) : a.Writes c := by
  induction h2 with
  | refl => exact h1
  | tail _ hw ih => exact ih.tail hw

theorem Hard.Writes.of_eq {a b : Hard} (h : b = a) : a.Writes b := h ▸ .refl

theorem Hard.Change.of_eq {a b : Hard} (h : b = a) : a.Change b := .writes (.of_eq h)

theorem Hard.Write.svn_le {a b : Hard} (h : a.Write b) : a.svn ≤ b.svn := by
  cases h with
  | burn => exact Nat.le_max_left _ _
  | lock => exact Nat.le_refl _
  | unlock => exact Nat.le_refl _

theorem Hard.Writes.svn_le {a b : Hard} (h : a.Writes b) : a.svn ≤ b.svn := by
  induction h with
  | refl => exact Nat.le_refl _
  | tail _ hw ih => exact Nat.le_trans ih hw.svn_le

/-- No change lowers the fuse counter (R680). -/
theorem Hard.Change.svn_le {a b : Hard} (h : a.Change b) : a.svn ≤ b.svn := by
  cases h with
  | writes h => exact h.svn_le
  | address => exact Nat.le_refl _
  | off => exact Nat.le_refl _
  | on => exact Nat.le_refl _

/-- Where both ways of a choice come to such changes, the choice does. -/
theorem Hard.Writes.ite {h : Hard} {s t : State} {c : Prop} [Decidable c] (h1 : h.Writes s.hard) (h2 : h.Writes t.hard) :
    h.Writes (if c then s else t).hard := by
  split <;> assumption

theorem State.ite_hard {r s t : State} {c : Prop} [Decidable c] (h1 : s.hard = r.hard) (h2 : t.hard = r.hard) :
    (if c then s else t).hard = r.hard := by
  split <;> assumption

/-! ### Writes of software -/

theorem commitSvn_writes (s : State) : s.hard.Writes (commitSvn s).hard :=
  .ite (.single (.burn _ (Nat.min_le_right _ _))) .refl

theorem State.restart_writes (s : State) : s.hard.Writes s.restart.hard := .single (.unlock _)

theorem State.devResetWrite_writes (s : State) (v : Word) : s.hard.Writes (s.devResetWrite v).hard :=
  .ite s.restart_writes (.ite (.of_eq (s.onDev_hard _)) .refl)

/-- FIRMWARE_UPDATE keeps the fuse counter, so COMMIT_SVN of the same write is all that reaches it (R679, R680). -/
theorem State.fwCtrlWrite_writes (s : State) (v : Word) : s.hard.Writes (s.fwCtrlWrite v).hard := by
  have hupdate : (if F.devFwCtrl_UPDATE.get v = 1 then s.onDev State.fwUpdate else s).hard = s.hard :=
    State.ite_hard (s.onDev_hard _) rfl
  exact .ite (hupdate ▸ commitSvn_writes _) (.of_eq hupdate)

theorem State.regWrite_writes (s : State) (r : Reg) (v : Word) : s.hard.Writes (s.regWrite r v).hard := by
  unfold State.regWrite
  refine .ite .refl (.ite (.of_eq (s.onDev_hard _)) ?_)
  split
  · exact .single (.lock _ _)
  · exact s.devResetWrite_writes v
  · exact s.fwCtrlWrite_writes v
  · exact .of_eq (s.onDev_hard _)

theorem State.access_writes (s : State) (a size x : Nat) : s.hard.Writes (s.access a size x).hard := by
  unfold State.access
  refine .ite (.of_eq (s.onDev_hard _)) (.ite .refl ?_)
  split
  · exact .of_eq (s.onDev_hard _)
  · exact .ite (s.regWrite_writes _ _) (.ite (.of_eq (s.onDev_hard _)) (s.regWrite_writes _ _))

theorem State.accesses_writes (n : Nat) (s : State) (a x : Nat) : s.hard.Writes (s.accesses a n x).hard := by
  induction n generalizing s a x with
  | zero => exact .refl
  | succ n ih => exact (s.access_writes _ _ _).trans (ih _ _ _)

theorem State.barWrite_writes (s : State) (a size x : Nat) : s.hard.Writes (s.barWrite a size x).hard :=
  .ite (s.access_writes _ _ _) (.ite (s.accesses_writes _ _ _) (.of_eq (s.onDev_hard _)))

/-! ### Cells of the management ring -/

theorem statusCell_hard (power at_ : Nat) (s : State) : (statusCell power at_ s).hard = s.hard :=
  State.ite_hard (by simp) (by simp)

theorem regReadCell_hard (h : CellHdr) (off tag : Nat) (s : State) : (regReadCell h off tag s).hard = s.hard :=
  State.ite_hard (by simp) (State.ite_hard (by simp) (by simp))

theorem flashWriteCell_hard (h : CellHdr) (off : Nat) (bs : List Byte) (s : State) : (flashWriteCell h off bs s).hard = s.hard :=
  State.ite_hard (by simp) (State.ite_hard (by simp) (State.ite_hard (by simp) (by simp)))

theorem wakeCell_hard (h : CellHdr) (at_ : Nat) (s : State) : (wakeCell h at_ s).hard = s.hard :=
  State.ite_hard (by simp) (by simp)

theorem pkgOff_hard (h : CellHdr) (pkg at_ : Nat) (s : State) : (pkgOff h pkg at_ s).hard = s.hard :=
  State.ite_hard (by simp) (by simp)

/-- REG_WRITE has the effect of a BAR0 write, and no more (R689). -/
theorem regWriteCell_writes (h : CellHdr) (off tag value : Nat) (s : State) :
    s.hard.Writes (regWriteCell h off tag value s).hard := by
  have hwrite := State.barWrite_writes (s.cellIn 5 h (toLe 4 off ++ toLe 4 tag ++ toLe 8 value)).2 off 8 value
  exact .ite (.of_eq (by simp)) (.ite (.of_eq (by simp)) (.ite (.of_eq (by simp)) (by simpa using hwrite)))

/-- A RESET cell that names the package clears the locks; the other domains run under `onDev` (R690). -/
theorem resetCell_writes (h : CellHdr) (domain index inFifo stat : Nat) (cores : List Nat) (at_ : Nat) (s : State) :
    s.hard.Writes (resetCell h domain index inFifo stat cores at_ s).hard := by
  have hrestart := State.restart_writes (s.cellIn 6 h [BitVec.ofNat 8 domain, BitVec.ofNat 8 index]).2
  exact .ite (.of_eq (by simp)) (.ite (.of_eq (by simp)) (.ite (by simpa using hrestart) (.of_eq (by simp))))

/-- A token gives an address to a package without one, and changes nothing else (R687). -/
theorem addrToken_change (h : CellHdr) (chassis next : Nat) (conflict full : Bool) (s : State) :
    s.hard.Change (addrToken h chassis next conflict full s).hard := by
  unfold addrToken
  split
  · exact .of_eq rfl
  · split
    · exact .of_eq (by simp)
    · dsimp only
      split
      next htakes =>
        obtain ⟨hvalid, hnext⟩ : s.hard.cswValid = false ∧ next < 64 := by simpa using htakes
        simpa using Hard.Change.address hvalid hnext (Nat.mod_lt chassis (by decide))
      next => exact .of_eq (by simp)

/-! ### Every command -/

/-- The outcome is a next state, whose fuses, locks, rails and address come from those of `s` by one of the changes there are. -/
def State.Answers (s : State) (o : Host.Outcome State Fault Refusal) : Prop := ∃ t, o = .next t ∧ s.hard.Change t.hard

theorem State.Answers.of_change {s t : State} (h : s.hard.Change t.hard) : s.Answers (.next t) := ⟨t, rfl, h⟩

theorem State.Answers.of_writes {s t : State} (h : s.hard.Writes t.hard) : s.Answers (.next t) := .of_change (.writes h)

theorem State.Answers.of_hard_eq {s t : State} (h : t.hard = s.hard) : s.Answers (.next t) := .of_change (.of_eq h)

theorem State.answers_does (s : State) (f : State → State) : s.Answers (s.does f) := .of_hard_eq (s.onDev_hard f)

theorem State.answers_doesIf (s : State) (ok : Bool) (f : State → State) : s.Answers (s.doesIf ok f) := by
  cases ok with
  | false => exact .of_hard_eq rfl
  | true => exact s.answers_does f

theorem State.answers_operates (s : State) (step : OpStep) (k : OpCmd) (ctx : Nat) (run : Nat → State → State) :
    s.Answers (s.operates step k ctx run) := s.answers_does _

theorem State.answers_receives (s : State) (rx : Rx) (vc : Nat) (m : Msg) : s.Answers (s.receives rx vc m) := s.answers_does _

theorem State.answers_lanesDo (s : State) (core : Nat) (f : State → Vu → Vu) : s.Answers (s.lanesDo core f) := s.answers_doesIf _ _

theorem State.answers_writes (s : State) (ok : Bool) (r : Reg) (v : Word) : s.Answers (s.writes ok r v) := by
  cases ok with
  | false => exact .of_hard_eq rfl
  | true => exact .of_writes (s.regWrite_writes r v)

theorem State.answers_packageReset (s : State) : s.Answers (execPackageReset s) :=
  .of_writes (.ite s.restart_writes .refl)

theorem State.answers_powerGood (s : State) : s.Answers (execPowerGood s) := by
  unfold execPowerGood powerGood
  split
  · exact .of_hard_eq rfl
  next hrails => exact .of_change (.on (by simpa using hrails))

theorem State.answers_railFault (s : State) (vcsw : Bool) : s.Answers (execRailFault vcsw s) := by
  cases vcsw with
  | false => exact .of_change (.off (s.hard.vcsw && !false))
  | true => exact .of_change (.off (s.hard.vcsw && !true))

/-- What any command can do to fuses, locks, rails and address, by the shape of its meaning. -/
theorem exec_answers (c : Instr) (s : State) : s.Answers (exec c s) := by
  cases c with
  | powerGood => exact s.answers_powerGood
  | railFault vcsw => exact s.answers_railFault vcsw
  | packageReset => exact s.answers_packageReset
  | addrToken => exact .of_change (addrToken_change _ _ _ _ _ s)
  | statusCell => exact .of_hard_eq (statusCell_hard _ _ s)
  | regReadCell => exact .of_hard_eq (regReadCell_hard _ _ _ s)
  | regWriteCell => exact .of_writes (regWriteCell_writes _ _ _ _ s)
  | resetCell => exact .of_writes (resetCell_writes _ _ _ _ _ _ _ s)
  | wakeCell => exact .of_hard_eq (wakeCell_hard _ _ s)
  | pkgOff => exact .of_hard_eq (pkgOff_hard _ _ _ s)
  | flashWriteCell => exact .of_hard_eq (flashWriteCell_hard _ _ _ s)
  | ringHead | receiverLock => exact .of_hard_eq (s.onCsw_hard _)
  | framesEnable | framesDisable => exact .of_writes (s.regWrite_writes _ _)
  | contextReset | segReload => exact .of_writes (.ite (s.regWrite_writes _ _) .refl)
  | registerWrite => exact .of_writes (s.barWrite_writes _ _ _)
  | firmwareUpdate | commitSvn | frmPeriod | frmPhase | frmEpoch | retrain | straitDisable | channelEnable | contextEnable
  | partitionSetUp | partitionTearDown | devLock | irqCpEoi | irqHostAck | evtRingHead | eventRingEnable | sStateRequest | sStateWake
  | shoalEnable | shoalInit | rasAlias => exact s.answers_writes _ _ _
  | nop | ingest | sample | gather | aggregate | dense | epilogue | loss | scatter | update | updateTable | exchange | reduce | predict
  | copyPlain | copyCompress | copyExpand | copyGroup | versionSwitch | rowReplace | migrateRows | hotSetRefresh | sketchRead | fence
  | commit | signalWrite | signalAdd | signalVector | poolAllocate | poolFree | streamRewind | stragglerPolicy | groupDefine
  | chartRelease => exact s.answers_operates _ _ _ _
  | tickMessage | stretch | barrier | watch | postedWrite | e2eAck | lateError | opBind | gradRecord | closeNotice | collective
  | readReq | rowReq | readResp | rowWrite | verdict | wake | delta | sealNotice | parityAck | parityRead | parityReadData | revert
  | sealQuery | sealReport => exact s.answers_receives _ _ _
  | mov | const | constLo | ldaux | ldidx | add | sub | mul | div | max | min | leaky | cmpGt | cmpGe | cmpEq | fma | clamp | sel | rcp
  | sqrt | rsqrt | abs | neg | relu | isFin | floor | roundI | exp | log | tanh | sigmoid | erf | cos | gelu | silu | softplus | rndFmt
  | rsum | rmax | rmin | rdot | rand | out => exact s.answers_lanesDo _ _
  | dieReset | shellInserted | shellRemoved | stretchLimit | stepFrameLimit | regionMergeEmit | abortRestore | primaryStart
  | secondaryStart | taskDispatch | taskFinish | completionWrite | creditWaitStepDown | creditStepUp | lagAlarm | syncLoad | syncStore
  | syncAdd | arm | disarm | wait | waitLimitExpiry | arrive | barrierRelease | hello | statusFlit | statusFlitDue | flitRetryTimeout
  | laneFault | laneSwitch | lightLoss | straitDown | retrainTimeout | linkTraining | recalibration | keepaliveWake | dataFrame
  | credit | ack | nak | helloFrame | readData | writeAck | frameResendTimeout | flashTimeout | ferryReset | ferryLaneLoss
  | ferryTraining | contextResetDone | irqDelivery | cpHoldTimer | eventCoalescing | dieOvertemp | scrub | ceWindowEnd | plannedMapout
  | immediateMapout | coreFault | regionFault | dieFault | recoveryEnd | cpWatchdog => exact s.answers_doesIf _ _
  | crystalWindow | clockHoldoverLimit | xtalReturn | pllRetune | pllFail | harbourModeOpen | fullServiceOpen | tick | setUpTick
  | intakeBoundary | workBoundary | reduceBoundary | commitBoundary | schedulerTick | tickHoldover | holdoverLimit | backupMaster
  | dedupBlockOpen | reducePieceCombine | aliasRebuild | rowMoveCopy | sketchDecay | postedWriteResend | sqTail | cqHead
  | doorbellReset | moderationTimer | flrVf | flrPf | atsInvalidation | hostLinkDown | hostLinkUp | hostAccessFailure | bar4Read
  | bar4Write | spdmVersion | spdmCapabilities | spdmAlgorithms | spdmDigests | spdmCertificate | spdmChallenge | spdmMeasurements
  | spdmKeyExchange | spdmFinish | spdmEndSession | ideKeys | vfBar0Write | eventRecordWrite | eventsLost | telemetrySnapshot
  | sStateEntry | boundedSlot | uncorrectableBurst | packageLost | protectedWriteStale | standbyRebuild | spreadRebuild => exact s.answers_does _

/-- What any step can do to fuses, locks, rails and address. -/
theorem step_change {s t : State} (h : step s = .next t) : s.hard.Change t.hard := by
  unfold step at h
  split at h
  · cases h
    exact .of_eq rfl
  · obtain ⟨u, hu, hchange⟩ := exec_answers _ _
    cases hu.symm.trans h
    exact hchange

/-! ### COMMIT_SVN -/

/-- On a powered package, COMMIT_SVN that no lock keeps out is the commit alone: its block takes writes at every stage (R667, R680, R737). -/
theorem exec_commitSvn (s : State) (hr : s.hard.rails = true) (hl : bitN s.hard.lock.toNat 5 = false) :
    exec .commitSvn s = .next (commitSvn s) := by
  have ht : s.takes .devFwCtrl = true := Bool.or_eq_true_iff.mpr (.inr (by decide))
  have hlock : s.locked .devFwCtrl = false := hl
  have hupdate : F.devFwCtrl_UPDATE.get (F.devFwCtrl_COMMIT_SVN.put 0#64 1) = 0 := by decide
  have hcommit : F.devFwCtrl_COMMIT_SVN.get (F.devFwCtrl_COMMIT_SVN.put 0#64 1) = 1 := by decide
  change Host.Outcome.next (s.regWrite .devFwCtrl (F.devFwCtrl_COMMIT_SVN.put 0 1)) = _
  simp [State.regWrite, State.fwCtrlWrite, hr, ht, hlock, hupdate, hcommit]

/-- Settles O49: COMMIT_SVN takes the maximum, and no change that a step can make lowers the counter. -/
theorem fusesNeverFall : Obligations.FusesNeverFall := by
  unfold Obligations.FusesNeverFall
  refine ⟨fun s hr hl h3 h7 hsvn => ⟨commitSvn s, exec_commitSvn s hr hl, ?_⟩, fun s t h => (step_change h).svn_le⟩
  rw [commitSvn, if_pos ⟨h3, h7⟩, Nat.min_eq_left hsvn]

end Sys2Proof.Machine
end

section
/-! SUPPORT. What each command can do to the locks of DEV_LOCK (R737, R738). -/

namespace Sys2Proof.Machine
open Sys2Proof

/-! ### Locks that stay -/

/-- Every lock that is set in `a` is set in `b`. -/
def Hard.LocksKept (a b : Hard) : Prop := ∀ i, a.lock.getLsbD i = true → b.lock.getLsbD i = true

theorem Hard.LocksKept.of_lock_eq {a b : Hard} (h : b.lock = a.lock) : a.LocksKept b := fun i hi => by rw [h, hi]

theorem Hard.LocksKept.of_eq {a b : Hard} (h : b = a) : a.LocksKept b := .of_lock_eq (congrArg Hard.lock h)

/-- Where both ways of a choice keep the locks, the choice does. -/
theorem Hard.LocksKept.ite {h : Hard} {s t : State} {c : Prop} [Decidable c] (h1 : c → h.LocksKept s.hard)
    (h2 : ¬ c → h.LocksKept t.hard) : h.LocksKept (if c then s else t).hard := by
  split
  next hc => exact h1 hc
  next hc => exact h2 hc

/-! ### Writes of software -/

/-- A write of DEV_LOCK only sets bits (R737). -/
theorem State.lockWrite_locksKept (s : State) (v : Word) : s.hard.LocksKept (s.lockWrite v).hard := by
  intro i hi
  change (s.hard.lock ||| (v &&& 0xFF#64)).getLsbD i = true
  rw [BitVec.getLsbD_or, hi, Bool.true_or]

theorem commitSvn_lock (s : State) : (commitSvn s).hard.lock = s.hard.lock := by
  unfold commitSvn
  split <;> rfl

theorem State.fwCtrlWrite_lock (s : State) (v : Word) : (s.fwCtrlWrite v).hard.lock = s.hard.lock := by
  have hupdate : (if F.devFwCtrl_UPDATE.get v = 1 then s.onDev State.fwUpdate else s).hard = s.hard :=
    State.ite_hard (s.onDev_hard _) rfl
  unfold State.fwCtrlWrite
  dsimp only
  split
  · rw [commitSvn_lock, hupdate]
  · rw [hupdate]

/-- Without PACKAGE, DEV_RESET resets a die or nothing (R690). -/
theorem State.devResetWrite_hard (s : State) {v : Word} (h : F.devReset_PACKAGE.get v ≠ 1) : (s.devResetWrite v).hard = s.hard := by
  rw [State.devResetWrite, if_neg h]
  exact State.ite_hard (s.onDev_hard _) rfl

theorem State.regWrite_devReset_hard (s : State) {v : Word} (h : F.devReset_PACKAGE.get v ≠ 1) :
    (s.regWrite .devReset v).hard = s.hard :=
  State.ite_hard rfl (State.ite_hard (s.onDev_hard _) (s.devResetWrite_hard h))

/-- Only DEV_RESET reaches the package reset from a register, so a write of any other register keeps the locks (R738). -/
theorem State.regWrite_locksKept (s : State) {r : Reg} (v : Word) (hr : r ≠ .devReset) : s.hard.LocksKept (s.regWrite r v).hard := by
  refine .ite (fun _ => .of_eq rfl) fun _ => .ite (fun _ => .of_eq (s.onDev_hard _)) fun _ => ?_
  split
  · exact s.lockWrite_locksKept v
  · exact absurd rfl hr
  · exact .of_lock_eq (s.fwCtrlWrite_lock v)
  · exact .of_eq (s.onDev_hard _)

theorem State.access_locksKept (s : State) {a : Nat} (size x : Nat) (hr : Reg.ofAddr (a / 8 * 8) ≠ some .devReset) :
    s.hard.LocksKept (s.access a size x).hard := by
  refine .ite (fun _ => .of_eq (s.onDev_hard _)) fun _ => .ite (fun _ => .of_eq rfl) fun _ => ?_
  split
  next => exact .of_eq (s.onDev_hard _)
  next r hreg =>
    have hr : r ≠ .devReset := fun h => hr (h ▸ hreg)
    exact .ite (fun _ => s.regWrite_locksKept _ hr) fun _ =>
      .ite (fun _ => .of_eq (s.onDev_hard _)) fun _ => s.regWrite_locksKept _ hr

/-- A request of at most 8 bytes is one access; a longer one could run over DEV_RESET (R728). -/
theorem State.barWrite_locksKept (s : State) {a size : Nat} (x : Nat) (hsize : size ≤ 8)
    (hr : Reg.ofAddr (a / 8 * 8) ≠ some .devReset) : s.hard.LocksKept (s.barWrite a size x).hard :=
  .ite (fun _ => s.access_locksKept _ _ hr) fun _ =>
    .ite (fun hlong => absurd hlong.1 (Nat.not_lt.mpr hsize)) fun _ => .of_eq (s.onDev_hard _)

/-! ### Cells of the management ring -/

/-- An offset that the ring serves is that of a whole register (R689). -/
theorem cellServes_aligned {off : Nat} (h : cellServes off = true) : off / 8 * 8 = off := by
  obtain ⟨halign, -⟩ : off % 8 = 0 ∧ _ := by simpa [cellServes] using h
  omega

theorem regWriteCell_locksKept (h : CellHdr) {off : Nat} (tag value : Nat) (s : State) (hr : Reg.ofAddr off ≠ some .devReset) :
    s.hard.LocksKept (regWriteCell h off tag value s).hard := by
  refine .ite (fun _ => .of_eq (by simp)) fun _ => .ite (fun _ => .of_eq (by simp)) fun hserved =>
    .ite (fun _ => .of_eq (by simp)) fun _ => ?_
  have haligned : off / 8 * 8 = off := cellServes_aligned (by simpa using (not_or.mp hserved).2)
  have hwrite := State.barWrite_locksKept (s.cellIn 5 h (toLe 4 off ++ toLe 4 tag ++ toLe 8 value)).2 value (Nat.le_refl 8)
    (haligned.symm ▸ hr)
  simpa using hwrite

/-- A RESET cell that does not name the package runs under `onDev` (R690). -/
theorem resetCell_locksKept (h : CellHdr) {domain : Nat} (index inFifo stat : Nat) (cores : List Nat) (at_ : Nat) (s : State)
    (hd : domain ≠ 0) : s.hard.LocksKept (resetCell h domain index inFifo stat cores at_ s).hard :=
  .ite (fun _ => .of_eq (by simp)) fun _ => .ite (fun _ => .of_eq (by simp)) fun _ =>
    .ite (fun hpackage => absurd hpackage hd) fun _ => .of_eq (by simp)

theorem addrToken_lock (h : CellHdr) (chassis next : Nat) (conflict full : Bool) (s : State) :
    (addrToken h chassis next conflict full s).hard.lock = s.hard.lock := by
  unfold addrToken
  split
  · rfl
  · split
    · simp
    · dsimp only
      split <;> simp

/-! ### Every command but those that can restart the package -/

/-- The outcome is a next state, in which every lock that is set in `s` is set. -/
def State.KeepsLocks (s : State) (o : Host.Outcome State Fault Refusal) : Prop := ∃ t, o = .next t ∧ s.hard.LocksKept t.hard

theorem State.KeepsLocks.of_kept {s t : State} (h : s.hard.LocksKept t.hard) : s.KeepsLocks (.next t) := ⟨t, rfl, h⟩

theorem State.KeepsLocks.of_hard_eq {s t : State} (h : t.hard = s.hard) : s.KeepsLocks (.next t) := .of_kept (.of_eq h)

theorem State.keepsLocks_does (s : State) (f : State → State) : s.KeepsLocks (s.does f) := .of_hard_eq (s.onDev_hard f)

theorem State.keepsLocks_doesIf (s : State) (ok : Bool) (f : State → State) : s.KeepsLocks (s.doesIf ok f) :=
  .of_hard_eq (State.ite_hard (s.onDev_hard f) rfl)

theorem State.keepsLocks_writes (s : State) (ok : Bool) {r : Reg} (v : Word) (hr : r ≠ .devReset) : s.KeepsLocks (s.writes ok r v) :=
  .of_kept (.ite (fun _ => s.regWrite_locksKept v hr) fun _ => .of_eq rfl)

/-- A command that cannot restart the package keeps the locks: it writes another register than DEV_RESET, speaks on the management ring, or runs under `onDev` (R738). -/
theorem exec_keepsLocks (c : Instr) (s : State) (hc : mayRestart c = false) : s.KeepsLocks (exec c s) := by
  cases c with
  | powerGood | railFault | packageReset => exact nomatch hc
  | registerWrite a size x =>
    obtain ⟨hsize, hr⟩ : size ≤ 8 ∧ Reg.ofAddr (a / 8 * 8) ≠ some .devReset := by simpa [mayRestart] using hc
    exact .of_kept (s.barWrite_locksKept x hsize hr)
  | regWriteCell h off tag value => exact .of_kept (regWriteCell_locksKept h tag value s (by simpa [mayRestart] using hc))
  | resetCell h domain => exact .of_kept (resetCell_locksKept h _ _ _ _ _ s (by simpa [mayRestart] using hc))
  | addrToken => exact .of_kept (.of_lock_eq (addrToken_lock _ _ _ _ _ s))
  | statusCell => exact .of_hard_eq (statusCell_hard _ _ s)
  | regReadCell => exact .of_hard_eq (regReadCell_hard _ _ _ s)
  | wakeCell => exact .of_hard_eq (wakeCell_hard _ _ s)
  | pkgOff => exact .of_hard_eq (pkgOff_hard _ _ _ s)
  | flashWriteCell => exact .of_hard_eq (flashWriteCell_hard _ _ _ s)
  | ringHead | receiverLock => exact .of_hard_eq (s.onCsw_hard _)
  | framesEnable | framesDisable => exact .of_kept (s.regWrite_locksKept _ (by simp))
  | contextReset | segReload => exact .of_kept (.ite (fun _ => s.regWrite_locksKept _ (by simp)) fun _ => .of_eq rfl)
  | firmwareUpdate | commitSvn | frmPeriod | frmPhase | frmEpoch | retrain | straitDisable | channelEnable | contextEnable
  | partitionSetUp | partitionTearDown | devLock | irqCpEoi | irqHostAck | evtRingHead | eventRingEnable | sStateRequest | sStateWake
  | shoalEnable | shoalInit | rasAlias => exact s.keepsLocks_writes _ _ (by simp)
  | mov | const | constLo | ldaux | ldidx | add | sub | mul | div | max | min | leaky | cmpGt | cmpGe | cmpEq | fma | clamp | sel | rcp
  | sqrt | rsqrt | abs | neg | relu | isFin | floor | roundI | exp | log | tanh | sigmoid | erf | cos | gelu | silu | softplus | rndFmt
  | rsum | rmax | rmin | rdot | rand | out
  | dieReset | shellInserted | shellRemoved | stretchLimit | stepFrameLimit | regionMergeEmit | abortRestore | primaryStart
  | secondaryStart | taskDispatch | taskFinish | completionWrite | creditWaitStepDown | creditStepUp | lagAlarm | syncLoad | syncStore
  | syncAdd | arm | disarm | wait | waitLimitExpiry | arrive | barrierRelease | hello | statusFlit | statusFlitDue | flitRetryTimeout
  | laneFault | laneSwitch | lightLoss | straitDown | retrainTimeout | linkTraining | recalibration | keepaliveWake | dataFrame
  | credit | ack | nak | helloFrame | readData | writeAck | frameResendTimeout | flashTimeout | ferryReset | ferryLaneLoss
  | ferryTraining | contextResetDone | irqDelivery | cpHoldTimer | eventCoalescing | dieOvertemp | scrub | ceWindowEnd | plannedMapout
  | immediateMapout | coreFault | regionFault | dieFault | recoveryEnd | cpWatchdog => exact s.keepsLocks_doesIf _ _
  | _ => exact s.keepsLocks_does _

/-! ### The package reset and the power -/

@[simp] theorem State.cold_hard (s : State) : s.cold.hard = { s.hard with lock := 0 } := rfl

theorem execPackageReset_lock (s : State) (hr : s.hard.rails = true) : ∃ t, execPackageReset s = .next t ∧ t.hard.lock = 0 :=
  ⟨s.restart, congrArg Host.Outcome.next (if_pos hr), rfl⟩

/-- The logic of the package goes down with any rail, VCSW among them or not (R738, R745, log entry 16). -/
theorem railFault_lock (vcsw : Bool) (s : State) : (railFault vcsw s).hard.lock = 0 := by
  cases vcsw <;> simp [railFault]

theorem powerGood_lock (s : State) (hr : s.hard.rails = false) : (powerGood s).hard.lock = 0 := by
  simp [powerGood, hr]

/-- Settles O50: only the commands of `mayRestart` reach a package reset or the power, and those clear the locks. -/
theorem locksStay : Obligations.LocksStay := by
  unfold Obligations.LocksStay
  refine ⟨fun s t c q hc hstep => ?_, fun s v hv => congrArg Hard.lock (s.regWrite_devReset_hard hv),
    fun s hr => execPackageReset_lock s hr, fun s v => ⟨railFault v s, rfl, railFault_lock v s⟩,
    fun s hr => ⟨powerGood s, rfl, powerGood_lock s hr⟩⟩
  obtain ⟨u, hu, hkept⟩ := exec_keepsLocks c { s with pending := q } hc
  cases hu.symm.trans hstep
  exact hkept

end Sys2Proof.Machine
end

section
/-! SUPPORT. Registers that events leave as they were. -/

namespace Sys2Proof.Machine

/-- Whether a register lies in the blocks of the event logic and the interrupt controller (ch. 20). -/
def Reg.ofEvents (r : Reg) : Bool := decide (0xD0000 ≤ r.key) && decide (r.key < 0xF0000)

theorem Reg.ofEvents_irqSrc {src : Nat} (h : src < 8192) : (Reg.irqSrc src).ofEvents = true := by
  have hkey : (Reg.irqSrc src).key = 0xE0000 + 0x8 * src := rfl
  have hbounds : 0xD0000 ≤ 0xE0000 + 0x8 * src ∧ 0xE0000 + 0x8 * src < 0xF0000 := by omega
  simpa [Reg.ofEvents, hkey] using hbounds

/-- Every register outside those blocks reads in `t` as in `s`. -/
def State.RegsKept (s t : State) : Prop := ∀ q : Reg, q.ofEvents = false → t.reg q = s.reg q

theorem State.RegsKept.refl (s : State) : s.RegsKept s := fun _ _ => rfl

theorem State.RegsKept.trans {s t u : State} (h1 : s.RegsKept t) (h2 : t.RegsKept u) : s.RegsKept u :=
  fun q hq => (h2 q hq).trans (h1 q hq)

theorem State.RegsKept.ite {s t u : State} {c : Prop} [Decidable c] (h1 : s.RegsKept t) (h2 : s.RegsKept u) :
    s.RegsKept (if c then t else u) := by
  split <;> assumption

theorem State.RegsKept.fld {s t : State} (h : s.RegsKept t) {q : Reg} (hq : q.ofEvents = false) (f : Fld) : t.fld q f = s.fld q f := by
  rw [State.fld, State.fld, h q hq]

theorem State.RegsKept.bit {s t : State} (h : s.RegsKept t) {q : Reg} (hq : q.ofEvents = false) (f : Fld) : t.bit q f = s.bit q f := by
  rw [State.bit, State.bit, h.fld hq]

theorem regsKept_evt (s : State) (e : EvtSt) : s.RegsKept { s with evt := e } := fun q _ => by cases q <;> rfl

theorem regsKept_setFld (s : State) {r : Reg} (f : Fld) (x : Nat) (hr : r.ofEvents = true) : s.RegsKept (s.setFld r f x) := by
  intro q hq
  refine s.reg_setReg_ne r q _ fun hkey => ?_
  rw [Reg.ofEvents, hkey] at hq
  exact absurd (hq.symm.trans hr) (by decide)

theorem regsKept_each {α : Type} (f : State → α → State) (hf : ∀ (s : State) a, s.RegsKept (f s a)) (s : State) (l : List α) :
    s.RegsKept (s.each l f) := by
  unfold State.each
  induction l generalizing s with
  | nil => exact .refl s
  | cons a l ih => exact (hf s a).trans (ih _)

theorem regsKept_noteIdle (s : State) (src : Nat) : s.RegsKept (s.noteIdle src) := regsKept_evt s _

theorem regsKept_pend (s : State) {src : Nat} (b : Bool) (h : src < 8192) : s.RegsKept (s.pend src b) :=
  ((regsKept_setFld s _ _ (Reg.ofEvents_irqSrc h)).trans (.ite (.refl _) (regsKept_noteIdle _ _))).trans (regsKept_evt _ _)

theorem regsKept_unpend (s : State) {src : Nat} (h : src < 8192) : s.RegsKept (s.unpend src) :=
  (regsKept_setFld s _ _ (Reg.ofEvents_irqSrc h)).trans (regsKept_evt _ _)

theorem regsKept_pulse (s : State) {src : Nat} (h : src < 8192) : s.RegsKept (s.pulse src) :=
  .ite (.refl _) (.ite (regsKept_pend _ _ h) (.ite (.refl _) (regsKept_pend _ _ h)))

theorem regsKept_relevel (s : State) {src : Nat} (h : src < 8192) : s.RegsKept (s.relevel src) := by
  unfold State.relevel
  refine (regsKept_setFld s F.irqSrc_LINE (if s.level src then 1 else 0) (Reg.ofEvents_irqSrc h)).trans ?_
  exact .ite (.ite (.ite (.refl _) (regsKept_pend _ _ h)) (.ite (regsKept_unpend _ h) (.refl _))) (.ite (regsKept_pend _ _ h) (.refl _))

theorem regsKept_push (s : State) (e : Event) : s.RegsKept (s.push e) :=
  (regsKept_evt _ _).trans (regsKept_setFld _ _ _ rfl)

theorem regsKept_coalesce (s : State) {e : Event} (h : e.src < 8192) : s.RegsKept (s.coalesce e) :=
  (regsKept_evt _ _).trans ((regsKept_setFld _ _ _ rfl).trans ((regsKept_setFld _ _ _ rfl).trans
    (regsKept_setFld _ _ _ (Reg.ofEvents_irqSrc h))))

theorem regsKept_recVisible (s : State) (l : List Nat) : s.RegsKept (s.recVisible l) :=
  (regsKept_each _ regsKept_noteIdle s l).trans (regsKept_evt _ _)

theorem regsKept_endCoalescing (s : State) (c : Coalesce) : s.RegsKept (s.endCoalescing c) :=
  (regsKept_evt _ _).trans ((regsKept_setFld _ _ _ rfl).trans ((regsKept_pulse _ (by decide)).trans
    (.ite (regsKept_push _ _) (regsKept_recVisible _ _))))

theorem regsKept_emptied (s : State) : s.RegsKept s.emptied := by
  unfold State.emptied
  split
  · exact .ite (regsKept_endCoalescing _ _) (.refl _)
  · exact .refl _

theorem regsKept_enqueue (s : State) {e : Event} (h : e.src < 8192) : s.RegsKept (s.enqueue e) :=
  (regsKept_emptied s).trans (.ite (regsKept_coalesce _ h) (regsKept_push _ _))

theorem regsKept_event (s : State) (typ : Nat) {src : Nat} (c p : Option Nat) (d0 d : Nat) (h : src < 8192) :
    s.RegsKept (s.event typ src c p d0 d) :=
  (regsKept_pulse s h).trans (.ite ((regsKept_evt _ _).trans (regsKept_enqueue _ h)) (.refl _))

theorem regsKept_saturated (s : State) (r : Reg) (f : Fld) (b : Nat) : s.RegsKept (s.saturated r f b) :=
  .ite (regsKept_event _ _ _ _ _ _ (by decide)) (.refl _)

/-- An event leaves every register outside the blocks of the event logic (R698–R709, R719). -/
theorem regsKept_eventW (s : State) (typ : Nat) {src : Nat} (c p : Option Nat) (d0 d : Nat) (h : src < 8192) :
    s.RegsKept (s.eventW typ src c p d0 d) :=
  (regsKept_event s typ c p d0 d h).trans ((regsKept_saturated _ _ _ _).trans (regsKept_saturated _ _ _ _))

/-- A saturating count of another register, with the event that its last step raises, leaves a register (R719). -/
theorem State.satFld_reg_ne (s : State) {r q : Reg} (f : Fld) (n : Nat) (hq : q.ofEvents = false) (hkey : q.key ≠ r.key) :
    (s.satFld r f n).reg q = s.reg q :=
  (regsKept_saturated _ _ _ _ q hq).trans (s.reg_setReg_ne r q _ hkey)

end Sys2Proof.Machine
end

section
/-! SUPPORT. The bounds of what outlives a reset, and the address of the causeway (R680, R687, R688, R737). -/

namespace Sys2Proof.Machine
open Sys2Proof

/-! ### Bounds -/

/-- The bounds of `State.hardOk`, on what outlives a reset alone. -/
def Hard.Ok (h : Hard) : Prop := h.svn ≤ 64 ∧ (h.cswValid = true → h.cswPos < 64 ∧ h.cswChassis < 64) ∧ h.lock.toNat < 256

theorem State.hardOk_iff (s : State) : s.hardOk = true ↔ s.hard.Ok := by
  cases hv : s.hard.cswValid <;> simp [State.hardOk, Hard.Ok, hv, and_assoc]

/-- A write of DEV_LOCK sets none but the eight lock bits (R737). -/
theorem lock_or_lt {l : Word} (v : Word) (h : l.toNat < 256) : (l ||| (v &&& 0xFF#64)).toNat < 256 := by
  have hv : (v &&& 0xFF#64).toNat < 2 ^ 8 := Nat.lt_of_le_of_lt (BitVec.toNat_and v _ ▸ Nat.and_le_right) (by decide)
  rw [BitVec.toNat_or]
  exact Nat.or_lt_two_pow (n := 8) h hv

theorem clearLock_lt : (0 : Word).toNat < 256 := by decide

theorem Hard.Write.ok {a b : Hard} (h : a.Write b) (ha : a.Ok) : b.Ok := by
  obtain ⟨hsvn, haddr, hlock⟩ := ha
  cases h with
  | burn hn => exact ⟨Nat.max_le.mpr ⟨hsvn, hn⟩, haddr, hlock⟩
  | lock v => exact ⟨hsvn, haddr, lock_or_lt v hlock⟩
  | unlock => exact ⟨hsvn, haddr, clearLock_lt⟩

theorem Hard.Writes.ok {a b : Hard} (h : a.Writes b) (ha : a.Ok) : b.Ok := by
  induction h with
  | refl => exact ha
  | tail _ hw ih => exact hw.ok ih

/-- No change leaves the bounds: an address that a token gives is taken below 64, and what goes off or on clears the locks. -/
theorem Hard.Change.ok {a b : Hard} (h : a.Change b) (ha : a.Ok) : b.Ok := by
  have ⟨hsvn, haddr, hlock⟩ := ha
  cases h with
  | writes h => exact h.ok ha
  | address _ hp hc => exact ⟨hsvn, fun _ => ⟨hp, hc⟩, hlock⟩
  | off keep =>
    cases keep with
    | false => exact ⟨hsvn, nofun, clearLock_lt⟩
    | true => exact ⟨hsvn, haddr, clearLock_lt⟩
  | on => exact ⟨hsvn, haddr, clearLock_lt⟩

/-- Settles O48: every change that a step can make keeps the bounds. -/
theorem hardOkKept : Obligations.HardOkKept := by
  unfold Obligations.HardOkKept
  intro s t hs h
  exact t.hardOk_iff.mpr ((step_change h).ok (s.hardOk_iff.mp hs))

/-! ### The address -/

/-- The causeway address in `b` is that in `a`. -/
def Hard.SameAddress (a b : Hard) : Prop := b.cswValid = a.cswValid ∧ b.cswPos = a.cswPos ∧ b.cswChassis = a.cswChassis

theorem Hard.Write.sameAddress {a b : Hard} (h : a.Write b) : a.SameAddress b := by
  cases h <;> exact ⟨rfl, rfl, rfl⟩

theorem Hard.Writes.sameAddress {a b : Hard} (h : a.Writes b) : a.SameAddress b := by
  induction h with
  | refl => exact ⟨rfl, rfl, rfl⟩
  | tail _ hw ih =>
    obtain ⟨hv, hp, hc⟩ := hw.sameAddress
    exact ⟨hv.trans ih.1, hp.trans ih.2.1, hc.trans ih.2.2⟩

/-- An address that is held stays, but for the loss of the causeway's own supply (R688, R745). -/
theorem Hard.Change.sameAddress {a b : Hard} (h : a.Change b) (hv : a.cswValid = true) : a.SameAddress b ∨ b.vcsw = false := by
  cases h with
  | writes h => exact .inl h.sameAddress
  | address ha => exact absurd (hv.symm.trans ha) (by decide)
  | off keep =>
    cases keep with
    | false => exact .inr rfl
    | true => exact .inl ⟨rfl, rfl, rfl⟩
  | on => exact .inl ⟨rfl, rfl, rfl⟩

/-- Without an address no cell is originated (R688). -/
theorem State.sendCell_silent (s : State) (typ : Nat) (payload : List Byte) (h : s.hard.cswValid = false) :
    (s.sendCell typ payload).outbox = s.outbox := by
  have hsend : ¬ (s.hard.cswValid = true ∧ s.cswDark = false) := by simp [h]
  unfold State.sendCell State.onCsw
  simp [hsend]

theorem State.mayTrain_unaddressed (s : State) (n txDown rxDown : Nat) (h : s.hard.cswValid = false) :
    s.mayTrain n txDown rxDown = false := by
  simp [State.mayTrain, h]

/-! ### FRM_CTRL without an address -/

/-- ENABLE of FRM_CTRL takes the value written, whatever the write does to the role of the package (R76, R77). -/
theorem State.frmCtrlWrite_enable (s : State) (enable master : Bool) :
    (s.frmCtrlWrite enable master).bit .frmCtrl F.frmCtrl_ENABLE = enable := by
  have hset : ((s.setFld .frmCtrl F.frmCtrl_ENABLE (if enable then 1 else 0)).setFld .frmCtrl F.frmCtrl_MASTER
      (if master then 1 else 0)).bit .frmCtrl F.frmCtrl_ENABLE = enable := by
    rw [State.bit, State.fld_setFld_other _ _ _ _ _ rfl (by decide) (by decide), State.fld_setFld _ _ _ _ rfl (by decide)]
    cases enable <;> rfl
  unfold State.frmCtrlWrite
  dsimp only
  split
  · rw [(regsKept_relevel _ (by decide)).bit rfl]
    iterate 3 rw [State.bit, State.fld_setFld_ne _ _ _ _ _ _ (by decide), ← State.bit]
    exact hset
  · split
    · exact hset
    · exact hset

theorem State.lockedWrite_reg (s : State) {r q : Reg} (v : Word) (hr : r ≠ .rasShoalCtrl) (hq : q.ofEvents = false)
    (hkey : q.key ≠ Reg.devAccess.key) : (s.lockedWrite r v).reg q = s.reg q := by
  rw [State.lockedWrite, if_neg (by simp [hr])]
  exact s.satFld_reg_ne _ _ hq hkey

/-- A package without an address ignores ENABLE of FRM_CTRL (R688). -/
theorem State.regWrite_frmCtrl_unaddressed (s : State) (v : Word) (h : s.hard.cswValid = false) :
    (s.regWrite .frmCtrl v).bit .frmCtrl F.frmCtrl_ENABLE = s.bit .frmCtrl F.frmCtrl_ENABLE := by
  unfold State.regWrite
  split
  · rfl
  next hon =>
    obtain ⟨hrails, -⟩ : s.hard.rails = true ∧ s.takes .frmCtrl = true := by simpa using hon
    split
    · rw [State.onDev_on _ _ hrails]
      have hlocked : (s.lockedWrite .frmCtrl v).reg .frmCtrl = s.reg .frmCtrl :=
        s.lockedWrite_reg v (by simp) rfl (by decide)
      exact congrArg (fun w => F.frmCtrl_ENABLE.get w == 1) hlocked
    · change (s.onDev (fun s => s.frmWrite v)).bit .frmCtrl F.frmCtrl_ENABLE = _
      rw [State.onDev_on _ _ hrails]
      change (s.frmWrite v).bit .frmCtrl F.frmCtrl_ENABLE = _
      rw [State.frmWrite, State.frmCtrlWrite_enable, h]
      rfl

/-- Settles O51: the changes that a step can make, and what each sender, trainer and writer asks of the address. -/
theorem addressKept : Obligations.AddressKept := by
  unfold Obligations.AddressKept
  refine ⟨fun s t hv h => ?_, fun s typ payload h => s.sendCell_silent typ payload h,
    fun s n txDown rxDown h => s.mayTrain_unaddressed n txDown rxDown h, fun s v h => s.regWrite_frmCtrl_unaddressed v h,
    fun s t h hexec => ?_⟩
  · exact ((step_change h).sameAddress hv).imp_left fun hsame => ⟨hsame.1.trans hv, hsame.2⟩
  · cases hexec
    exact s.regWrite_frmCtrl_unaddressed _ h

end Sys2Proof.Machine
end

section
/-! SUPPORT. No command touches the queue of commands (log entries 1 and 7). -/

namespace Sys2Proof.Machine
open Sys2Proof

theorem State.ite_pending {r s t : State} {c : Prop} [Decidable c] (h1 : s.pending = r.pending) (h2 : t.pending = r.pending) :
    (if c then s else t).pending = r.pending := by
  split <;> assumption

/-! ### Writes of software -/

theorem commitSvn_pending (s : State) : (commitSvn s).pending = s.pending := State.ite_pending rfl rfl

theorem State.devResetWrite_pending (s : State) (v : Word) : (s.devResetWrite v).pending = s.pending :=
  State.ite_pending rfl (State.ite_pending (s.onDev_pending _) rfl)

theorem State.fwCtrlWrite_pending (s : State) (v : Word) : (s.fwCtrlWrite v).pending = s.pending := by
  have hupdate : (if F.devFwCtrl_UPDATE.get v = 1 then s.onDev State.fwUpdate else s).pending = s.pending :=
    State.ite_pending (s.onDev_pending _) rfl
  exact State.ite_pending ((commitSvn_pending _).trans hupdate) hupdate

theorem State.regWrite_pending (s : State) (r : Reg) (v : Word) : (s.regWrite r v).pending = s.pending := by
  unfold State.regWrite
  refine State.ite_pending rfl (State.ite_pending (s.onDev_pending _) ?_)
  split
  · rfl
  · exact s.devResetWrite_pending v
  · exact s.fwCtrlWrite_pending v
  · exact s.onDev_pending _

theorem State.access_pending (s : State) (a size x : Nat) : (s.access a size x).pending = s.pending := by
  unfold State.access
  refine State.ite_pending (s.onDev_pending _) (State.ite_pending rfl ?_)
  split
  · exact s.onDev_pending _
  · exact State.ite_pending (s.regWrite_pending _ _) (State.ite_pending (s.onDev_pending _) (s.regWrite_pending _ _))

theorem State.accesses_pending (n : Nat) (s : State) (a x : Nat) : (s.accesses a n x).pending = s.pending := by
  induction n generalizing s a x with
  | zero => rfl
  | succ n ih => exact (ih _ _ _).trans (s.access_pending _ _ _)

theorem State.barWrite_pending (s : State) (a size x : Nat) : (s.barWrite a size x).pending = s.pending :=
  State.ite_pending (s.access_pending _ _ _) (State.ite_pending (s.accesses_pending _ _ _) (s.onDev_pending _))

/-! ### Cells of the management ring -/

@[simp] theorem State.cellIn_pending (s : State) (typ : Nat) (h : CellHdr) (payload : List Byte) :
    (s.cellIn typ h payload).2.pending = s.pending := by
  unfold State.cellIn
  repeat' split
  all_goals simp

@[simp] theorem State.sendCell_pending (s : State) (typ : Nat) (payload : List Byte) : (s.sendCell typ payload).pending = s.pending :=
  State.onCsw_pending _ s

@[simp] theorem State.regData_pending (s : State) (off tag value status : Nat) : (s.regData off tag value status).pending = s.pending :=
  State.sendCell_pending s _ _

theorem statusCell_pending (power at_ : Nat) (s : State) : (statusCell power at_ s).pending = s.pending :=
  State.ite_pending (by simp) (by simp)

theorem regReadCell_pending (h : CellHdr) (off tag : Nat) (s : State) : (regReadCell h off tag s).pending = s.pending :=
  State.ite_pending (by simp) (State.ite_pending (by simp) (by simp))

theorem regWriteCell_pending (h : CellHdr) (off tag value : Nat) (s : State) : (regWriteCell h off tag value s).pending = s.pending :=
  State.ite_pending (by simp) (State.ite_pending (by simp) (State.ite_pending (by simp) (by simp [State.barWrite_pending])))

theorem flashWriteCell_pending (h : CellHdr) (off : Nat) (bs : List Byte) (s : State) :
    (flashWriteCell h off bs s).pending = s.pending :=
  State.ite_pending (by simp) (State.ite_pending (by simp) (State.ite_pending (by simp) (by simp)))

theorem resetCell_pending (h : CellHdr) (domain index inFifo stat : Nat) (cores : List Nat) (at_ : Nat) (s : State) :
    (resetCell h domain index inFifo stat cores at_ s).pending = s.pending :=
  State.ite_pending (by simp) (State.ite_pending (by simp) (State.ite_pending (by simp [State.restart]) (by simp)))

theorem wakeCell_pending (h : CellHdr) (at_ : Nat) (s : State) : (wakeCell h at_ s).pending = s.pending :=
  State.ite_pending (by simp) (by simp)

theorem pkgOff_pending (h : CellHdr) (pkg at_ : Nat) (s : State) : (pkgOff h pkg at_ s).pending = s.pending :=
  State.ite_pending (by simp) (by simp)

theorem addrToken_pending (h : CellHdr) (chassis next : Nat) (conflict full : Bool) (s : State) :
    (addrToken h chassis next conflict full s).pending = s.pending :=
  State.ite_pending rfl (State.ite_pending (by simp) (State.ite_pending (by simp) (by simp)))

/-! ### Every command -/

/-- The outcome is a next state with the queue of `s`. -/
def State.KeepsQueue (s : State) (o : Host.Outcome State Fault Refusal) : Prop := ∃ t, o = .next t ∧ t.pending = s.pending

theorem State.KeepsQueue.of_eq {s t : State} (h : t.pending = s.pending) : s.KeepsQueue (.next t) := ⟨t, rfl, h⟩

theorem State.keepsQueue_does (s : State) (f : State → State) : s.KeepsQueue (s.does f) := .of_eq (s.onDev_pending f)

theorem State.keepsQueue_doesIf (s : State) (ok : Bool) (f : State → State) : s.KeepsQueue (s.doesIf ok f) :=
  .of_eq (State.ite_pending (s.onDev_pending f) rfl)

theorem State.keepsQueue_writes (s : State) (ok : Bool) (r : Reg) (v : Word) : s.KeepsQueue (s.writes ok r v) :=
  .of_eq (State.ite_pending (s.regWrite_pending r v) rfl)

/-- Settles O52: each shape of a command's meaning answers a next state and keeps the queue. -/
theorem commandsKeepQueue : Obligations.CommandsKeepQueue := by
  unfold Obligations.CommandsKeepQueue
  intro c s
  change s.KeepsQueue (exec c s)
  cases c with
  | powerGood => exact .of_eq (State.ite_pending rfl rfl)
  | railFault vcsw => cases vcsw <;> exact .of_eq rfl
  | packageReset => exact .of_eq (State.ite_pending rfl rfl)
  | addrToken => exact .of_eq (addrToken_pending _ _ _ _ _ s)
  | statusCell => exact .of_eq (statusCell_pending _ _ s)
  | regReadCell => exact .of_eq (regReadCell_pending _ _ _ s)
  | regWriteCell => exact .of_eq (regWriteCell_pending _ _ _ _ s)
  | resetCell => exact .of_eq (resetCell_pending _ _ _ _ _ _ _ s)
  | wakeCell => exact .of_eq (wakeCell_pending _ _ s)
  | pkgOff => exact .of_eq (pkgOff_pending _ _ _ s)
  | flashWriteCell => exact .of_eq (flashWriteCell_pending _ _ _ s)
  | ringHead | receiverLock => exact .of_eq (s.onCsw_pending _)
  | framesEnable | framesDisable => exact .of_eq (s.regWrite_pending _ _)
  | contextReset | segReload => exact .of_eq (State.ite_pending (s.regWrite_pending _ _) rfl)
  | registerWrite => exact .of_eq (s.barWrite_pending _ _ _)
  | firmwareUpdate | commitSvn | frmPeriod | frmPhase | frmEpoch | retrain | straitDisable | channelEnable | contextEnable
  | partitionSetUp | partitionTearDown | devLock | irqCpEoi | irqHostAck | evtRingHead | eventRingEnable | sStateRequest | sStateWake
  | shoalEnable | shoalInit | rasAlias => exact s.keepsQueue_writes _ _ _
  | mov | const | constLo | ldaux | ldidx | add | sub | mul | div | max | min | leaky | cmpGt | cmpGe | cmpEq | fma | clamp | sel | rcp
  | sqrt | rsqrt | abs | neg | relu | isFin | floor | roundI | exp | log | tanh | sigmoid | erf | cos | gelu | silu | softplus | rndFmt
  | rsum | rmax | rmin | rdot | rand | out
  | dieReset | shellInserted | shellRemoved | stretchLimit | stepFrameLimit | regionMergeEmit | abortRestore | primaryStart
  | secondaryStart | taskDispatch | taskFinish | completionWrite | creditWaitStepDown | creditStepUp | lagAlarm | syncLoad | syncStore
  | syncAdd | arm | disarm | wait | waitLimitExpiry | arrive | barrierRelease | hello | statusFlit | statusFlitDue | flitRetryTimeout
  | laneFault | laneSwitch | lightLoss | straitDown | retrainTimeout | linkTraining | recalibration | keepaliveWake | dataFrame
  | credit | ack | nak | helloFrame | readData | writeAck | frameResendTimeout | flashTimeout | ferryReset | ferryLaneLoss
  | ferryTraining | contextResetDone | irqDelivery | cpHoldTimer | eventCoalescing | dieOvertemp | scrub | ceWindowEnd | plannedMapout
  | immediateMapout | coreFault | regionFault | dieFault | recoveryEnd | cpWatchdog => exact s.keepsQueue_doesIf _ _
  | _ => exact s.keepsQueue_does _

/-- Settles O1: a step takes the command at the front, by its definition. -/
theorem stepRunsFront : Obligations.StepRunsFront := by
  unfold Obligations.StepRunsFront
  refine ⟨fun c s => rfl, fun s h => ?_⟩
  rw [step, h]

end Sys2Proof.Machine
end

section
/-! SUPPORT. The run steps of operations: what an operation does that can have its data effect (log entry 11). -/

namespace Sys2Proof.Machine

/-- The run command of an operation that reads what `rs` names: the effect on the state that its reads have supplied. -/
theorem State.operates_can {s : State} {ctx : Nat} {sel : Desc → Bool} {o : Op} (k : OpCmd) (rs : State → Op → List (Nat × Nat))
    (f : Op → State → State) (h : s.canRun ctx sel (rs s o) o) :
    s.operates .run k ctx (fun ctx s => s.runOp ctx sel rs f) = .next (s.onDev (fun s => f o (s.supplied o (rs s o)))) :=
  State.operates_run (g := fun s => f o (s.supplied o (rs s o))) (State.runOp_can f h) k

/-- The run command of an operation of the front-end: the effect on the state as it is. -/
theorem State.operates_plain {s : State} {ctx : Nat} {sel : Desc → Bool} {o : Op} {c : Opc} (k : OpCmd) (f : Op → State → State)
    (g : State → State) (h : s.canRun ctx sel [] o) (hs : isOpc c o.desc = true) (hc : c = .nop ∨ c = .signal ∨ c = .control)
    (hg : f o s = g s) :
    s.operates .run k ctx (fun ctx s => s.runOp ctx sel (fun _ _ => []) f) = .next (s.onDev g) :=
  State.operates_run (g := g) ((State.runOp_plain h hs hc).trans hg) k

/-- Settles O11: both commands are runs that wait for nothing more. -/
theorem samplingRuns : Obligations.SamplingRuns :=
  ⟨fun _ _ _ h => State.operates_can .ingest (fun _ _ => []) (fun o s => s.ingestRun o) h,
    fun _ _ _ h => State.operates_can .sample (fun _ o => o.sampleReads) (fun o s => s.sampleRun o) h⟩

/-- Settles O12. -/
theorem matrixRuns : Obligations.MatrixRuns :=
  ⟨fun _ _ _ h => State.operates_can .aggregate (fun _ o => o.inputs .aggregate) (fun o s => s.aggregateRun o) h,
    fun _ _ _ h => State.operates_can .dense State.denseReads (fun o s => s.denseRun o) h,
    fun _ _ _ h => State.operates_can .epilogue (fun _ o => o.inputs .epilogue) (fun o s => s.epilogueRun o) h,
    fun _ _ _ h => State.operates_can .loss (fun _ o => o.inputs .loss) (fun o s => s.lossRun o) h,
    fun _ _ _ h => State.operates_can .predict (fun _ o => o.inputs .predict) (fun o s => s.predictRun o) h⟩

/-- Settles O13. -/
theorem tableRowRuns : Obligations.TableRowRuns :=
  ⟨fun _ _ _ h => State.operates_can .gather (fun _ o => o.inputs .gather) (fun o s => s.gatherRun o) h,
    fun _ _ _ h => State.operates_can .scatter State.scatterReads (fun o s => s.scatterRun o) h,
    fun _ _ _ h => State.operates_can .update (fun _ o => o.inputs .update) (fun o s => s.updateTensor o) h,
    fun _ _ _ h => State.operates_can .updateTable (fun _ _ => []) (fun o s => s.updateTable o) h⟩

/-- Settles O14. -/
theorem collectiveRuns : Obligations.CollectiveRuns :=
  ⟨fun _ _ _ h => State.operates_can .exchange (fun _ o => o.inputs .exchange) (fun o s => s.exchangeRun o) h,
    fun _ _ _ h => State.operates_can .reduce (fun _ o => o.inputs .reduce) (fun o s => s.reduceRun o) h,
    fun _ _ _ h => State.operates_can .groupDefine (fun _ o => o.inputs .control) (fun o s => s.groupDefine o) h⟩

/-- Settles O15. -/
theorem copyAndTableRuns : Obligations.CopyAndTableRuns :=
  ⟨fun _ _ _ h => State.operates_can .copyPlain (fun _ o => o.inputs .copy) (fun o s => s.copyPlain o) h,
    fun _ _ _ h => State.operates_can .copyCompress (fun _ o => o.inputs .copy) (fun o s => s.copyCompress o) h,
    fun _ _ _ h => State.operates_can .copyExpand (fun _ o => o.inputs .copy) (fun o s => s.copyExpand o) h,
    fun _ _ _ h => State.operates_can .copyGroup (fun _ o => o.inputs .copy) (fun o s => s.copyGroup o) h,
    fun _ _ _ h => State.operates_can .versionSwitch (fun _ _ => []) (fun o s => s.tableEnd o false) h,
    fun _ _ _ h => State.operates_can .rowReplace (fun _ o => o.inputs .table) (fun o s => s.replaceRun o) h,
    fun _ _ _ h => State.operates_can .migrateRows (fun _ o => o.inputs .table) (fun o s => s.migrateRun o) h,
    fun _ _ _ h => State.operates_can .hotSetRefresh (fun _ o => o.inputs .table) (fun o s => s.hotRun o) h,
    fun _ _ _ h => State.operates_can .sketchRead (fun _ _ => []) (fun o s => s.sketchRun o) h⟩

/-! ### The front-end's own operations -/

theorem isOpc_of_isControl {k : Nat} {d : Desc} (h : isControl k d = true) : isOpc .control d = true :=
  (Bool.and_eq_true_iff.mp h).1

theorem isOpc_of_isSignal {k : Nat} {d : Desc} (h : isSignal k d = true) : isOpc .signal d = true :=
  (Bool.and_eq_true_iff.mp h).1

section Plain
variable {s : State} {ctx : Nat} {o : Op}

/-- The run of a NOP. -/
theorem State.operates_nop (k : OpCmd) (f : Op → State → State) (g : State → State) (h : s.canRun ctx (isOpc .nop) [] o) (hg : f o s = g s) :
    s.operates .run k ctx (fun ctx s => s.runOp ctx (isOpc .nop) (fun _ _ => []) f) = .next (s.onDev g) :=
  State.operates_plain k f g h (State.canRun_sel h) (.inl rfl) hg

/-- The run of a SIGNAL. -/
theorem State.operates_signal {n : Nat} (k : OpCmd) (f : Op → State → State) (g : State → State) (h : s.canRun ctx (isSignal n) [] o)
    (hg : f o s = g s) :
    s.operates .run k ctx (fun ctx s => s.runOp ctx (isSignal n) (fun _ _ => []) f) = .next (s.onDev g) :=
  State.operates_plain k f g h (isOpc_of_isSignal (State.canRun_sel h)) (.inr (.inl rfl)) hg

/-- The run of a CONTROL without memory. -/
theorem State.operates_control {n : Nat} (k : OpCmd) (f : Op → State → State) (g : State → State) (h : s.canRun ctx (isControl n) [] o)
    (hg : f o s = g s) :
    s.operates .run k ctx (fun ctx s => s.runOp ctx (isControl n) (fun _ _ => []) f) = .next (s.onDev g) :=
  State.operates_plain k f g h (isOpc_of_isControl (State.canRun_sel h)) (.inr (.inr rfl)) hg

end Plain

/-- A SIGNAL to a word of this package that exists stores it and ends (R457). -/
theorem State.signalWord_own {s : State} {o : Op} (add : Bool) (h : s.isOwn (pkgOf (o.desc.param 0 8)) = true)
    (hb : remoteOff (o.desc.param 0 8) % 2 ^ 43 + 4 ≤ sramSize) :
    s.signalWord o add = (s.store (syncKey (o.desc.param 0 8)) (toLe 4 (if add then s.word (syncKey (o.desc.param 0 8)) + o.desc.param 8 4
      else o.desc.param 8 4))).opEnd o.seq 0 false := by
  unfold State.signalWord
  rw [if_pos h, if_neg (Nat.not_lt.mpr hb)]

theorem fenceOp_clear {s : State} {ctx : Nat} {o : Op} (h : s.canRun ctx (isOpc .fence) [] o) (hc : s.fenceClear o = true) :
    fenceOp ctx s = (s.opEnd o.seq 0 false).l0Part o.part := by
  obtain ⟨_, hready, -⟩ := h
  simp [fenceOp, hready, hc]

/-- Settles O16: each command runs on the state as it is, since it reads and writes no tensor. -/
theorem controlRuns : Obligations.ControlRuns := by
  refine ⟨fun s ctx o h => State.operates_nop .nop _ _ h rfl, fun s ctx o h => State.operates_control .streamRewind _ _ h rfl,
    fun s ctx o h => State.operates_control .stragglerPolicy _ _ h rfl,
    fun s ctx o h => ⟨fun hc => State.operates_control .chartRelease _ _ h ?_, fun hc => State.operates_control .chartRelease _ _ h ?_⟩,
    fun s ctx o h hc => State.operates_run (fenceOp_clear h hc) .fence,
    fun s ctx o h hown hb => State.operates_signal .signalWrite _ _ h (State.signalWord_own false hown hb),
    fun s ctx o h hown hb => State.operates_signal .signalAdd _ _ h (State.signalWord_own true hown hb),
    fun s ctx o h => State.operates_signal .signalVector _ _ h rfl⟩
  · exact if_neg (by simpa using Option.isSome_iff_ne_none.mp hc)
  · exact if_pos (by simp [hc])

/-! ### Pools (R758) -/

/-- The address of a pool's unit names that unit. -/
theorem State.poolUnit_addr {s : State} {p u a : Nat} (ha : a = s.poolBase p + 64 * u) (hu : u < s.poolUnits p) : s.poolUnit p a = some u := by
  unfold State.poolUnit
  have h1 : (a - s.poolBase p) % 64 = 0 := by omega
  have h2 : (a - s.poolBase p) / 64 = u := by omega
  rw [if_pos ⟨by omega, h1, h2.symm ▸ hu⟩, h2]

/-- Settles O17: each clause is one branch of the run of POOL_ALLOCATE or POOL_FREE. -/
theorem poolRuns : Obligations.PoolRuns := by
  refine ⟨fun s ctx a o h ht hp hf => State.operates_control .poolAllocate _ _ h ?_, fun s ctx o h ht hp hf => State.operates_control .poolAllocate _ _ h ?_,
    fun s ctx aux o h ht hp => State.operates_control .poolAllocate _ _ h ?_, fun s ctx o h ht hp => State.operates_control .poolFree _ _ h ?_,
    fun s ctx u b o h ht hp ha hu hb => ⟨fun hc hg => State.operates_control .poolFree _ _ h ?_, fun hne => State.operates_control .poolFree _ _ h ?_⟩,
    fun s ctx u o h ht hp ha hu hb hfr => State.operates_control .poolFree _ _ h ?_⟩
  · simp only [ht, hp, hf, Bool.not_true, Bool.false_eq_true, if_false]
    rfl
  · simp only [ht, hp, hf, Bool.not_true, Bool.false_eq_true, if_false]
  · simp only [ht, hp, Bool.not_true, Bool.false_eq_true, if_false]
  · simp [ht, hp]
  · simp [ht, hp, State.poolUnit_addr ha hu, hb, hc, hg, State.poolGive, State.poolAddr]
  · simp [ht, hp, State.poolUnit_addr ha hu, hb, if_neg (fun hn : b.ctx = o.ctx ∧ b.tag = o.tag => hne.elim (· hn.1) (· hn.2))]
  · simp [ht, hp, State.poolUnit_addr ha hu, hb, hfr]

end Sys2Proof.Machine
end

section
/-! SUPPORT. COMMIT step by step (R368–R371): what its run does at each value of its step counter, and its verdict without a package group. -/

namespace Sys2Proof.Machine

section Commit
variable {s : State} {ctx : Nat} {o : Op} (h : s.runTarget ctx (isOpc .commit) = some o)
include h

theorem commitOp_fresh (hp : o.prog = []) :
    commitOp ctx s = (s.ledgerCheck o.part).modOp o.seq (fun o => { o with prog := [0] }) := by
  simp only [commitOp, h, hp]

theorem commitOp_drained (hp : o.prog = [0]) (hd : s.drained o.part = true) (hf : s.flashDurable o.part = true) :
    commitOp ctx s = ((s.modPart o.part (fun x => { x with deciding := some (s.part o.part).verdict })).sendVerdict o.part
      (s.part o.part).verdict).modOp o.seq (fun y => { y with prog := [1, (s.part o.part).verdict, s.frame] }) := by
  simp only [commitOp, h, hp]
  exact if_pos ⟨hd, hf⟩

theorem commitOp_decided {mine frame st : Nat} (hp : o.prog = [1, mine, frame]) (hd : s.decision o.part mine frame = some st) :
    commitOp ctx s = s.commitAct o mine st := by
  simp only [commitOp, h, hp, hd]

theorem commitOp_sealed (hp : o.prog = [2]) (hs : s.sealsOpen = false) : commitOp ctx s = (s.commitEnd o 0 0).stepEnd o.part := by
  simp only [commitOp, h, hp]
  exact if_neg (by simp [hs])

end Commit

section Restore
variable {s : State} {p st de : Nat} {o : Op}
  (h : s.ops.find? (fun o => o.part == p && isOpc .commit o.desc && o.stage == .started) = some o)
include h

theorem abortRestore_undo (hp : o.prog = [3, st, de]) :
    abortRestore p s = (s.stepUndo p).modOp o.seq (fun o => { o with prog := [4, st, de] }) := by
  simp only [abortRestore, h, hp]

theorem abortRestore_done (hp : o.prog = [4, st, de]) (hd : s.drained p = true) :
    abortRestore p s = ((s.commitEnd o st de).stepEnd p).modPart p (fun x => { x with restoring := false }) := by
  simp only [abortRestore, h, hp]
  exact if_pos hd

end Restore

/-- Settles O18: one clause per value of the step counter of COMMIT and of its restoring. -/
theorem commitSteps : Obligations.CommitSteps :=
  ⟨fun _ _ _ _ h hp => State.operates_run (commitOp_fresh h hp) .commit,
    fun _ _ _ _ h hp hd hf => State.operates_run (commitOp_drained h hp hd hf) .commit,
    fun _ _ _ _ _ _ _ h hp hd => State.operates_run (commitOp_decided h hp hd) .commit,
    fun _ _ _ _ h hp hs => State.operates_run (commitOp_sealed h hp hs) .commit,
    fun _ _ _ _ _ _ hlt h hp => State.doesIf_eq (decide_eq_true hlt) (abortRestore_undo h hp),
    fun _ _ _ _ _ _ hlt h hp hd => State.doesIf_eq (decide_eq_true hlt) (abortRestore_done h hp hd)⟩

/-! ### The verdict (R368–R370) -/

/-- The status that a package's own verdict stands for (R369). -/
def verdictStatus (mine : Nat) : Nat := if mine = 1 then 0x30 else if mine = 2 then 0x32 else 0

theorem State.decision_alone {s : State} {p mine frame : Nat} (h : s.fld (.schCommitCtrl p) F.schCommitCtrl_GROUP = 0) :
    s.decision p mine frame = some (verdictStatus mine) := if_pos h

/-- An abort that was only not finite carries no DETAIL (R371). -/
theorem State.commitAct_nonfinite (s : State) (o : Op) (mine : Nat) :
    s.commitAct o mine 0x32 = ((s.satFld (.schCommitStatus o.part) F.schCommitStatus_ABORTS 1).modPart o.part
      (fun x => { x with restoring := true })).modOp o.seq (fun o => { o with prog := [3, 0x32, 0] }) := rfl

/-- Settles O59: the taint is judged before the results that are not finite, and the act follows the status. -/
theorem commitVerdict : Obligations.CommitVerdict := by
  refine ⟨fun s p frame hg => ⟨fun ht => ?_, fun ht hn => ?_, fun ht hn => ?_⟩, fun s ctx mine frame o _ h hp hd => ?_,
    fun s ctx mine frame o _ h hp hd => ?_⟩
  · simp [State.decision_alone hg, Part.verdict, ht, verdictStatus]
  · simp [State.decision_alone hg, Part.verdict, ht, hn, verdictStatus]
  · simp [State.decision_alone hg, Part.verdict, ht, hn, verdictStatus]
  · exact State.operates_run (commitOp_decided h hp hd) .commit
  · exact State.operates_run ((commitOp_decided h hp hd).trans (s.commitAct_nonfinite o mine)) .commit

end Sys2Proof.Machine
end

section
/-! SUPPORT. The start of operations, their tasks and credits, and the steps inside them that are commands (R101–R104, R172, R434–R442). -/

namespace Sys2Proof.Machine

/-! ### Starts (R101–R104) -/

/-- An operation whose predecessors did not fail starts. -/
theorem State.startOp_begun {s : State} {o : Op} {c : Opc} (ha : s.predAt o o.desc.depA ≠ .failed) (hb : s.predAt o o.desc.depB ≠ .failed) :
    s.startOp o c = s.begun o c := by
  unfold State.startOp
  exact if_neg (by simp [ha, hb])

/-- One whose first predecessor failed ends without a start (R104). -/
theorem State.startOp_failed {s : State} {o : Op} {c : Opc} (ha : s.predAt o o.desc.depA = .failed) :
    s.startOp o c = (s.dropTasks (fun t => t.op == o.seq)).modOp o.seq (fun y => { y with
      stage := .finished, status := 0x33, detail := y.desc.depA, tasksLeft := 0, charge := 0 }) := by
  simp only [State.startOp, ha, true_or, if_true]

theorem primaryStart_may {s : State} {p : Nat} {o : Op} {c : Opc}
    (h : s.ops.find? (fun o => o.part == p && o.isPrimary && o.stage != .refused && o.stage != .finished) = some o)
    (hc : opcOf o.opcode = some c) (hm : s.mayStart o c = true) : primaryStart p s = (s.startOp o c).l0Part p := by
  simp only [primaryStart, h, hc, hm, if_true]

theorem secondaryStart_may {s : State} {ctx : Nat} {o : Op} {c : Opc} (h : (s.opsOf ctx).find? s.secondaryMay = some o)
    (hc : opcOf o.opcode = some c) : secondaryStart ctx s = s.startOp o c := by
  simp only [secondaryStart, h, hc]

theorem completionWrite_due {s : State} {p : Nat} (hd : s.completionsDue p = true) (hc : (s.part p).commit.isSome = true) :
    completionWrite p s = (s.writeCompletions (fun o => o.part == p && (!o.ended || s.resetReady o))).modPart p (fun x => { x with
      stretch := 0, interrupts := 0, mismatch := false }) := by
  have hn : (s.part p).commit.isNone = false := Option.isNone_eq_false_iff.mpr hc
  simp only [completionWrite, hd, hn, Bool.not_true, Bool.false_eq_true, if_false, if_true]

/-- A key that a filter on keys takes out is not stored. -/
theorem sget_filter_none {α : Type} {k : Nat} {f : Nat → Bool} (h : f k = false) (l : List (Nat × α)) :
    sget k (l.filter (fun x => f x.1)) = none := by
  induction l with
  | nil => rfl
  | cons x l ih =>
    by_cases hx : f x.1 = true
    · have hne : k ≠ x.1 := fun he => by simp [← he, h] at hx
      simpa [List.filter_cons, hx, sget, hne] using ih
    · simpa [List.filter_cons, hx] using ih

/-- Settles O19: the oldest operation that may start does, and the cores of its partition keep no L0 line. -/
theorem operationStarts : Obligations.OperationStarts := by
  refine ⟨fun s p o c _ hlt h hc hm ha hb => State.doesIf_eq (decide_eq_true hlt) ?_,
    fun s ctx o c _ hlt hc h ha hb => State.doesIf_eq (decide_eq_true hlt) ?_,
    fun s ctx o c _ hlt hc h ha => State.doesIf_eq (decide_eq_true hlt) ?_,
    fun s p _ hlt hd hc => State.doesIf_eq (decide_eq_true hlt) (completionWrite_due hd hc), fun s p core h => ?_⟩
  · rw [primaryStart_may h hc hm, State.startOp_begun ha hb]
  · rw [secondaryStart_may h hc, State.startOp_begun ha hb]
  · rw [secondaryStart_may h hc, State.startOp_failed ha]
  · exact sget_filter_none (f := fun c => !s.regionIn p (c / 128)) (by simp [h]) s.l0

/-! ### Tasks and credits (R434–R442) -/

theorem taskDispatch_paid {s : State} {core at_ : Nat} {t : Task} (hf : (s.reach at_).coreFree core = true)
    (ht : firstTask ((s.reach at_).ownReady core) = some t)
    (hc : chargeAt t.bound ((s.reach at_).pstate ((s.reach at_).payer t core)) ≤ (s.reach at_).balance ((s.reach at_).payer t core)) :
    taskDispatch core at_ s = (s.reach at_).startTask t core ((s.reach at_).payer t core) := by
  simp only [taskDispatch, hf, ht, hc, Bool.not_true, Bool.false_eq_true, if_false, if_true]

section Finish
variable {s : State} {core at_ : Nat} {t : Task} (h : s.tasks.find? (fun t => t.at_ == .running core) = some t)
include h

theorem taskFinish_ends (hw : (t.cluster, t.op) ∉ s.graph.waitBlocks) :
    taskFinish core at_ s = ((({ s.reach at_ with
      tasks := s.tasks.filter (fun u => !(u.op == t.op && u.idx == t.idx))
      accs := sdel core s.accs } : State).splitMore t.part).settleOp t.op).dedupTrim := by
  simp only [taskFinish, State.reach_tasks, State.reach_graph, State.reach_accs, h, hw, if_false]

theorem taskFinish_waits (hw : (t.cluster, t.op) ∈ s.graph.waitBlocks) : taskFinish core at_ s = s.reach at_ := by
  simp only [taskFinish, State.reach_tasks, State.reach_graph, h, hw, if_true]

end Finish

/-- The first time after which a waiting descriptor is late has passed (R442). -/
theorem lagAlarm_late {s : State} {c at_ t0 : Nat} {x : Ctx} (hx : s.ctx? c = some x) (hw : x.waitsSince = some t0)
    (ht : t0 + s.fld .schLag F.schLag_LIMIT * 1000 < at_) (ha : s.bit .schLag F.schLag_ALARM = false) :
    lagAlarm c at_ s = ((s.reach at_).setFld .schLag F.schLag_ALARM 1).eventW
      0x0201 (689 + s.partOf c) (some c) (some (s.partOf c)) c 0 := by
  have hnow : t0 + s.fld .schLag F.schLag_LIMIT * 1000 < (s.reach at_).frm.now := Nat.lt_of_lt_of_le ht (s.le_reach at_)
  have hctx : (s.reach at_).ctx? c = some x := by rw [State.ctx?, State.reach_ctxs]; exact hx
  have hpart : (s.reach at_).partOf c = s.partOf c := s.reach_fld at_ _ _
  have hlate : x.waitsSince.any (fun t => decide (t + s.fld .schLag F.schLag_LIMIT * 1000 < (s.reach at_).frm.now)) = true := by
    rw [hw, Option.any_some, decide_eq_true_eq]
    exact hnow
  simp only [lagAlarm, hctx, hpart, State.reach_fld, State.reach_bit, hlate, ha, Bool.not_false, and_self, if_true]

/-- Settles O20: each command under the condition of its rule. -/
theorem scheduling : Obligations.Scheduling := by
  refine ⟨fun s core at_ t _ hlt hf ht hc => State.doesIf_eq (decide_eq_true hlt) (taskDispatch_paid hf ht hc),
    fun s core at_ t _ hlt h hw => State.doesIf_eq (decide_eq_true hlt) (taskFinish_ends h hw),
    fun s core at_ t _ hlt h hw => State.doesIf_eq (decide_eq_true hlt) (taskFinish_waits h hw),
    fun s r hr hlt hw => State.doesIf_pure (decide_eq_true hlt) hr (if_pos hw) rfl rfl,
    fun s r hr hlt hg hb => State.doesIf_pure (decide_eq_true hlt) hr (if_pos ⟨hg, by simp [hb]⟩) rfl rfl,
    fun s c at_ t0 x _ hlt hx hw ht ha => State.doesIf_eq (decide_eq_true hlt) (lagAlarm_late hx hw ht ha)⟩

/-! ### Steps inside operations -/

/-- Closing a block of the region leaves a waiting cluster its place among four (R172). -/
theorem dedupBlockOpen_free {s : State} {cluster closing op : Nat}
    (h : s.dedupTrim.graph.waitBlocks.find? (fun x => x.1 == cluster) = some (cluster, op)) (hc : closing / 8 = cluster / 8)
    (hn : (s.dedupTrim.graph.openBlocks.filter (fun y => y.1 / 8 == cluster / 8 && y.1 != closing)).length < 4) :
    dedupBlockOpen cluster closing s = { s.dedupTrim with graph := { s.dedupTrim.graph with
      openBlocks := s.dedupTrim.graph.openBlocks.filter (fun y => y.1 != closing) ++ [(cluster, op)]
      waitBlocks := s.dedupTrim.graph.waitBlocks.filter (· ≠ (cluster, op)) } } := by
  have hsame : (fun y : Nat × Nat => !(y.1 == closing && closing / 8 == cluster / 8)) = fun y => y.1 != closing := by
    funext y
    simp [hc, bne]
  simp only [dedupBlockOpen, h, hsame, State.dedupFree, List.filter_filter, hn, decide_true, if_true]

theorem regionMergeEmit_found {s : State} {ctx r : Nat} {o : Op} {c : Chart}
    (h : s.ops.find? (fun o => o.ctx == ctx && o.stage == .started && isOpc .scatter o.desc && s.merges o r) = some o)
    (hc : s.chart? ctx (o.desc.param 0 2) = some c) : regionMergeEmit ctx r s = s.emitRegion o c r := by
  simp only [regionMergeEmit, h, hc]

theorem reducePieceCombine_found {s : State} {ctx piece me : Nat} {o : Op} {r : CollRun} {g : Group}
    (h : s.ops.find? (fun o => o.ctx == ctx && o.stage == .started && isOpc .reduce o.desc && s.combines o piece) = some o)
    (hr : s.run? o.seq = some r) (hg : sget (o.desc.param 0 2) s.groups = some g) (hm : s.rankIn g = some me) :
    reducePieceCombine ctx piece s = s.combinePiece o r g me piece := by
  simp only [reducePieceCombine, h, hr, hg, hm]

theorem aliasRebuild_next {s : State} {q : AliasReq} {rest : List AliasReq} (h : s.graph.queue = q :: rest) (hb : s.aliasBusy q.node = false)
    (hd : ∀ d ∈ s.graph.done, d.1 = q.graph → d.2.1 ≠ q.node) :
    aliasRebuild s = ({ s with graph := { s.graph with queue := rest } } : State).rebuildAlias q := by
  have hn : s.graph.done.any (fun d => d.1 == q.graph && d.2.1 == q.node) = false := by
    simpa [List.any_eq_false] using hd
  simp only [aliasRebuild, h, hb, hn, Bool.false_eq_true, or_self, if_false]

theorem rowMoveCopy_own {s : State} {m : Move} {g p a map : Nat} (h : s.tbl.moves.find? s.moveDue = some m)
    (hs : s.moveSource (s.tblAt m.desc) m = some (g, p, a, map))
    (ho : s.isOwn (pkgOf (s.shardE (s.repOp m.ctx m.desc) (s.tblAt m.desc).slot.2.2 g).ctrl) = true) :
    rowMoveCopy s = s.moveHere (s.tblAt m.desc) m
      (s.ctrlAt (s.shardE (s.repOp m.ctx m.desc) (s.tblAt m.desc).slot.2.2 g).ctrl) p a map := by
  simp only [rowMoveCopy, h, hs, ho, if_true]

/-- The tables whose sketches are halved are those known before the count was taken back (R262). -/
theorem sketchDecay_due {s : State} {n : Nat} (h : s.fld .tblSketchCtrl F.tblSketchCtrl_DECAY_FRAMES = n) (h0 : n ≠ 0)
    (hd : n ≤ s.tbl.decayAt) :
    sketchDecay s = ({ s with tbl := { s.tbl with decayAt := s.tbl.decayAt % n } } : State).each
      ((s.tbl.known.flatMap (fun k =>
        ({ s with tbl := { s.tbl with decayAt := s.tbl.decayAt % n } } : State).ownSketches k.ctx (s.tblAt k.desc))).eraseDups)
      (fun t x => t.halve x.1 x.2 (min (s.tbl.decayAt / n) 16)) := by
  subst h
  unfold sketchDecay
  rw [if_neg (by omega)]
  rfl

/-- Settles O21: each command finds what it is to act on, and acts. -/
theorem innerSteps : Obligations.InnerSteps :=
  ⟨fun _ _ _ _ hr h hc hn => State.does_pure hr (dedupBlockOpen_free h hc hn) rfl rfl,
    fun _ _ _ _ _ _ hlt h hc => State.doesIf_eq (decide_eq_true hlt) (regionMergeEmit_found h hc),
    fun _ _ _ _ _ _ _ _ h hr hg hm => State.does_eq (reducePieceCombine_found h hr hg hm),
    fun _ _ _ _ h hb hd => State.does_eq (aliasRebuild_next h hb hd),
    fun _ _ _ _ _ _ _ h hs ho => State.does_eq (rowMoveCopy_own h hs ho),
    fun _ _ _ h h0 hd => State.does_eq (sketchDecay_due h h0 hd)⟩

end Sys2Proof.Machine
end

section
/-! SUPPORT. The vector unit: what a micro-op leaves on the lanes (R317, R318). -/

namespace Sys2Proof.Machine

/-- A micro-op of a core that exists puts its result into that core's vector unit. -/
theorem State.lanesDo_put {s : State} {core : Nat} (f : State → Vu → Vu) (hc : core < 16384) (hr : s.hard.rails = true) :
    s.lanesDo core f = .next (s.putVu core (f s (s.vuOf core))) :=
  State.doesIf_pure (decide_eq_true hc) hr rfl rfl rfl

/-- Settles O22: every micro-op is one function of the core's vector unit. -/
theorem microOps : Obligations.MicroOps := by
  refine ⟨fun s core d a hr hc => ?_, fun s core d a b hr hc => ?_, fun s core d a b c hr hc => ?_, fun s core d a b imm mod hr hc => ?_⟩
  all_goals
    repeat' apply And.intro
    all_goals exact State.lanesDo_put _ hc hr

/-! ### What a micro-op leaves as it was -/

theorem Lane.get_set_ne (l : Lane) (x : W32) {d j : Nat} (h : j % 16 ≠ d % 16) : (l.set d x).get j = l.get j := by
  simp only [Lane.get, Lane.set, nthD]
  rw [List.getElem?_set_ne h.symm]

/-- `u'` is `u` with new values in one register of every lane. -/
def Vu.WritesReg (u : Vu) (d : Nat) (u' : Vu) : Prop :=
  (∃ g : Lane → W32, u'.lanes = u.lanes.map (fun l => l.set d (g l))) ∧ u'.op = u.op

/-- The operation, the number of lanes, their places and every register outside `ds` are the same. -/
def Vu.SameBut (u : Vu) (ds : List Nat) (u' : Vu) : Prop :=
  u'.lanes.length = u.lanes.length ∧ u'.op = u.op ∧ ∀ i j : Nat, j % 16 ∉ ds.map (fun d => d % 16) →
    (nthD u'.lanes i default).get j = (nthD u.lanes i default).get j
    ∧ (nthD u'.lanes i default).row = (nthD u.lanes i default).row
    ∧ (nthD u'.lanes i default).col = (nthD u.lanes i default).col

theorem Vu.WritesReg.sameBut {u u' : Vu} {d : Nat} (h : u.WritesReg d u') : u.SameBut [d] u' := by
  obtain ⟨⟨g, hl⟩, ho⟩ := h
  refine ⟨by rw [hl, List.length_map], ho, fun i j hj => ?_⟩
  have hd : j % 16 ≠ d % 16 := by simpa using hj
  simp only [nthD, hl, List.getElem?_map]
  cases u.lanes[i]? with
  | none => exact ⟨rfl, rfl, rfl⟩
  | some l => exact ⟨l.get_set_ne (g l) hd, rfl, rfl⟩

theorem Vu.sameBut_out (u : Vu) (a : Nat) : u.SameBut [] (vuOut u a) := ⟨rfl, rfl, fun _ _ _ => ⟨rfl, rfl, rfl⟩⟩

theorem State.vuOf_putVu_ne (s : State) (u : Vu) {k core : Nat} (h : k ≠ core) : (s.putVu core u).vuOf k = s.vuOf k := by
  simp only [State.vuOf, State.putVu, sgetD]
  rw [sget_sput_ne h]

/-- A command that writes lanes puts into one core's vector unit one that is the same but for the registers it names. -/
theorem exec_sameBut {c : Instr} {core : Nat} {ds : List Nat} {s : State} (h : writesLanes c = some (core, ds)) (hc : core < 16384)
    (hr : s.hard.rails = true) : ∃ u : Vu, exec c s = .next (s.putVu core u) ∧ (s.vuOf core).SameBut ds u := by
  cases c with
  | mov d | rcp d | sqrt d | rsqrt d | abs d | neg d | relu d | isFin d | floor d | roundI d | exp d | log d | tanh d | sigmoid d | erf d
  | cos d | gelu d | silu d | softplus d | add d | sub d | mul d | div d | max d | min d | leaky d | cmpGt d | cmpGe d | cmpEq d | fma d
  | clamp d | sel d | const d | constLo d | ldaux d | ldidx d | rndFmt d | rsum d | rmax d | rmin d | rdot d | rand d =>
    cases h
    exact ⟨_, State.lanesDo_put _ hc hr, Vu.WritesReg.sameBut ⟨⟨_, rfl⟩, rfl⟩⟩
  | out a =>
    cases h
    exact ⟨_, State.lanesDo_put _ hc hr, Vu.sameBut_out _ _⟩
  | _ => cases h

/-- Settles O23. -/
theorem microOpFrame : Obligations.MicroOpFrame := by
  intro c core ds s h hc hr
  obtain ⟨u, hu, hlen, hop, hlanes⟩ := exec_sameBut h hc hr
  exact ⟨u, hu, hlen, hop, fun k hk => s.vuOf_putVu_ne u hk, hlanes⟩

end Sys2Proof.Machine
end

section
/-! SUPPORT. Two searches and places: the lowest free run of a pool (R758), and where a byte of the memory lies on the stacks (R394). -/

namespace Sys2Proof.Machine

/-! ### The pool search (R758) -/

theorem overlap_iff {a n b m : Nat} : overlap a n b m = true ↔ 0 < n ∧ 0 < m ∧ a < b + m ∧ b < a + n := by
  simp [overlap, and_assoc]

/-- The number of buffers of a pool that end above a unit: the steps that a search from there can still need. -/
def endsAbove (l : List Buf) (a : Nat) : Nat := l.countP (fun b => decide (a < b.unit + b.units))

/-- Fewer buffers end above a higher unit. -/
theorem endsAbove_anti {a c : Nat} (h : a ≤ c) (l : List Buf) : endsAbove l c ≤ endsAbove l a :=
  List.countP_mono_left (fun x _ hx => by
    simp only [decide_eq_true_eq] at hx ⊢
    omega)

/-- Going past a buffer that is in the way leaves fewer that end above. -/
theorem endsAbove_lt {l : List Buf} {a n : Nat} {b : Buf} (hb : b ∈ l) (ho : overlap a n b.unit b.units = true) :
    endsAbove l (b.unit + b.units) < endsAbove l a := by
  obtain ⟨_, _, hlt, _⟩ := overlap_iff.mp ho
  obtain ⟨l1, l2, rfl⟩ := List.append_of_mem hb
  have h1 := endsAbove_anti (Nat.le_of_lt hlt) l1
  have h2 := endsAbove_anti (Nat.le_of_lt hlt) l2
  simp only [endsAbove, List.countP_append, List.countP_cons, Nat.lt_irrefl, hlt, decide_true, decide_false] at h1 h2 ⊢
  simp only [Bool.false_eq_true, if_false, if_true]
  omega

/-- A run of `n` units from `c` meets some buffer. -/
def Collides (l : List Buf) (n c : Nat) : Prop := ∃ b ∈ l, overlap c n b.unit b.units = true

/-- Every run up to the end of a buffer that is in the way at `a` meets that buffer, or one met before. -/
theorem collides_below_end {l : List Buf} {n a : Nat} {b : Buf} (hb : b ∈ l) (ho : overlap a n b.unit b.units = true)
    (hlow : ∀ c, c < a → Collides l n c) : ∀ c, c < b.unit + b.units → Collides l n c := by
  intro c hc
  by_cases hca : c < a
  · exact hlow c hca
  · obtain ⟨hn, hm, _, hlt⟩ := overlap_iff.mp ho
    exact ⟨b, hb, overlap_iff.mpr ⟨hn, hm, hc, by omega⟩⟩

/-- What an answer of the search from a unit on is worth. -/
def FitSpec (l : List Buf) (units n : Nat) : Option Nat → Prop
  | some a => a + n ≤ units ∧ (∀ b ∈ l, overlap a n b.unit b.units = false) ∧ ∀ c, c < a → Collides l n c
  | none => ∀ c, c + n ≤ units → Collides l n c

/-- The search, once all below its start is known to be taken, with as many steps as it can need. -/
theorem firstFit_spec {l : List Buf} {units n : Nat} (k a : Nat) (hk : endsAbove l a < k) (hlow : ∀ c, c < a → Collides l n c) :
    FitSpec l units n (firstFit l units n k a) := by
  induction k generalizing a with
  | zero => omega
  | succ k ih =>
    unfold firstFit
    by_cases hu : units < a + n
    · rw [if_pos hu]
      exact fun c hc => hlow c (by omega)
    · rw [if_neg hu]
      cases hf : l.find? (fun b => overlap a n b.unit b.units) with
      | none => exact ⟨by omega, fun b hb => by simpa using List.find?_eq_none.mp hf b hb, hlow⟩
      | some b =>
        have hb : b ∈ l := List.mem_of_find?_eq_some hf
        have ho : overlap a n b.unit b.units = true := List.find?_some (p := fun b : Buf => overlap a n b.unit b.units) hf
        have hdec := endsAbove_lt hb ho
        exact ih _ (by omega) (collides_below_end hb ho hlow)

/-- Settles O58: each step of the search goes past one buffer for good, so a pool's length in steps suffices. -/
theorem poolFirstFit : Obligations.PoolFirstFit := by
  intro l units n _
  have hspec : FitSpec l units n (firstFit l units n (l.length + 1) 0) :=
    firstFit_spec _ 0 (Nat.lt_succ_of_le List.countP_le_length) (fun c hc => absurd hc (Nat.not_lt_zero c))
  constructor
  · intro a ha
    rwa [ha] at hspec
  · intro hn
    rwa [hn] at hspec

/-! ### Places on the stacks (R393, R394) -/

theorem findIdxN_some {α : Type} {p : α → Bool} {l : List α} {i j : Nat} (h : findIdxN p j l = some i) :
    ∃ k x, i = j + k ∧ l[k]? = some x ∧ p x = true := by
  induction l generalizing j with
  | nil => cases h
  | cons a l ih =>
    unfold findIdxN at h
    split at h
    next ha => exact ⟨0, a, by simpa using h.symm, rfl, ha⟩
    next =>
      obtain ⟨k, x, hi, hx, hp⟩ := ih h
      exact ⟨k + 1, x, by omega, hx, hp⟩

/-- The index at which a channel is found tells the channel. -/
theorem findIdxN_beq_inj {l : List Nat} {c d i : Nat} (hc : findIdxN (· == c) 0 l = some i) (hd : findIdxN (· == d) 0 l = some i) :
    c = d := by
  obtain ⟨k, x, rfl, hx, hp⟩ := findIdxN_some hc
  obtain ⟨k', y, hk, hy, hq⟩ := findIdxN_some hd
  obtain rfl : k = k' := by omega
  obtain rfl : x = y := by simpa [hx] using hy
  exact (beq_iff_eq.mp hp).symm.trans (beq_iff_eq.mp hq)

theorem xor_cancel_right {a b k : Nat} (h : a ^^^ k = b ^^^ k) : a = b := by
  have hcancel := congrArg (· ^^^ k) h
  simpa only [Nat.xor_assoc, Nat.xor_self, Nat.xor_zero] using hcancel

/-- Die, channel, row and byte of the line tell an offset (R394). -/
theorem eq_of_hbmHome {a b : Nat} (h : hbmHome a = hbmHome b) (hb : a % dieRange % 2048 = b % dieRange % 2048) : a = b := by
  simp only [hbmHome, Prod.mk.injEq] at h
  obtain ⟨hdie, hch, hrow⟩ := h
  rw [hrow] at hch
  have hch' : a % dieRange / 2048 % 64 = b % dieRange / 2048 % 64 := xor_cancel_right hch
  have hoff : a % dieRange = b % dieRange := by omega
  rw [← Nat.div_add_mod a dieRange, ← Nat.div_add_mod b dieRange, hdie, hoff]

/-- The channels of a die that are not mapped out. -/
def workingChannels (m : List Nat) : List Nat := (List.range 64).filter (fun c => c ∉ m)

theorem workingChannels_length {m : List Nat} (hm : m.Nodup) (hlt : ∀ c ∈ m, c < 64) : (workingChannels m).length = 64 - m.length := by
  have hperm : ((List.range 64).filter (fun c => decide (c ∈ m))).Perm m := by
    refine (List.perm_ext_iff_of_nodup (List.nodup_range.filter _) hm).mpr (fun c => ?_)
    simpa using hlt c
  have hsum := List.length_eq_countP_add_countP (fun c => decide (c ∈ m)) (l := List.range 64)
  rw [List.countP_eq_length_filter, hperm.length_eq, List.length_range] at hsum
  have hworking : (workingChannels m).length = (List.range 64).countP (fun c => decide ¬(decide (c ∈ m)) = true) := by
    rw [List.countP_eq_length_filter, workingChannels]
    simp only [decide_eq_true_eq]
  omega

/-- Two equal places of a list without repetition, both within it, are one. -/
theorem nthD_inj {l : List Nat} (hl : l.Nodup) {i j : Nat} (hi : i < l.length) (hj : j < l.length) (h : nthD l i 0 = nthD l j 0) : i = j := by
  simp only [nthD, List.getElem?_eq_getElem hi, List.getElem?_eq_getElem hj, Option.getD_some] at h
  exact (List.getElem_inj hl).mp h

/-- The usable rows of a channel of a die with these channels mapped out (R394). -/
def usableRows (m : List Nat) : Nat := 786432 - 12288 * m.length

/-- Channel and row of a home place under a die's map-outs (R394). -/
def placeOn (m : List Nat) (ch row : Nat) : Nat × Nat :=
  match findIdxN (· == ch) 0 m with
  | none => (ch, row)
  | some i => (nthD (workingChannels m) ((i * usableRows m + row) % (64 - m.length)) 0,
      usableRows m + (i * usableRows m + row) / (64 - m.length))

theorem hbmLocate_eq (mapped : List (List Nat)) (a : Nat) :
    hbmLocate mapped a = ((hbmHome a).1, (placeOn (nthD mapped (hbmHome a).1 []) (hbmHome a).2.1 (hbmHome a).2.2).1,
      (placeOn (nthD mapped (hbmHome a).1 []) (hbmHome a).2.1 (hbmHome a).2.2).2 * 2048 + a % dieRange % 2048) := by
  simp only [hbmLocate, placeOn]
  cases findIdxN (· == (hbmHome a).2.1) 0 (nthD mapped (hbmHome a).1 []) <;> rfl

/-- Two numbers written as an index and a usable row are equal only part by part. -/
theorem index_row_inj {n i j r q : Nat} (hr : r < n) (hq : q < n) (h : i * n + r = j * n + q) : i = j ∧ r = q := by
  have hi := congrArg (· / n) h
  have hm := congrArg (· % n) h
  simp only [Nat.mul_add_mod_self_right, Nat.mod_eq_of_lt hr, Nat.mod_eq_of_lt hq] at hm
  have hn : 0 < n := by omega
  simp only [Nat.mul_comm _ n, Nat.mul_add_div hn, Nat.div_eq_of_lt hr, Nat.div_eq_of_lt hq, Nat.add_zero] at hi
  exact ⟨hi, hm⟩

/-- A line of a mapped-out channel goes above the usable rows, where its channel and row tell its index and its row again. -/
theorem placeOn_inj {m : List Nat} (hm : m.Nodup) (hlen : m.length ≤ 8) (hlt : ∀ c ∈ m, c < 64) {c d r q : Nat}
    (hr : r < usableRows m) (hq : q < usableRows m) (h : placeOn m c r = placeOn m d q) : c = d ∧ r = q := by
  have hwl := workingChannels_length hm hlt
  have hwn : (workingChannels m).Nodup := List.nodup_range.filter _
  unfold placeOn at h
  split at h <;> split at h <;> simp only [Prod.mk.injEq] at h <;> obtain ⟨hc, hrow⟩ := h
  next => exact ⟨hc, hrow⟩
  next => exact absurd (hrow ▸ hr) (Nat.not_lt.mpr (Nat.le_add_right _ _))
  next => exact absurd (hrow.symm ▸ hq) (Nat.not_lt.mpr (Nat.le_add_right _ _))
  next i hi _ j hj =>
    have hpos : 0 < 64 - m.length := by omega
    have hmod := nthD_inj hwn (hwl.symm ▸ Nat.mod_lt _ hpos) (hwl.symm ▸ Nat.mod_lt _ hpos) hc
    have hdiv := Nat.add_left_cancel hrow
    have ht : i * usableRows m + r = j * usableRows m + q := by
      rw [← Nat.div_add_mod (i * usableRows m + r) (64 - m.length), hdiv, hmod, Nat.div_add_mod]
    obtain ⟨rfl, hrq⟩ := index_row_inj hr hq ht
    exact ⟨findIdxN_beq_inj hi hj, hrq⟩

/-- Settles O56: the place of a line tells its home, and its home with the byte of the line tells the offset. -/
theorem linesDoNotCollide : Obligations.LinesDoNotCollide := by
  intro mapped a b hm ha hb h
  simp only [hbmLocate_eq, Prod.mk.injEq] at h
  obtain ⟨hdie, hch, hbyte⟩ := h
  rw [hdie] at ha hch hbyte
  obtain ⟨hnodup, hlen, hlt⟩ := hm (hbmHome b).1
  have hrow : (placeOn (nthD mapped (hbmHome b).1 []) (hbmHome a).2.1 (hbmHome a).2.2).2
      = (placeOn (nthD mapped (hbmHome b).1 []) (hbmHome b).2.1 (hbmHome b).2.2).2 := by omega
  obtain ⟨hc, hr⟩ := placeOn_inj hnodup hlen hlt ha hb (Prod.ext hch hrow)
  exact eq_of_hbmHome (Prod.ext hdie (Prod.ext hc hr)) (by omega)

end Sys2Proof.Machine
end

section
/-! SUPPORT. FP32 words bit by bit: which are NaN, and what micro-ops make of them (R299, R318, R320). -/

namespace Sys2Proof.Machine

/-- A word is NaN when its magnitude exceeds that of infinity (R272). -/
theorem isNan32_iff (b : W32) : isNan32 b = true ↔ 0x7F800000 < b.toNat % 0x80000000 := by
  unfold isNan32 fv32 FFmt.decode
  simp only [fmtOf]
  by_cases hex : b.toNat / 2 ^ 23 % 2 ^ 8 = 2 ^ 8 - 1
  · by_cases hfrac : b.toNat % 2 ^ 23 = 0
    · simp only [hex, hfrac, Bool.not_false, and_self, if_true, FV.isNan, Bool.false_eq_true, false_iff]
      omega
    · simp only [hex, hfrac, Bool.not_false, and_self, if_true, if_false, FV.isNan, true_iff]
      omega
  · simp only [hex, Bool.false_eq_true, false_and, if_false]
    have hlt : ¬ 0x7F800000 < b.toNat % 0x80000000 := by omega
    simp only [hlt, iff_false, Bool.not_eq_true]
    split <;> rfl

/-- Words of the same magnitude are NaN together. -/
theorem isNan32_congr {a b : W32} (h : a.toNat % 0x80000000 = b.toNat % 0x80000000) : isNan32 a = isNan32 b := by
  rw [Bool.eq_iff_iff, isNan32_iff, isNan32_iff, h]

theorem toNat_mod_magnitude (a : W32) : a.toNat % 0x80000000 = (a &&& 0x7FFFFFFF#32).toNat := by
  rw [BitVec.toNat_and]
  exact (Nat.and_two_pow_sub_one_eq_mod a.toNat 31).symm

theorem signFlip_magnitude (a : W32) : (a ^^^ 0x80000000#32) &&& 0x7FFFFFFF#32 = a &&& 0x7FFFFFFF#32 := by
  apply BitVec.eq_of_toNat_eq
  rw [BitVec.toNat_and, BitVec.toNat_xor, Nat.and_xor_distrib_right, BitVec.toNat_and]
  exact Nat.xor_zero _

theorem magnitude_idem (a : W32) : (a &&& 0x7FFFFFFF#32) &&& 0x7FFFFFFF#32 = a &&& 0x7FFFFFFF#32 := by
  rw [BitVec.and_assoc, BitVec.and_self]

theorem isNan32_signFlip (a : W32) : isNan32 (a ^^^ 0x80000000#32) = isNan32 a :=
  isNan32_congr (by rw [toNat_mod_magnitude, signFlip_magnitude, ← toNat_mod_magnitude])

theorem isNan32_magnitude (a : W32) : isNan32 (a &&& 0x7FFFFFFF#32) = isNan32 a :=
  isNan32_congr (by rw [toNat_mod_magnitude, magnitude_idem, ← toNat_mod_magnitude])

/-! ### Results -/

theorem unlessNan_single {a : W32} (f : W32) : unlessNan [a] f = if isNan32 a then nan32 else f := by
  simp [unlessNan]

theorem canon32_eq (a : W32) : canon32 a = if isNan32 a then nan32 else a := unlessNan_single a

theorem mvNeg_of {a : W32} (h : isNan32 a = false) : mvNeg a = a ^^^ 0x80000000#32 := by
  simp [mvNeg, unlessNan_single, h]

theorem mvAbs_of {a : W32} (h : isNan32 a = false) : mvAbs a = a &&& 0x7FFFFFFF#32 := by
  simp [mvAbs, unlessNan_single, h]

theorem truth_or (b : Bool) : truth b = 0x3F800000#32 ∨ truth b = 0#32 := by
  cases b
  · exact .inr rfl
  · exact .inl rfl

theorem fv32_nan {a : W32} (h : isNan32 a = true) : fv32 a = .nan := by
  unfold isNan32 at h
  cases hv : fv32 a with
  | nan => rfl
  | inf n => simp [hv, FV.isNan] at h
  | fin n m e => simp [hv, FV.isNan] at h

theorem FV.lt_nan_right (v : FV) : FV.lt v .nan = false := by cases v <;> rfl

/-- Every comparison with a NaN is false (R320). -/
theorem mvCmp_nan {a b : W32} (h : isNan32 a = true ∨ isNan32 b = true) : mvCmpGt a b = 0#32 ∧ mvCmpGe a b = 0#32 ∧ mvCmpEq a b = 0#32 := by
  rcases h with h | h
  · simp [mvCmpGt, mvCmpGe, mvCmpEq, fv32_nan h, h, FV.lt_nan_right, FV.eqv, FV.isNan, truth]
  · simp [mvCmpGt, mvCmpGe, mvCmpEq, fv32_nan h, h, FV.lt, FV.eqv, FV.isNan, truth]

/-- The magnitude of a word by its halves. -/
theorem magnitude_halves {h l : Nat} (hl : l < 65536) : (h * 65536 + l) % 0x80000000 = h % 32768 * 65536 + l := by
  omega

theorem magnitude_upper (h : Nat) : h * 65536 % 0x80000000 = h % 32768 * 65536 := by
  omega

/-- A magnitude above that of infinity stays above it with any lower half. -/
theorem nan_with_lower_half {h l : Nat} (hl : l < 65536) (hn : 0x7F800000 < h * 65536 % 0x80000000) :
    0x7F800000 < (h * 65536 + l) % 0x80000000 := by
  rw [magnitude_upper] at hn
  rw [magnitude_halves hl]
  exact Nat.lt_of_lt_of_le hn (Nat.le_add_right _ _)

/-- The upper half that CONST leaves is the immediate, or that of the canonical NaN, which stays NaN with any lower half. -/
theorem mvConstLo_mvConst (hi lo : Nat) : mvConstLo (mvConst hi) lo = canon32 (BitVec.ofNat 32 (hi % 65536 * 65536 + lo % 65536)) := by
  have hword : (BitVec.ofNat 32 (hi % 65536 * 65536)).toNat = hi % 65536 * 65536 := by
    rw [BitVec.toNat_ofNat]
    omega
  have hfull : (BitVec.ofNat 32 (hi % 65536 * 65536 + lo % 65536)).toNat = hi % 65536 * 65536 + lo % 65536 := by
    rw [BitVec.toNat_ofNat]
    omega
  unfold mvConstLo mvConst
  rw [canon32_eq (BitVec.ofNat 32 (hi % 65536 * 65536))]
  by_cases hn : isNan32 (BitVec.ofNat 32 (hi % 65536 * 65536)) = true
  · have hnan : isNan32 (BitVec.ofNat 32 (nan32.toNat / 65536 * 65536 + lo % 65536)) = true := by
      rw [isNan32_iff, BitVec.toNat_ofNat]
      have hc : nan32.toNat / 65536 * 65536 = 0x7FC00000 := rfl
      omega
    have hall : isNan32 (BitVec.ofNat 32 (hi % 65536 * 65536 + lo % 65536)) = true := by
      rw [isNan32_iff, hword] at hn
      rw [isNan32_iff, hfull]
      exact nan_with_lower_half (Nat.mod_lt _ (by decide)) hn
    rw [if_pos hn, canon32_eq, canon32_eq, if_pos hnan, if_pos hall]
  · rw [if_neg hn, hword, Nat.mul_div_cancel _ (by decide)]

/-- Settles O57: each clause is a fact about the bits of the words, or about what a comparison makes of a NaN. -/
theorem microOpValues : Obligations.MicroOpValues := by
  refine ⟨fun hi lo => ?_, fun a ha => ⟨?_, ?_, ?_⟩, fun a b => ⟨truth_or _, truth_or _, truth_or _⟩, fun a b h => mvCmp_nan h,
    fun a h => ⟨?_, ?_⟩, fun a b c h => ?_⟩
  · rw [mvConstLo_mvConst, canon32_eq]
  · rw [mvNeg_of ha, mvNeg_of ((isNan32_signFlip a).trans ha), BitVec.xor_assoc, BitVec.xor_self, BitVec.xor_zero]
  · rw [mvNeg_of ha, mvAbs_of ((isNan32_signFlip a).trans ha), signFlip_magnitude, mvAbs_of ha]
  · rw [mvAbs_of ha, mvAbs_of ((isNan32_magnitude a).trans ha), magnitude_idem]
  · exact if_pos h
  · simp [mvIsFin, fv32_nan h, FV.nonfinite, truth]
  · simp [mvSel, h, canon32_eq]

end Sys2Proof.Machine
end

section
/-! SUPPORT. Writes to memory that pass the sync ports (R457, R462–R468), and the commands of sync words, monitors and barriers. -/

namespace Sys2Proof.Machine

/-! ### What the sync ports can change -/

/-- `t` differs from `s` in registers, event logic, operations, the sync ports and what has left the package, and that only grew. -/
def State.PortsOnly (s t : State) : Prop :=
  t = { s with regs := t.regs, evt := t.evt, ops := t.ops, sync := t.sync, outbox := t.outbox } ∧ ∃ l, t.outbox = s.outbox ++ l

theorem State.PortsOnly.refl (s : State) : s.PortsOnly s := ⟨rfl, [], (List.append_nil _).symm⟩

theorem State.PortsOnly.trans {s t u : State} (h1 : s.PortsOnly t) (h2 : t.PortsOnly u) : s.PortsOnly u := by
  obtain ⟨ht, l, hl⟩ := h1
  obtain ⟨hu, m, hm⟩ := h2
  refine ⟨?_, l ++ m, by rw [hm, hl, List.append_assoc]⟩
  rw [hu, ht]

theorem State.PortsOnly.ite {s t u : State} {c : Prop} [Decidable c] (h1 : s.PortsOnly t) (h2 : s.PortsOnly u) :
    s.PortsOnly (if c then t else u) := by
  split <;> assumption

theorem State.RegsEvt.portsOnly {s t : State} (h : s.RegsEvt t) : s.PortsOnly t := by
  unfold State.RegsEvt at h
  rw [h]
  exact ⟨rfl, [], (List.append_nil _).symm⟩

theorem portsOnly_each {α : Type} (f : State → α → State) (hf : ∀ (s : State) a, s.PortsOnly (f s a)) (s : State) (l : List α) :
    s.PortsOnly (s.each l f) := by
  unfold State.each
  induction l generalizing s with
  | nil => exact .refl s
  | cons a l ih => exact (hf s a).trans (ih _)

theorem portsOnly_modOp (s : State) (q : Nat) (f : Op → Op) : s.PortsOnly (s.modOp q f) := ⟨rfl, [], (List.append_nil _).symm⟩

theorem portsOnly_sync (s : State) (y : SyncSt) : s.PortsOnly { s with sync := y } := ⟨rfl, [], (List.append_nil _).symm⟩

theorem portsOnly_emit (s : State) (o : Output) : s.PortsOnly (s.emit o) := ⟨rfl, [o], rfl⟩

theorem portsOnly_settleOp (s : State) (q : Nat) : s.PortsOnly (s.settleOp q) := by
  unfold State.settleOp
  split
  · exact .ite (portsOnly_modOp _ _ _) (.refl s)
  · exact .refl s

theorem portsOnly_fenceHolds (s : State) (q : Nat) : s.PortsOnly (s.fenceHolds q) :=
  (portsOnly_modOp s q _).trans (portsOnly_settleOp _ q)

theorem portsOnly_wakeWaiters (s : State) : s.PortsOnly s.wakeWaiters :=
  (portsOnly_sync s _).trans (portsOnly_each _ (fun s _ => portsOnly_emit s _) _ _)

theorem portsOnly_ports (s : State) (k n : Nat) : s.PortsOnly (s.ports k n) :=
  ((portsOnly_sync s _).trans (portsOnly_each _ (fun s _ => portsOnly_fenceHolds s _) _ _)).trans (portsOnly_wakeWaiters _)

theorem regsEvt_shoalState (s : State) (v : Nat) : s.RegsEvt (s.shoalState v) := by
  unfold State.shoalState
  exact .ite (.refl s) (((regsEvt_setFld s _ _ _).trans (regsEvt_relevel _ _)).trans (regsEvt_eventW _ _ _ _ _ _ _))

theorem regsEvt_staleIf (s : State) (k n : Nat) : s.RegsEvt (s.staleIf k n) := by
  unfold State.staleIf
  exact .ite (regsEvt_shoalState s 3) (.refl s)

/-- A store is a write of bytes, and then the ports' work. -/
theorem portsOnly_store (s : State) (k : Nat) (bs : List Byte) : (s.kWr k bs).PortsOnly (s.store k bs) := by
  unfold State.store State.write
  exact (State.PortsOnly.ite (portsOnly_ports _ _ _) (.refl _)).trans (regsEvt_staleIf _ _ _).portsOnly

theorem State.store_mem (s : State) (k : Nat) (bs : List Byte) : (s.store k bs).mem = (s.kWr k bs).mem := by
  rw [(portsOnly_store s k bs).1]

/-- What a store leaves as it was (R457). -/
theorem State.store_keeps (s : State) (k : Nat) (bs : List Byte) :
    (s.store k bs).hard = s.hard ∧ (s.store k bs).pending = s.pending ∧ (s.store k bs).frm = s.frm ∧ (s.store k bs).ctxs = s.ctxs
      ∧ (s.store k bs).vus = s.vus ∧ (s.store k bs).tbl = s.tbl ∧ (s.store k bs).ferries = s.ferries := by
  rw [(portsOnly_store s k bs).1]
  exact ⟨rfl, rfl, rfl, rfl, rfl, rfl, rfl⟩

theorem State.store_outbox (s : State) (k : Nat) (bs : List Byte) : ∃ l, (s.store k bs).outbox = s.outbox ++ l :=
  (portsOnly_store s k bs).2

/-! ### Bytes outside space 0 -/

/-- No fenced channel serves a key outside space 0 (R408). -/
theorem State.fencedKey_high (s : State) {k : Nat} (h : 2 ^ 44 ≤ k) : s.fencedKey k = false := by
  simp only [State.fencedKey, decide_eq_false (Nat.not_lt.mpr h), Bool.and_false, Bool.false_and]

theorem State.kWrFenced_high (s : State) {k : Nat} (h : 2 ^ 44 ≤ k) (bs : List Byte) (m : List Host.Cell) :
    s.kWrFenced k bs m = memWrL m k bs := by
  induction bs generalizing k m with
  | nil => rfl
  | cons b bs ih => rw [State.kWrFenced, s.fencedKey_high h, if_neg Bool.false_ne_true, ih (Nat.le_succ_of_le h), memWrL]

/-- Reading back a write outside space 0, fenced channels or not. -/
theorem memRd_kWr_high (s : State) {k : Nat} (h : 2 ^ 44 ≤ k) (j : Nat) (bs : List Byte) :
    memRd (s.kWr k bs).mem j = if k ≤ j ∧ j < k + bs.length then nthD bs (j - k) 0 else memRd s.mem j := by
  simp only [State.kWr, s.kWrFenced_high h, ite_self, memRd_memWrL]

theorem nthD_eq_getElem {α : Type} {l : List α} {i : Nat} (h : i < l.length) (d : α) : nthD l i d = l[i] := by
  simp [nthD, h]

/-- The word under a key outside space 0 once four bytes have been stored there. -/
theorem State.word_store_high (s : State) {k : Nat} (h : 2 ^ 44 ≤ k) (v : Nat) : (s.store k (toLe 4 v)).word k = v % 2 ^ 32 := by
  have hread : (s.store k (toLe 4 v)).kRd k 4 = toLe 4 v := by
    refine List.ext_getElem (by simp [State.kRd, memRdL]) (fun i hi hi' => ?_)
    have hlt : i < 4 := by simpa using hi'
    simp only [State.kRd, memRdL, List.getElem_map, List.getElem_range, State.store_mem, memRd_kWr_high s h, toLe_length]
    rw [if_pos ⟨Nat.le_add_right _ _, by omega⟩, Nat.add_sub_cancel_left, nthD_eq_getElem hi']
  rw [State.word, hread]
  exact leBytes_toLe 4 v

theorem syncKey_high (a : Nat) : 2 ^ 44 ≤ syncKey a := by
  unfold syncKey
  omega

/-! ### Commands on sync words (R457) -/

section Word
variable {s : State} {core ctx a v : Nat} (hw : syncWord a = true) (hl : s.syncLocal a = true)
include hw hl

theorem syncLoad_local : syncLoad core ctx a s = s.emit (.coreValue core (s.word (syncKey a))) := by
  simp [syncLoad, hw, hl]

theorem syncStore_local : syncStore core ctx a v s = s.store (syncKey a) (toLe 4 v) := by
  simp [syncStore, hw, hl]

theorem syncAdd_local :
    syncAdd core ctx a v s = (s.store (syncKey a) (toLe 4 (s.word (syncKey a) + v))).emit (.coreValue core (s.word (syncKey a))) := by
  simp [syncAdd, hw, hl]

end Word

/-- Settles O25: a store changes the word, what the ports hold and what leaves the package, and nothing else. -/
theorem syncWordWrites : Obligations.SyncWordWrites := by
  intro s core ctx a v hr hc hw hl
  have hout : ∀ (bs : List Byte), bs.length = 4 → ∀ k, k < syncKey a ∨ syncKey a + 4 ≤ k →
      memRd (s.store (syncKey a) bs).mem k = memRd s.mem k := by
    intro bs hbs k hk
    rw [State.store_mem, memRd_kWr_outside s _ _ _ (by rwa [hbs])]
  constructor
  · have hkeep := s.store_keeps (syncKey a) (toLe 4 v)
    obtain ⟨hhard, hpend, -⟩ := id hkeep
    exact ⟨_, State.doesIf_pure (decide_eq_true hc) hr (syncStore_local hw hl) hhard hpend, s.word_store_high (syncKey_high a) v,
      hout _ (toLe_length 4 v), hkeep⟩
  · have hkeep := s.store_keeps (syncKey a) (toLe 4 (s.word (syncKey a) + v))
    obtain ⟨hhard, hpend, -⟩ := id hkeep
    obtain ⟨l, hl'⟩ := s.store_outbox (syncKey a) (toLe 4 (s.word (syncKey a) + v))
    exact ⟨_, State.doesIf_pure (decide_eq_true hc) hr (syncAdd_local hw hl) hhard hpend,
      s.word_store_high (syncKey_high a) _, ⟨l, congrArg (· ++ [_]) hl'⟩, hout _ (toLe_length 4 _), hkeep⟩

/-! ### The memory window (R564) -/

/-- The state with other tokens of the stacks. -/
def State.withTokens (s : State) (l : List (Nat × Nat)) : State := { s with hbm := { s.hbm with tokens := l } }

/-- Serving requests takes tokens and does nothing else (R414). -/
theorem State.takeTokens_tokens (s : State) (bucket k n : Nat) : ∃ l, s.takeTokens bucket k n = s.withTokens l := by
  unfold State.takeTokens
  split
  next h =>
    clear h
    unfold State.each
    induction burstsOf k n generalizing s with
    | nil => exact ⟨s.hbm.tokens, rfl⟩
    | cons b bs ih => exact ih (s.withTokens _)
  next => exact ⟨s.hbm.tokens, rfl⟩

theorem bar4Write_some {s : State} {off k : Nat} {bs : List Byte} (h : s.bar4 off bs.length = some k) :
    bar4Write off bs s = (s.takeTokens 64 k bs.length).store k bs := by
  simp only [bar4Write, h]

/-- Settles O38: the window's write takes tokens, and is then a store. -/
theorem windowWriteFrame : Obligations.WindowWriteFrame := by
  intro s off k bs hr hk hf
  obtain ⟨l, hl⟩ := s.takeTokens_tokens 64 k bs.length
  have hwrite := bar4Write_some hk
  rw [hl] at hwrite
  have hkeep := (s.withTokens l).store_keeps k bs
  obtain ⟨hhard, hpend, -⟩ := id hkeep
  have hfence : (s.withTokens l).hbm.fenced = [] := hf
  refine ⟨_, State.does_pure hr hwrite hhard hpend, fun i hi => ?_, fun j hj => ?_, hkeep⟩
  · rw [State.store_mem, memRd_kWr _ _ _ _ hfence, if_pos ⟨Nat.le_add_right _ _, Nat.add_lt_add_left hi k⟩, Nat.add_sub_cancel_left]
  · rw [State.store_mem, memRd_kWr_outside _ _ _ _ hj]
    rfl

/-! ### Monitors, waits and barriers (R462–R476) -/

theorem State.reach_monMask (s : State) (t core : Nat) : (s.reach t).monMask core = s.monMask core := by
  simp only [State.monMask, State.reach_sync]

theorem State.reach_pstate (s : State) (t r : Nat) : (s.reach t).pstate r = s.pstate r := s.reach_fld t _ _

section Wait
variable {s : State} {core limit : Nat} (at_ : Nat)

theorem syncWait_satisfied (hc : core < 16384) (h1 : 1 ≤ limit) (h2 : limit ≤ 2 ^ 24) (hm : s.monMask core ≠ 0) :
    syncWait core limit at_ s = { s.reach at_ with outbox := s.outbox ++ [.coreValue core (s.monMask core)] } := by
  unfold syncWait
  rw [← s.reach_outbox at_]
  simp only [State.reach_monMask, if_pos hm, State.emit, if_pos (And.intro hc (And.intro h1 h2))]

theorem syncWait_stops (hc : core < 16384) (h1 : 1 ≤ limit) (h2 : limit ≤ 2 ^ 24) (hm : s.monMask core = 0) :
    syncWait core limit at_ s = { s.reach at_ with sync := { s.sync with
      waits := s.sync.waits.filter (fun w => w.1 ≠ core) ++ [(core, (s.reach at_).frm.now, cyclesNs limit (s.pstate (core / 128)))] } } := by
  unfold syncWait
  simp only [State.reach_monMask, State.reach_sync, State.reach_pstate, hm, ne_eq, not_true, if_false, if_pos (And.intro hc (And.intro h1 h2))]

theorem waitLimitExpiry_passed {w : Nat × Nat × Nat} (h : s.sync.waits.find? (fun w => w.1 == core) = some w) (ht : w.2.1 + w.2.2 ≤ at_) :
    waitLimitExpiry core at_ s = { s.reach at_ with
      sync := { s.sync with waits := s.sync.waits.filter (fun w => w.1 ≠ core) }
      outbox := s.outbox ++ [.coreValue core (s.monMask core)] } := by
  have hnow : w.2.1 + w.2.2 ≤ (s.reach at_).frm.now := Nat.le_trans ht (s.le_reach at_)
  simp only [waitLimitExpiry, State.reach_sync, h, hnow, if_true, State.reach_monMask, State.emit, State.reach_outbox]

end Wait

theorem arrive_drained {s : State} {core k p : Nat} (hc : core < 16384) (hp : s.fld (.schRegState (core / 128)) F.schRegState_PARTITION = p)
    (hpl : p < 64) (hk : k < 16) (ha : core ∉ s.absent) (he : s.bit (.schBarCfg p k) F.schBarCfg_ENABLE = true)
    (hd : s.coreDrained core = true) : arrive core k s = s.arriveNow core p k := by
  subst hp
  unfold arrive
  rw [if_pos ⟨hc, hpl, hk, ha, he⟩, if_pos hd]

theorem barrierRelease_local {s : State} {p k u : Nat} (hp : p < 64) (hk : k < 16) (he : s.bit (.schBarCfg p k) F.schBarCfg_ENABLE = true)
    (hr : s.barReady p k u = true) (hs : s.barScope p k ≠ 4) :
    barrierRelease p k u s = s.releaseLocal p k u (((s.bar p k u).gen + 1) % 2 ^ 31) false := by
  unfold barrierRelease
  rw [if_pos ⟨hp, hk, he, hr⟩, if_neg hs]

/-- Settles O24. -/
theorem syncCommands : Obligations.SyncCommands := by
  refine ⟨fun s core ctx a v hr hc hw hl => ⟨?_, ?_, ?_⟩, fun s core m off cmp cond hr hc hm ho hb hcond => ?_, fun s core m hr hc => ?_,
    fun s core limit at_ hr hc h1 h2 => ⟨fun hm => ?_, fun hm => ?_⟩, fun s core at_ w hr hc h ht => ?_,
    fun s core k p _ hc hp hpl hk ha he hd => State.doesIf_eq (decide_eq_true hc) (arrive_drained hc hp hpl hk ha he hd),
    fun s p k u _ hp hk he hr hs => State.doesIf_eq (decide_eq_true hp) (barrierRelease_local hp hk he hr hs)⟩
  · exact State.doesIf_pure (decide_eq_true hc) hr (syncLoad_local hw hl) rfl rfl
  · exact State.doesIf_eq (decide_eq_true hc) (syncStore_local hw hl)
  · exact State.doesIf_eq (decide_eq_true hc) (syncAdd_local hw hl)
  · exact State.doesIf_pure (decide_eq_true hc) hr (if_pos ⟨hc, hm, ho, hb, hcond⟩) rfl rfl
  · exact State.doesIf_pure (decide_eq_true hc) hr rfl rfl rfl
  · exact State.doesIf_pure (decide_eq_true hc) hr (syncWait_satisfied at_ hc h1 h2 hm) (s.reach_hard at_) (s.reach_pending at_)
  · exact State.doesIf_pure (decide_eq_true hc) hr (syncWait_stops at_ hc h1 h2 hm) (s.reach_hard at_) (s.reach_pending at_)
  · exact State.doesIf_pure (decide_eq_true hc) hr (waitLimitExpiry_passed at_ h ht) (s.reach_hard at_) (s.reach_pending at_)

end Sys2Proof.Machine
end

section
/-! SUPPORT. Messages that arrive in order for this package (R494, R499), and duplicates of posted writes (R213, R214). -/

namespace Sys2Proof.Machine

/-! ### Messages that act as they are -/

/-- The message of a reserved code is discarded, and counted (R500). -/
theorem State.recv_reserved {s : State} {x : Rx} {vc : Nat} (m : Msg) (h : s.arrivesNext x vc) (hc : x.code = 5) :
    s.receives x vc m = .next (s.onDev (fun s => ((s.taken x vc).satFld (.strErr x.strait) F.strErr_UNKNOWN 1).followed x vc)) := by
  refine congrArg _ (State.onDev_congr ?_)
  show s.recv x vc m = _
  rw [State.recv_next h (.inr hc), heardMsg, if_pos hc]
  rfl

/-- Settles O26. -/
theorem writeMessages : Obligations.WriteMessages :=
  ⟨fun _ _ _ _ _ _ _ _ _ h => State.recv_inOrder h rfl, fun _ _ _ _ _ _ _ _ _ _ _ h => State.recv_inOrder h rfl,
    fun _ _ _ h => State.recv_inOrder h rfl, fun _ _ _ _ _ _ _ _ h => State.recv_inOrder h rfl,
    fun _ _ _ _ _ _ h => State.recv_inOrder h rfl, fun _ _ h hc => State.recv_reserved .wake h hc⟩

/-- Settles O28: a context that is not under reset has its requests answered. -/
theorem readMessages : Obligations.ReadMessages :=
  ⟨fun s x ctx _ _ _ h hr => State.recv_inOrder h (if_neg (by simp [hr])),
    fun s x ctx _ _ _ _ _ _ _ _ h hr => State.recv_inOrder h (if_neg (by simp [hr])),
    fun _ _ _ _ _ _ _ _ h => State.recv_inOrder h rfl⟩

/-- Settles O29. -/
theorem controlMessages : Obligations.ControlMessages :=
  ⟨fun _ _ _ _ _ _ _ _ _ _ _ _ _ h => State.recv_inOrder h rfl, fun _ _ _ _ h => State.recv_inOrder h rfl,
    fun _ _ _ _ _ h => State.recv_inOrder h rfl, fun _ _ _ _ _ h => State.recv_inOrder h rfl, fun _ _ h => State.recv_inOrder h rfl⟩

/-- Settles O30: all eight act as one kind of message, on the posted sequence of their source. -/
theorem shoalMessages : Obligations.ShoalMessages :=
  ⟨fun _ _ _ _ _ _ _ h => State.recv_inOrder h rfl, fun _ _ _ _ _ h => State.recv_inOrder h rfl, fun _ _ _ _ h => State.recv_inOrder h rfl,
    fun _ _ _ _ _ _ _ _ h => State.recv_inOrder h rfl, fun _ _ _ _ _ _ _ h => State.recv_inOrder h rfl,
    fun _ _ _ _ _ h => State.recv_inOrder h rfl, fun _ _ _ _ h => State.recv_inOrder h rfl, fun _ _ _ _ _ _ h => State.recv_inOrder h rfl⟩

/-! ### Traffic that carries a frame tag (R69–R75) -/

section Guard
variable {s : State} {x : Rx} (m : Msg)

/-- Traffic of the frame in progress acts (R69). -/
theorem State.guardFrame_now (h : tagFrame s.frame x.tag = s.frame) : s.guardFrame false x m = s.actTagged x s.frame x.out false m := by
  unfold State.guardFrame
  rw [if_pos (.inl h), h]
  rfl

/-- Traffic of the next frame is held for it (R73). -/
theorem State.guardFrame_next (h : tagFrame s.frame x.tag = s.frame + 1) : s.guardFrame false x m =
    (let t := if s.tickTime (s.frame + 1) ≤ x.at_ + 200 then s.satFld .frmGuardCnt F.frmGuardCnt_COUNT 1 else s
     ({ t with net := { t.net with early := t.net.early ++ [(decide (s.tickTime (s.frame + 1) ≤ x.at_ + 200), x, m)] } } : State)) := by
  have hnot : ¬((s.frame : Int) + 1 = s.frame ∨ (s.frame : Int) + 1 = s.stretchedFrame m) := by
    have hle : s.stretchedFrame m ≤ s.frame := Nat.sub_le _ _
    omega
  unfold State.guardFrame
  rw [h, if_neg hnot, if_pos rfl]
  simp only [decide_eq_true_eq]

/-- Traffic of the frame before that is not one of a stretched frame: neither of the frame in progress nor of a later one. -/
theorem State.guardFrame_before (h : tagFrame s.frame x.tag + 1 = s.frame) (hs : s.stretchedFrame m = s.frame) : s.guardFrame false x m =
    if x.at_ ≤ s.frm.lastTick + 200 then (s.satFld .frmGuardCnt F.frmGuardCnt_COUNT 1).actTagged x (s.frame - 1) x.out true m
    else if s.contribution (s.frame - 1) m then s.actTagged x (s.frame - 1) true false m
    else s.refuseFrame x (s.frame - 1) m := by
  have hf : tagFrame s.frame x.tag = (s.frame : Int) - 1 := by omega
  have hn : ((s.frame : Int) - 1).toNat = s.frame - 1 := by omega
  have hnow : ¬((s.frame : Int) - 1 = s.frame) := by omega
  have hnext : ¬((s.frame : Int) - 1 = s.frame + 1) := by omega
  have hlater : ¬((s.frame : Int) + 1 < s.frame - 1) := by omega
  simp only [State.guardFrame, hs, hf, hn, hnow, hnext, hlater, or_self, if_false, Int.sub_add_cancel, true_and]

end Guard

section Tagged
variable {s : State} {x : Rx} {frame : Nat} {straggler band : Bool}

theorem State.actTagged_gradRecord {bf16 : Bool} {segment first ctx count row key : Nat} {vals : List W32} (h : s.refusing ctx = false) :
    s.actTagged x frame straggler band (.gradRecord bf16 segment first ctx count row key vals)
      = s.gradIn x.src true straggler band ⟨ctx, key, row, segment, first, count, vals⟩ frame :=
  if_neg (by simp [h])

theorem State.actTagged_closeNotice {ctx key count handle fr : Nat} (h : s.refusing ctx = false) :
    s.actTagged x frame straggler band (.closeNotice ctx key count handle fr) = s.closeIn x.src ctx key count handle fr band :=
  if_neg (by simp [h])

/-- A piece of a collective that this package knows of finds room in the staging area (R537). -/
theorem State.actTagged_collective {ctx gid chunk part : Nat} {last : Bool} {data : List Byte} (h : s.refusing ctx = false)
    (hk : s.coll.runs.any (fun r => r.group == gid && r.frame == frame && r.ordinal == chunk / 2 ^ 24) = true) :
    s.actTagged x frame straggler band (.collective ctx gid chunk part last data)
      = s.collectiveIn x.src ctx gid chunk part last data frame straggler band := by
  simp only [State.actTagged, h, hk, Bool.false_eq_true, if_false, Bool.not_true, false_and]

/-- Counting what the guard band took leaves what a context refuses (R72). -/
theorem State.guardCount_refusing (s : State) (ctx : Nat) :
    (s.satFld .frmGuardCnt F.frmGuardCnt_COUNT 1).refusing ctx = s.refusing ctx := by
  have hev := regsEvt_satFld s .frmGuardCnt F.frmGuardCnt_COUNT 1
  have hctxs : (s.satFld .frmGuardCnt F.frmGuardCnt_COUNT 1).ctxs = s.ctxs := by rw [hev]
  have hkey : (Reg.ctxStatus ctx).key = 0x200028 + 0x40 * ctx := rfl
  have hreg := s.satFld_reg_ne (r := .frmGuardCnt) (q := .ctxStatus ctx) F.frmGuardCnt_COUNT 1
    (by simp only [Reg.ofEvents, hkey, Bool.and_eq_false_iff, decide_eq_false_iff_not]; omega)
    (by rw [hkey]; show 0x200028 + 0x40 * ctx ≠ 0x30048; omega)
  simp only [State.refusing, State.ctx, State.bit, State.fld, hctxs, hreg]
  rfl

end Tagged

/-- A message's context without a stretch is in the frame in progress (R51). -/
theorem State.stretchedFrame_none {s : State} {m : Msg} (h : (s.part (s.partOf (s.taggedCtx m))).stretch = 0) : s.stretchedFrame m = s.frame := by
  rw [State.stretchedFrame, h, Nat.sub_zero]

/-- Settles O27: the tag's frame against the frame in progress, and then what the message does. -/
theorem frameTaggedMessages : Obligations.FrameTaggedMessages := by
  refine ⟨fun s x bf16 segment first ctx count row key vals h hf hr => State.recv_inOrder h ?_,
    fun s x ctx key count handle frame h hf hr => State.recv_inOrder h ?_,
    fun s x ctx group chunk part last data h hf hr hk => State.recv_inOrder h ?_,
    fun s x bar release part gen group frame h hf => State.recv_inOrder h ?_,
    fun s x bf16 segment first ctx count row key vals h hf => State.recv_inOrder h ?_,
    fun s x bf16 segment first ctx count row key vals h hf hs =>
      ⟨fun ht hr => State.recv_inOrder h ?_, fun ht => State.recv_inOrder h ?_⟩⟩
  · have hf' : tagFrame (s.taken x 0).frame x.tag = (s.taken x 0).frame := by simpa using hf
    exact (State.guardFrame_now _ hf').trans ((State.actTagged_gradRecord (by simpa using hr)).trans (by rw [State.taken_frame]))
  · have hf' : tagFrame (s.taken x 0).frame x.tag = (s.taken x 0).frame := by simpa using hf
    exact (State.guardFrame_now _ hf').trans (State.actTagged_closeNotice (by simpa using hr))
  · have hf' : tagFrame (s.taken x 0).frame x.tag = (s.taken x 0).frame := by simpa using hf
    exact (State.guardFrame_now _ hf').trans ((State.actTagged_collective (by simpa using hr) (by simpa using hk)).trans
      (by rw [State.taken_frame]))
  · have hf' : tagFrame (s.taken x 3).frame x.tag = (s.taken x 3).frame := by simpa using hf
    exact State.guardFrame_now _ hf'
  · have hf' : tagFrame (s.taken x 0).frame x.tag = (s.taken x 0).frame + 1 := by simpa using hf
    exact (State.guardFrame_next _ hf').trans (by simp only [State.taken_frame, State.taken_tickTime])
  all_goals
    have hf' : tagFrame (s.taken x 0).frame x.tag + 1 = (s.taken x 0).frame := by simpa using hf
    have hs' : (s.taken x 0).stretchedFrame (.gradRecord bf16 segment first ctx count row key vals) = (s.taken x 0).frame :=
      State.stretchedFrame_none (by simpa [State.taggedCtx] using hs)
    refine (State.guardFrame_before _ hf' hs').trans ?_
  · rw [if_pos (by simpa using ht), State.actTagged_gradRecord (by simpa [State.guardCount_refusing] using hr), State.taken_frame]
  · rw [if_neg (by simpa using ht), State.taken_frame]
    rfl

/-! ### Duplicates of posted writes (R213, R214) -/

theorem State.strait_setStrait_same (s : State) (n : Nat) (y : Strait) : (s.setStrait n y).strait n = y := by
  simp [State.strait, State.setStrait, sgetD]

/-- Noting that a flit was taken holds no flit back. -/
theorem Strait.rxv_set_held (y : Strait) (v : Nat) (r : RxVc) (h : r.held = []) : ((({ y with rx := y.rx.set v r } : Strait)).rxv v).held = [] := by
  by_cases hv : v < y.rx.length
  · simp [Strait.rxv, nthD, hv, h]
  · simp [Strait.rxv, nthD, hv]

theorem State.modRx_held (s : State) (n v : Nat) (f : RxVc → RxVc) (hf : ∀ r, (f r).held = r.held) (h : ((s.strait n).rxv v).held = []) :
    (((s.modRx n v f).strait n).rxv v).held = [] := by
  rw [State.modRx, State.strait_setStrait_same]
  exact Strait.rxv_set_held _ _ _ ((hf _).trans h)

theorem State.taken_held {s : State} {x : Rx} {v : Nat} (h : ((s.strait x.strait).rxv v).held = []) :
    (((s.taken x v).strait x.strait).rxv v).held = [] := by
  rw [← s.reach_strait x.at_] at h
  unfold State.taken
  generalize s.reach x.at_ = t at h
  split
  · refine State.modRx_held _ _ _ _ (fun _ => rfl) ?_
    rw [State.strait_setStrait_same]
    exact h
  · exact State.modRx_held _ _ _ _ (fun _ => rfl) h

/-- With no flit held and no buffer owed, nothing follows a message. -/
theorem State.followed_none {s : State} {x : Rx} {vc : Nat} (hh : ((s.strait x.strait).rxv vc).held = []) (ho : s.coll.owed = []) :
    s.followed x vc = s := by
  have hd : s.deliverHeld x.strait vc 64 = s := by
    rw [State.deliverHeld, hh]
    rfl
  rw [State.followed, hd, ite_self, State.releaseOwed, ho]
  rfl

/-- A posted write behind what its source has had applied is a duplicate (R214). -/
theorem State.e2eIn_duplicate {s : State} {src dst e2e : Nat} (m : Msg)
    (h : 2 ^ 31 ≤ (e2e + 2 ^ 32 - (sgetD (s.e2eKey src dst) ({} : E2eRx) s.net.rx).next) % 2 ^ 32) :
    s.e2eIn src dst e2e m = s.satFld .tblWriteDup F.tblWriteDup_COUNT 1 := if_pos h

/-- Settles O55: the count changes registers and event logic only, so nothing is held, owed or written. -/
theorem duplicatePostedWrites : Obligations.DuplicatePostedWrites := by
  intro s x ctx handle e2e addr relaxed add data h hheld howed hdup
  have hcount := regsEvt_satFld (s.taken x 0) .tblWriteDup F.tblWriteDup_COUNT 1
  obtain ⟨hmem, hpend, hhard, -, -, -, -, -, -, hnet, -⟩ := hcount.keeps
  have hcoll : ((s.taken x 0).satFld .tblWriteDup F.tblWriteDup_COUNT 1).coll = (s.taken x 0).coll := by rw [hcount]
  have hkey : sgetD ((s.taken x 0).e2eKey x.src x.dst) ({} : E2eRx) (s.taken x 0).net.rx = sgetD (s.e2eKey x.src x.dst) {} s.net.rx :=
    (State.taken_of (fun u => sgetD (u.e2eKey x.src x.dst) ({} : E2eRx) u.net.rx) (fun _ _ _ => rfl) s x 0).trans
      (by simp only [State.e2eKey, State.ownId, State.reach_hard, State.reach_net]; rfl)
  have hrun : s.receives x 0 (.postedWrite ctx relaxed handle e2e addr add data)
      = .next (s.onDev (fun s => ((s.taken x 0).satFld .tblWriteDup F.tblWriteDup_COUNT 1).followed x 0)) :=
    State.recv_inOrder h (State.e2eIn_duplicate _ (by rw [hkey]; exact hdup))
  have hfollow : ((s.taken x 0).satFld .tblWriteDup F.tblWriteDup_COUNT 1).followed x 0
      = (s.taken x 0).satFld .tblWriteDup F.tblWriteDup_COUNT 1 := by
    refine State.followed_none ?_ (by rw [hcoll, State.taken_coll, howed])
    rw [State.strait, hnet]
    exact State.taken_held hheld
  obtain ⟨⟨hr, -⟩, -⟩ := h
  refine ⟨hrun.trans (State.does_pure hr hfollow ?_ ?_), hmem.trans ?_⟩
  · exact hhard.trans ((State.taken_of State.hard (fun _ _ _ => rfl) s x 0).trans (s.reach_hard x.at_))
  · exact hpend.trans ((State.taken_of State.pending (fun _ _ _ => rfl) s x 0).trans (s.reach_pending x.at_))
  · exact (State.taken_of State.mem (fun _ _ _ => rfl) s x 0).trans (s.reach_mem x.at_)

end Sys2Proof.Machine
end

section
/-! SUPPORT. Frame timing: ticks, boundaries, followers and masters, and the registers of frame timing (ch. 2). -/

namespace Sys2Proof.Machine

/-! ### Writes of registers that are open and not locked -/

/-- A register command on a register without rules of the fuses, locks or package reset (R667, R735, R737). -/
theorem State.writes_open {s : State} {r : Reg} {v : Word} {ok : Bool} {f : State → State} (hk : ok = true) (hr : s.hard.rails = true)
    (ho : s.open_ = true) (hl : s.locked r = false) (h1 : r ≠ .devLock) (h2 : r ≠ .devReset) (h3 : r ≠ .devFwCtrl) (hf : s.regSet r v = f s) :
    s.writes ok r v = .next (s.onDev f) := by
  rw [State.writes, if_pos hk, State.regWrite_open s r v hr (State.takes_open s r ho) hl h1 h2 h3, State.onDev_congr hf]

/-! ### Ticks (R48, R53, R56, R57, R396) -/

theorem tick_enabled {s : State} (temps energies : List Nat) (ho : s.open_ = true) (he : s.bit .frmCtrl F.frmCtrl_ENABLE = true) :
    tick temps energies s = s.tickNow temps energies :=
  if_neg (by simp [ho, he])

theorem setUpTick_disabled {s : State} (temps energies : List Nat) (ho : s.open_ = true) (he : s.bit .frmCtrl F.frmCtrl_ENABLE = false) :
    setUpTick temps energies s = s.setUpNow temps energies :=
  if_neg (by simp [ho, he])

theorem State.l0Drop_all (s : State) : (s.l0Drop (fun _ => true)).l0 = [] := by
  simp [State.l0Drop]

theorem State.tickNow_l0 (s : State) (temps energies : List Nat) : (s.tickNow temps energies).l0 = [] := State.l0Drop_all _

theorem State.setUpNow_l0 (s : State) (temps energies : List Nat) : (s.setUpNow temps energies).l0 = [] := State.l0Drop_all _

section Limit
variable {s : State} {p at_ : Nat} (ht : s.tickTime (s.frame + 1) ≤ at_) (hr : (s.part p).restoring = false)
include ht hr

theorem stretchLimit_unfinished (hs : 3 ≤ (s.part p).stretch) (hu : (s.reach at_).unfinished p = true) :
    stretchLimit p at_ s = (s.reach at_).abandon p := by
  have hnow := Nat.le_trans ht (s.le_reach at_)
  unfold stretchLimit
  exact if_pos ⟨by simpa only [State.reach_tickTime, State.reach_frame] using hnow, by rwa [State.reach_part], hu, by simp [hr]⟩

theorem stepFrameLimit_due (hs : 63 ≤ (s.part p).stepFrames) (hf : (s.part p).stepFirst ≤ s.frame) :
    stepFrameLimit p at_ s = (s.reach at_).abandon p := by
  have hnow := Nat.le_trans ht (s.le_reach at_)
  unfold stepFrameLimit
  exact if_pos ⟨by simpa only [State.reach_tickTime, State.reach_frame] using hnow, by rwa [State.reach_part],
    by rwa [State.reach_part, State.reach_frame], by simp [hr]⟩

end Limit

/-- Settles O7: both ticks end with every L0 line dropped. -/
theorem frameTicks : Obligations.FrameTicks :=
  ⟨fun _ temps energies _ ho he => State.does_eq (tick_enabled temps energies ho he),
    fun _ temps energies _ ho he => State.does_eq (setUpTick_disabled temps energies ho he),
    fun s temps energies => ⟨s.tickNow_l0 temps energies, s.setUpNow_l0 temps energies⟩,
    fun _ _ _ _ hp ht hs hr hu => State.doesIf_eq (decide_eq_true hp) (stretchLimit_unfinished ht hr hs hu),
    fun _ _ _ _ hp ht hs hf hr => State.doesIf_eq (decide_eq_true hp) (stepFrameLimit_due ht hr hs hf)⟩

/-! ### The scheduler tick and HELLO frames (R414, R616) -/

/-- A package in harbour mode whose first stream port is in training and has not heard its peer's HELLO. -/
def fryTrains : State := (State.reset.setFld .devStatus F.devStatus_STAGE 5).setFld (.fryStatus 0) F.fryStatus_STATE 1

theorem fryTrains_tick : (fryTrains.onDev (schedulerTick 0)).outbox.length = 1 := by
  decide +kernel

/-- Without the HELLO of the stream ports nothing leaves this package. -/
theorem fryTrains_silent : (fryTrains.onDev (fun s =>
    (s.reach 0).refillTokens.wakeDelayed.riskTick.pollTick.helloTick.ackTick.ferryMicro.initPass.releaseOwed)).outbox.length = 0 := by
  decide +kernel

/-- Refutes O8: its scheduler tick leaves out the HELLO that a stream port in training sends each microsecond (R616),
between the straits' HELLOs and the acknowledgements; on `fryTrains` the model sends one frame, the statement's effect none. -/
theorem not_phaseBoundaries : ¬ Obligations.PhaseBoundaries := by
  rintro ⟨-, -, -, -, htick⟩
  have heq := htick fryTrains 0 (by decide +kernel) (by decide +kernel)
  have hstate := Host.Outcome.next.inj heq
  have hlen := congrArg (fun t => t.outbox.length) hstate
  rw [fryTrains_silent] at hlen
  exact absurd (fryTrains_tick.symm.trans hlen) (by decide)

/-! ### Followers and masters (R59, R71, R638) -/

/-- Frame timing holds no register. -/
theorem State.fld_frm (s : State) (x : FrameTime) (r : Reg) (f : Fld) : ({ s with frm := x } : State).fld r f = s.fld r f := rfl

section Follower
variable {s : State} {at_ : Nat}

theorem tickHoldover_silent (hm : s.master = false) (ht : s.frm.lastMsg + s.period * 10 ≤ at_)
    (hh : s.bit .frmStatus F.frmStatus_HOLDOVER = false) : tickHoldover at_ s =
      (((s.reach at_).setFld .frmStatus F.frmStatus_HOLDOVER 1).relevel 686).eventW 0x0105 686 none none 0 0 := by
  have hnow := Nat.le_trans ht (s.le_reach at_)
  simp only [tickHoldover, State.reach_master, State.reach_lastMsg, State.reach_period, State.reach_bit, hm, hnow, hh, Bool.not_false,
    and_self, if_true]

theorem holdoverLimit_silent (hm : s.master = false) (ht : s.frm.lastMsg + 100000000 ≤ at_)
    (hs : s.bit .frmStatus F.frmStatus_IN_STEP = true) : holdoverLimit at_ s =
      ({ s.reach at_ with frm := { (s.reach at_).frm with good := 0 } } : State).outOfStep (signedN 32 (s.fld .frmOffset F.frmOffset_E)) := by
  have hnow := Nat.le_trans ht (s.le_reach at_)
  unfold holdoverLimit
  refine (if_pos ⟨by simp [hm], by rwa [State.reach_lastMsg], by rwa [State.reach_bit]⟩).trans ?_
  refine congrArg (fun e => State.outOfStep _ (signedN 32 e)) ?_
  exact (State.fld_frm _ _ _ _).trans (s.reach_fld at_ _ _)

theorem backupMaster_due (hb : s.bit .rasCtrl F.rasCtrl_BACKUP_MASTER = true) (hm : s.master = false)
    (hh : s.bit .frmStatus F.frmStatus_HOLDOVER = true) (ht : s.frm.lastMsg + s.period * 10 + 10000000 ≤ at_) : backupMaster at_ s =
      ((((((s.reach at_).setFld .frmCtrl F.frmCtrl_MASTER 1).setFld .frmStatus F.frmStatus_HOLDOVER 0).setFld .frmStatus F.frmStatus_DEPTH 0).setFld
        .frmStatus F.frmStatus_IN_STEP 1).relevel 686).eventW 0x0107 686 none none 0 0 := by
  have hnow := Nat.le_trans ht (s.le_reach at_)
  unfold backupMaster
  simp only [State.reach_master, State.reach_lastMsg, State.reach_period, State.reach_bit, hb, hm, hh, hnow, Bool.not_false, and_self,
    if_true]

end Follower

/-! ### The registers of frame timing (R38, R56, R76, R77) -/

section Timing
variable {s : State} (hm : s.master = true)
include hm

/-- A master stages a period (R38). -/
theorem State.periodWrite_master (v : Nat) : s.periodWrite v =
    ({ s with frm := { s.frm with stPeriod := some (v % 2 ^ 21) } } : State).setFld .frmStatus F.frmStatus_PENDING 1 := if_pos hm

/-- A master stages its boundaries (R38). -/
theorem State.phaseWrite_master (v : Word) : s.phaseWrite v =
    ({ s with frm := { s.frm with stPhase := some (phaseBits v).toNat } } : State).setFld .frmStatus F.frmStatus_PENDING 1 := by
  refine (if_pos hm).trans ?_
  show State.setFld _ .frmStatus F.frmStatus_PENDING (if (s.frm.stPeriod.isSome || true) = true then 1 else 0) = _
  rw [Bool.or_true]
  rfl

/-- Before the first frame, the tick origin moves with FRM_EPOCH (R56). -/
theorem State.epochWrite_master (v : Word) (hs : s.frm.started = false) :
    s.epochWrite v = { s.setReg .frmEpoch v with frm := { s.frm with ta := v.toNat, na := 0 } } := by
  have hs' : ¬(s.setReg .frmEpoch v).frm.started = true := ne_true_of_eq_false hs
  rw [State.epochWrite, State.unlessFollower, if_pos hm]
  exact if_neg hs'

end Timing

/-- A write of ENABLE alone keeps the role (R76, R77). -/
theorem State.frmWrite_enable {s : State} (on : Bool) (hc : s.hard.cswValid = true) :
    s.frmWrite (F.frmCtrl_ENABLE.put (s.reg .frmCtrl) (if on then 1 else 0)) = s.frmCtrlWrite on s.master := by
  have hen : (F.frmCtrl_ENABLE.get (F.frmCtrl_ENABLE.put (s.reg .frmCtrl) (if on then 1 else 0)) == 1) = on := by
    rw [Fld.get_put _ _ _ (by decide)]
    cases on <;> rfl
  have hmaster : F.frmCtrl_MASTER.get (F.frmCtrl_ENABLE.put (s.reg .frmCtrl) (if on then 1 else 0)) = F.frmCtrl_MASTER.get (s.reg .frmCtrl) :=
    Fld.get_put_ne _ _ _ _ (by decide) (by decide)
  unfold State.frmWrite
  rw [if_pos hc, hen, hmaster]
  rfl

theorem framesWrite_open {s : State} (on : Bool) (hr : s.hard.rails = true) (ho : s.open_ = true) (hl : bitN s.hard.lock.toNat 0 = false)
    (hc : s.hard.cswValid = true) : framesWrite on s = s.onDev (fun s => s.frmCtrlWrite on s.master) :=
  (State.regWrite_open s .frmCtrl _ hr (State.takes_open s _ ho) hl (by decide) (by decide) (by decide)).trans
    (State.onDev_congr (State.frmWrite_enable on hc))

/-- Settles O9. -/
theorem timeKeeping : Obligations.TimeKeeping := by
  refine ⟨fun s at_ _ hm ht hh => State.does_eq (tickHoldover_silent hm ht hh),
    fun s at_ _ hm ht hs => State.does_eq (holdoverLimit_silent hm ht hs),
    fun s at_ _ hb hm hh ht => State.does_eq (backupMaster_due hb hm hh ht),
    fun s v hr ho hl hm => State.writes_open rfl hr ho hl (by decide) (by decide) (by decide) (State.periodWrite_master hm _),
    fun s v hr ho hl hm => State.writes_open rfl hr ho hl (by decide) (by decide) (by decide) (State.phaseWrite_master hm v),
    fun s v hr ho hl hm hs => ?_,
    fun s hr ho hl hc => ⟨congrArg _ (framesWrite_open true hr ho hl hc), congrArg _ (framesWrite_open false hr ho hl hc)⟩⟩
  have hw : s.writes true .frmEpoch v = .next (s.onDev (fun s => s.epochWrite v)) :=
    State.writes_open rfl hr ho hl (by decide) (by decide) (by decide) rfl
  have he := State.epochWrite_master hm v hs
  refine hw.trans (State.does_pure hr he rfl rfl)

end Sys2Proof.Machine
end

section
/-! SUPPORT. Admission: what the front-end makes of the descriptor that a context fetches (R84, R85, R245, R430). -/

namespace Sys2Proof.Machine

section Fetch
variable {s : State} {x : Ctx} {d : Desc} {o : Opc} {f : Fail}

theorem State.fetchOne_version (h : firstFail (versionFails x d) = some f) : s.fetchOne x d = s.refuse x d f := by
  simp only [State.fetchOne, h]

theorem State.fetchOne_tableHeld (h : firstFail (versionFails x d) = none) (ht : s.tableHeld d = true) : s.fetchOne x d = s.holdRing x := by
  simp only [State.fetchOne, h, ht, if_true]

variable (hv : firstFail (versionFails x d) = none) (ht : s.tableHeld d = false) (hc : opcOf d.opcode = some o)
include hv ht hc

/-- A check of codes below 0x15 refuses before anything is read. -/
theorem State.fetchOne_early (hf : (s.translateDesc x d o).refusal x d x.fetched = some f) (hlt : f.1 < 0x15) :
    s.fetchOne x d = (s.translateDesc x d o).refuse x d f := by
  have h : (some f).any (fun f => decide (f.1 < 0x15)) = true := decide_eq_true hlt
  simp only [State.fetchOne, hv, ht, Bool.false_eq_true, if_false, hc, hf, h, if_true]

/-- Any check refuses once what the checks read is here and sound. -/
theorem State.fetchOne_refused (hf : (s.translateDesc x d o).refusal x d x.fetched = some f) (hr : (s.translateDesc x d o).checkable x d o) :
    s.fetchOne x d = (s.translateDesc x d o).refuse x d f := by
  obtain ⟨hw, hb⟩ := hr
  by_cases hlt : f.1 < 0x15
  · exact State.fetchOne_early hv ht hc hf hlt
  · have h : (some f).any (fun f => decide (f.1 < 0x15)) = false := decide_eq_false hlt
    simp only [State.fetchOne, hv, ht, Bool.false_eq_true, if_false, hc, hf, h, hw, hb, List.isEmpty_nil, Bool.not_true]

/-- What passes the checks and has not to wait moves its ring on and enters. -/
theorem State.fetchOne_admits (hf : (s.translateDesc x d o).refusal x d x.fetched = none) (hr : (s.translateDesc x d o).checkable x d o)
    (hh : (s.translateDesc x d o).held x d o = false) :
    s.fetchOne x d = ((s.translateDesc x d o).advance x
      ((s.translateDesc x d o).charges ((s.translateDesc x d o).partOf x.id) d o ((s.translateDesc x d o).workCost x d o)) true).enter
      ((s.translateDesc x d o).admitted x d o) o := by
  obtain ⟨hw, hb⟩ := hr
  simp only [State.fetchOne, hv, ht, Bool.false_eq_true, if_false, hc, hf, hw, hb, hh, List.isEmpty_nil, Bool.not_true, Option.any_none,
    State.admitted]

end Fetch

/-- A descriptor of a major version below 3 fails check 1, which comes before check 2 (R84). -/
theorem firstFail_versionFails {x : Ctx} {d : Desc} (h : d.version / 16 < 3) : firstFail (versionFails x d) = some (0x10, 0) := by
  have h1 : (decide (d.version / 16 < 3) || decide (x.version / 16 < 3)) = true := by rw [decide_eq_true h, Bool.true_or]
  unfold versionFails
  rw [h1]
  cases decide (0x30 < d.version) || decide (0x30 < x.version) <;> rfl

/-- The fetch step of a command whose context fetches: the descriptor is checked. -/
theorem exec_fetchOne {s : State} {k : OpCmd} {ctx : Nat} {x : Ctx} {g : State → State} (h : s.fetches k ctx x)
    (hg : s.fetchOne x (s.nextDesc x) = g s) : exec (k.instr .fetch ctx) s = .next (s.onDev g) := by
  rw [exec_fetch, State.onDev_congr (g := g) ((State.admitCmd_fetch h).trans hg)]

theorem State.readmit_enter {s : State} {o : Op} {c : Opc} (p : Nat) (rest : List Op) (hs : o.stage ≠ .refused) (hc : opcOf o.opcode = some c) :
    s.readmit p o rest = (s.modPart p (fun x => { x with rerun := rest })).enter
      { o with rerun := true, undo := 0, seq := s.nextSeq, frame := s.frame } c := by
  refine (if_neg hs).trans ?_
  split
  next e => exact absurd (hc.symm.trans e) nofun
  next e => cases hc.symm.trans e; rfl

/-- The fetch step of a context with an operation that is to be admitted again: it goes first (R44, R45). -/
theorem State.admitCmd_rerun {s : State} {k : OpCmd} {ctx : Nat} {x : Ctx} {o : Op} {c : Opc} {rest : List Op} (hx : s.ctx? ctx = some x)
    (hr : (s.part (s.partOf ctx)).rerun = o :: rest) (ho : o.ctx = ctx) (hk : o.desc.cmd = k) (hp : s.partTakes (s.partOf ctx) = true)
    (hc : opcOf o.opcode = some c) (hs : o.stage ≠ .refused) :
    s.admitCmd k ctx = (s.modPart (s.partOf ctx) (fun x => { x with rerun := rest })).enter
      { o with rerun := true, undo := 0, seq := s.nextSeq, frame := s.frame } c := by
  simp only [State.admitCmd, hx, hr]
  exact (if_pos ⟨ho, hk, hp⟩).trans (State.readmit_enter _ _ hs hc)

/-- Settles O10. -/
theorem operationsAdmitted : Obligations.OperationsAdmitted := by
  refine ⟨?admits, ?version, ?refused, ?held, ?rerun, fun x d h => firstFail_versionFails h⟩
  case admits =>
    rintro k s ctx x o h ⟨hv, ht⟩ hc hr hf hh
    exact exec_fetchOne h (State.fetchOne_admits hv ht hc hf hr hh)
  case version =>
    intro k s ctx x f h hv
    exact exec_fetchOne h (State.fetchOne_version hv)
  case refused =>
    rintro k s ctx x o f h ⟨hv, ht⟩ hc hf (hlt | hr)
    · exact exec_fetchOne h (State.fetchOne_early hv ht hc hf hlt)
    · exact exec_fetchOne h (State.fetchOne_refused hv ht hc hf hr)
  case held =>
    intro k s ctx x h hv ht
    exact exec_fetchOne h (State.fetchOne_tableHeld hv ht)
  case rerun =>
    intro k s ctx x o c rest _ hx hr ho hk hp hc hs
    rw [exec_fetch]
    exact congrArg Host.Outcome.next (State.onDev_congr (State.admitCmd_rerun hx hr ho hk hp hc hs))

end Sys2Proof.Machine
end

section
/-! SUPPORT. Writes of the set-up registers: locks, and fields by their access codes (R6, R11, R725–R737). -/

namespace Sys2Proof.Machine

/-! ### Accesses of eight bytes -/

section Bar
variable (s : State) {a : Nat} (x : Nat) {r : Reg}

theorem State.barWrite_aligned (h : a % 8 = 0) : s.barWrite a 8 x = s.access a 8 (x % 2 ^ 64) :=
  if_pos ⟨.inr rfl, h⟩

theorem State.barWrite_misaligned (h : a % 8 ≠ 0) :
    s.barWrite a 8 x = s.onDev (fun s => s.satFld .devAccess F.devAccess_BAD_SIZE 1) := by
  unfold State.barWrite
  rw [if_neg (fun h' => h h'.2), if_neg (fun h' => absurd h'.1 (by decide))]

variable (hm : msixAddr a = false) (hi : imageAddr a = false) (ha : a % 8 = 0)
include hm hi ha

theorem State.access_reg (hr : Reg.ofAddr a = some r) : s.access a 8 x = s.regWrite r (BitVec.ofNat 64 x) := by
  have hal : a / 8 * 8 = a := Nat.div_mul_cancel (Nat.dvd_of_mod_eq_zero ha)
  simp only [State.access, hm, hi, hal, hr, Bool.false_eq_true, if_false, if_true]

theorem State.access_unmapped (hr : Reg.ofAddr a = none) :
    s.access a 8 x = s.onDev (fun s => s.satFld .devAccess F.devAccess_UNMAPPED 1) := by
  have hal : a / 8 * 8 = a := Nat.div_mul_cancel (Nat.dvd_of_mod_eq_zero ha)
  simp only [State.access, hm, hi, hal, hr, Bool.false_eq_true, if_false]

theorem State.barWrite_reg (hr : Reg.ofAddr a = some r) : s.barWrite a 8 x = s.regWrite r (BitVec.ofNat 64 (x % 2 ^ 64)) :=
  (s.barWrite_aligned x ha).trans (s.access_reg _ hm hi ha hr)

end Bar

/-! ### Locks -/

theorem State.regWrite_locked (s : State) (r : Reg) (v : Word) (h : s.hard.rails = true) (ht : s.takes r = true) (hl : s.locked r = true)
    (hr : r ≠ .rasShoalCtrl) : s.regWrite r v = s.onDev (fun s => s.satFld .devAccess F.devAccess_LOCKED 1) := by
  have hon : ¬ ((!s.hard.rails) = true ∨ (!s.takes r) = true) := by simp [h, ht]
  unfold State.regWrite
  rw [if_neg hon, if_pos hl]
  exact State.onDev_congr (if_neg fun h' => hr h'.1)

theorem Fld.get_lt (f : Fld) (v : Word) : f.get v < 2 ^ f.w := Nat.mod_lt _ (Nat.two_pow_pos _)

/-- A saturating count of a register that no event counts in. -/
theorem State.fld_satFld (s : State) {r : Reg} {f : Fld} (n : Nat) (hr : r.apart = false) (hq : r.ofEvents = false) (hw : f.lo + f.w ≤ 64) :
    (s.satFld r f n).fld r f = min (s.fld r f + n) (2 ^ f.w - 1) := by
  unfold State.satFld
  rw [(regsKept_saturated _ _ _ _).fld hq]
  unfold State.satRaw
  rw [State.fld_setFld _ _ _ _ hr hw]
  exact Nat.mod_eq_of_lt (by have := Nat.two_pow_pos f.w; unfold satAdd; omega)

/-- Settles O53. -/
theorem lockedRegisters : Obligations.LockedRegisters := by
  refine ⟨fun s a x b r h hm hi ha hr ht hb hbit hne => ?_, fun s n => s.fld_satFld n rfl rfl (by decide)⟩
  have hl : s.locked r = true := by rw [State.locked, hb]; exact hbit
  exact congrArg Host.Outcome.next ((s.barWrite_reg x hm hi ha hr).trans (s.regWrite_locked r _ h ht hl hne))

/-! ### Fields of a register -/

/-- Whether two fields share no bit. -/
def Fld.apart (f g : Fld) : Bool := decide (f.lo + f.w ≤ g.lo) || decide (g.lo + g.w ≤ f.lo)

theorem Fld.apart_iff {f g : Fld} : f.apart g = true ↔ f.lo + f.w ≤ g.lo ∨ g.lo + g.w ≤ f.lo := by
  simp [Fld.apart]

/-- Whether fields lie within a register, and no two share a bit. -/
def fieldsLaid : List Fld → Bool
  | [] => true
  | f :: l => decide (f.lo + f.w ≤ 64) && l.all f.apart && fieldsLaid l

theorem fieldsLaid_cons {f : Fld} {l : List Fld} :
    fieldsLaid (f :: l) = true ↔ f.lo + f.w ≤ 64 ∧ (∀ g ∈ l, f.lo + f.w ≤ g.lo ∨ g.lo + g.w ≤ f.lo) ∧ fieldsLaid l = true := by
  simp [fieldsLaid, Fld.apart_iff, and_assoc]

/-- The register tables lay out every register so. -/
theorem Reg.fields_laid (r : Reg) : fieldsLaid r.fields = true := by
  cases r <;> rfl

/-- What a plain write leaves in a field that held `old`, by its access code. -/
def Fld.written (r : Reg) (v : Word) (f : Fld) (old : Nat) : Nat :=
  match f.acc with
  | .rw => if fieldInRange r f (f.get v) then fieldStored r f (f.get v) % 2 ^ f.w else old
  | .w1c => bitsN old 0 f.w - (old &&& f.get v)
  | _ => old

/-- The step of a plain write for one field. -/
def State.fieldWrite (r : Reg) (v : Word) (s : State) (f : Fld) : State :=
  match f.acc with
  | .rw => if fieldInRange r f (f.get v) then s.setFld r f (fieldStored r f (f.get v)) else s
  | .w1c => s.setFld r f (bitsN (s.fld r f) 0 f.w - (s.fld r f &&& f.get v))
  | _ => s

section Fields
variable {r : Reg} {v : Word} {f g : Fld} (hr : r.apart = false)
include hr

theorem State.fieldWrite_same (s : State) (hf : f.lo + f.w ≤ 64) : (State.fieldWrite r v s f).fld r f = f.written r v (s.fld r f) := by
  unfold State.fieldWrite Fld.written
  split
  · split
    · exact State.fld_setFld _ _ _ _ hr hf
    · rfl
  · rw [State.fld_setFld _ _ _ _ hr hf]
    exact Nat.mod_eq_of_lt (Nat.lt_of_le_of_lt (Nat.sub_le _ _) (Nat.mod_lt _ (Nat.two_pow_pos _)))
  · rfl

theorem State.fieldWrite_other (s : State) (hf : f.lo + f.w ≤ 64) (hd : f.lo + f.w ≤ g.lo ∨ g.lo + g.w ≤ f.lo) :
    (State.fieldWrite r v s f).fld r g = s.fld r g := by
  unfold State.fieldWrite
  split
  · split
    · exact State.fld_setFld_other _ _ _ _ _ hr hf hd
    · rfl
  · exact State.fld_setFld_other _ _ _ _ _ hr hf hd
  · rfl

theorem State.fieldWrites_other (l : List Fld) (s : State) (hl : fieldsLaid l = true) (hd : ∀ f ∈ l, f.lo + f.w ≤ g.lo ∨ g.lo + g.w ≤ f.lo) :
    (s.each l (State.fieldWrite r v)).fld r g = s.fld r g := by
  induction l generalizing s with
  | nil => rfl
  | cons f l ih =>
    obtain ⟨hw, -, hl⟩ := fieldsLaid_cons.mp hl
    obtain ⟨hf, hd⟩ := List.forall_mem_cons.mp hd
    exact (ih _ hl hd).trans (State.fieldWrite_other hr s hw hf)

/-- Each of the fields that share no bit takes what its own access code gives it. -/
theorem State.fieldWrites_mem (l : List Fld) (s : State) (hl : fieldsLaid l = true) (hg : g ∈ l) :
    (s.each l (State.fieldWrite r v)).fld r g = g.written r v (s.fld r g) := by
  induction l generalizing s with
  | nil => cases hg
  | cons f l ih =>
    obtain ⟨hw, hd, htl⟩ := fieldsLaid_cons.mp hl
    rcases List.mem_cons.mp hg with rfl | hg
    · exact (State.fieldWrites_other hr l _ htl fun h hm => (hd h hm).symm).trans (State.fieldWrite_same hr s hw)
    · refine (ih _ htl hg).trans ?_
      rw [State.fieldWrite_other hr s hw (hd g hg)]

end Fields

theorem State.plainWrite_eq (s : State) (r : Reg) (v : Word) : s.plainWrite r v = s.each r.fields (State.fieldWrite r v) := rfl

/-- A plain write gives each field of a register what its access code says (R6, R11). -/
theorem State.fld_plainWrite (s : State) {r : Reg} (v : Word) {f : Fld} (hf : f ∈ r.fields) (hr : r.apart = false) :
    (s.plainWrite r v).fld r f = f.written r v (s.fld r f) := by
  rw [State.plainWrite_eq]
  exact State.fieldWrites_mem hr _ s r.fields_laid hf

/-- Settles O54. -/
theorem fieldsByAccess : Obligations.FieldsByAccess := by
  intro s r v f hf hne
  have hr : r.apart = false := by simpa [Reg.apart, and_assoc] using hne
  rw [s.fld_plainWrite v hf hr]
  refine ⟨?_, ?_, ?_, ?_⟩
  · rintro (h | h | h) <;> simp only [Fld.written, h]
  · intro h
    simp only [Fld.written, h]
  · intro h hin hst
    simp only [Fld.written, h, hin, if_true, hst, Nat.mod_eq_of_lt (f.get_lt v)]
  · intro h hin
    simp only [Fld.written, h, hin, Bool.false_eq_true, if_false]

/-! ### The commands -/

theorem State.regWrite_devLock (s : State) (v : Word) (h : s.hard.rails = true) : s.regWrite .devLock v = s.lockWrite v := by
  have hearly : Reg.early .devLock = true := rfl
  have hon : ¬ ((!s.hard.rails) = true ∨ (!s.takes .devLock) = true) := by simp [h, State.takes, hearly]
  exact (if_neg hon).trans (if_neg (nofun : ¬ false = true))

/-- The eight moderation registers of a virtual function in service. -/
theorem vfBar0Write_moderation {s : State} {fn vec : Nat} (x : Nat) (ho : s.open_ = true) (h0 : fn ≠ 0) (h1 : fn ≤ 255)
    (he : s.host.vfEnable = true) (hn : fn ≤ s.host.numVfs) (hv : vec < 8) :
    vfBar0Write fn (0x200 + 8 * vec) 8 x s = s.plainWrite (.vfMsixMod fn vec) (BitVec.ofNat 64 x) := by
  have hok : ((8 == 4 || 8 == 8) && (0x200 + 8 * vec) % 8 == 0) = true := by simp
  have hvec : (0x200 + 8 * vec - 0x200) / 8 = vec := by omega
  unfold vfBar0Write
  rw [if_neg (by rw [ho, he, hok]; simp; omega), if_neg (by omega), if_pos (by omega), hvec]
  rfl

/-- Settles O40. -/
theorem registerCommands : Obligations.RegisterCommands := by
  refine ⟨fun s v h => congrArg Host.Outcome.next (s.regWrite_devLock v h), fun s a x r hm hi ha hr hx => ?_,
    fun s a x _ hm hi ha hr => congrArg Host.Outcome.next ((s.barWrite_aligned x ha).trans (s.access_unmapped _ hm hi ha hr)),
    fun s a x _ ha => congrArg Host.Outcome.next (s.barWrite_misaligned x ha),
    fun s fn vec x _ ho h0 h1 he hn hv => State.does_eq (vfBar0Write_moderation x ho h0 h1 he hn hv)⟩
  exact congrArg Host.Outcome.next ((s.barWrite_reg x hm hi ha hr).trans (by rw [Nat.mod_eq_of_lt hx]))

end Sys2Proof.Machine
end

section
/-! SUPPORT. Power, resets, clocks, and the steps of bring-up (ch. 19, R743, R745, R753). -/

namespace Sys2Proof.Machine

/-! ### What a cold start keeps -/

/-- Between two states nothing of the work in hand has changed: frames, contexts, operations, partitions, the outbox. -/
structure State.WorkKept (s t : State) : Prop where
  frm : t.frm = s.frm
  ctxs : t.ctxs = s.ctxs
  ops : t.ops = s.ops
  parts : t.parts = s.parts
  outbox : t.outbox = s.outbox

theorem State.WorkKept.refl (s : State) : s.WorkKept s := ⟨rfl, rfl, rfl, rfl, rfl⟩

theorem State.WorkKept.trans {s t u : State} (h : s.WorkKept t) (g : t.WorkKept u) : s.WorkKept u :=
  ⟨g.frm.trans h.frm, g.ctxs.trans h.ctxs, g.ops.trans h.ops, g.parts.trans h.parts, g.outbox.trans h.outbox⟩

theorem State.RegsEvt.workKept {s t : State} (h : s.RegsEvt t) : s.WorkKept t := by
  rw [h]; exact ⟨rfl, rfl, rfl, rfl, rfl⟩

theorem workKept_foldl {α : Type} (f : State → α → State) (hf : ∀ (s : State) a, s.WorkKept (f s a)) (l : List α) (s : State) :
    s.WorkKept (l.foldl f s) := by
  induction l generalizing s with
  | nil => exact .refl s
  | cons a l ih => exact (hf s a).trans (ih _)

theorem State.WorkKept.ite {s t u : State} {c : Prop} [Decidable c] (h : s.WorkKept t) (g : s.WorkKept u) :
    s.WorkKept (if c then t else u) := by
  split
  · exact h
  · exact g

theorem workKept_eventW (s : State) (typ src : Nat) (c p : Option Nat) (d0 d : Nat) : s.WorkKept (s.eventW typ src c p d0 d) :=
  (regsEvt_eventW s typ src c p d0 d).workKept

theorem workKept_hard (s : State) (h : Hard) : s.WorkKept { s with hard := h } := ⟨rfl, rfl, rfl, rfl, rfl⟩

theorem workKept_boot (s : State) (b : BootSt) : s.WorkKept { s with boot := b } := ⟨rfl, rfl, rfl, rfl, rfl⟩

theorem workKept_readShell (s : State) (k : Nat) (img : List Byte) : s.WorkKept (s.readShell k img) := by
  unfold State.readShell
  extract_lets img boot noted valid typ len bad told timed
  have htold : s.WorkKept told := (workKept_boot s _).trans (regsEvt_setReg noted _ _).workKept
  have htimed : told.WorkKept timed := .ite (regsEvt_setFld told _ _ _).workKept (.refl told)
  exact htold.trans (htimed.trans (.ite (workKept_eventW _ _ _ _ _ _ _) (.ite (workKept_eventW _ _ _ _ _ _ _) (.refl _))))

/-- The package at its reset values, with what a cold start keeps and before the shells are read. -/
def State.bare (s : State) : State :=
  { State.reset with
    pending := s.pending, hard := { s.hard with lock := 0 }, fresh := s.fresh, outbox := s.outbox
    mem := s.mem.filter (fun c => decide (2 ^ 64 ≤ c.1))
    host := { ({} : HostSt) with epoch := s.host.epoch }
    boot := { shells := s.boot.shells, flash := s.boot.flash, cells := s.boot.cells } }

/-- No work is in hand. -/
structure State.Idle (s : State) : Prop where
  frm : s.frm = {}
  ctxs : s.ctxs = []
  ops : s.ops = []
  parts : s.parts = []

theorem State.WorkKept.idle {s t : State} (h : s.WorkKept t) (hs : s.Idle) : t.Idle :=
  ⟨h.frm.trans hs.frm, h.ctxs.trans hs.ctxs, h.ops.trans hs.ops, h.parts.trans hs.parts⟩

theorem State.bare_idle (s : State) : s.bare.Idle := ⟨rfl, rfl, rfl, rfl⟩

theorem State.cold_workKept (s : State) : s.bare.WorkKept s.cold := by
  have hshells := workKept_foldl (fun (r : State) (k : Nat × List Byte) => r.readShell k.1 k.2) (fun r k => workKept_readShell r k.1 k.2)
    s.boot.shells (s.bare.setReg .cswStatus (s.reg .cswStatus))
  unfold State.cold
  extract_lets r0 r1 r2
  exact (regsEvt_setReg s.bare _ _).workKept.trans (hshells.trans ⟨rfl, rfl, rfl, rfl, rfl⟩)

/-- No work is in hand after a cold start. -/
theorem State.cold_idle (s : State) : s.cold.Idle := s.cold_workKept.idle s.bare_idle

theorem State.cold_outbox (s : State) : s.cold.outbox = s.outbox := s.cold_workKept.outbox

theorem workKept_railFault (s : State) (v : Bool) : s.cold.WorkKept (railFault v s) := by
  unfold railFault
  generalize s.cold = c
  cases v <;> exact ⟨rfl, rfl, rfl, rfl, rfl⟩

/-- A package reset starts cold once its dies are rebuilt. -/
theorem State.packageReset_idle (s : State) : s.packageReset.Idle := by
  have h : ((s.each (List.range 8) State.rebuildDie).reefStore).cold.WorkKept s.packageReset :=
    workKept_foldl (fun (s : State) (x : Nat × Nat) => (s.setFerry x.2 { restart := true }).setFld (.fryStatus x.2) F.fryStatus_EPOCH (x.1 + 1))
      (fun _ _ => ⟨rfl, rfl, rfl, rfl, rfl⟩) _ _
  exact h.idle (State.cold_idle _)

theorem State.restart_idle (s : State) : s.restart.Idle := by
  have h := s.packageReset_idle
  unfold State.restart
  generalize s.packageReset = t at h
  exact ⟨h.frm, h.ctxs, h.ops, h.parts⟩

/-- In service a die restarts. -/
theorem dieResetCmd_service {s : State} {d at_ : Nat} (stat : Nat) (cores : List Nat) (hd : d < 8) (hs : 5 ≤ s.stage) :
    dieResetCmd d stat cores at_ s = (s.reach at_).dieRestart d stat cores := by
  have hs' : 5 ≤ (s.reach at_).stage := (State.reach_stage s at_).symm ▸ hs
  exact (if_pos hd).trans ((if_neg (by omega)).trans (if_neg (by omega)))

theorem powerGood_off {s : State} (h : s.hard.rails = false) :
    powerGood s = { s.cold with hard := { s.cold.hard with rails := true, vcsw := true } } :=
  if_neg (by rw [h]; decide)

theorem powerGood_hard {s : State} (h : s.hard.rails = false) :
    (powerGood s).hard = { s.hard with lock := 0, rails := true, vcsw := true } := by
  rw [powerGood_off h, State.cold_hard]

theorem workKept_powerGood {s : State} (h : s.hard.rails = false) : s.cold.WorkKept (powerGood s) := by
  rw [powerGood_off h]
  exact workKept_hard _ _

/-- Without a rail nothing runs; the supply of the causeway alone keeps an address (R745). -/
theorem railFault_hard (s : State) (v : Bool) :
    (railFault v s).hard.rails = false ∧ (railFault v s).hard.lock = 0 ∧ (railFault v s).hard.svn = s.hard.svn
      ∧ (railFault v s).hard.cswValid = (s.hard.vcsw && !v && s.hard.cswValid) := by
  cases v <;> exact ⟨rfl, rfl, rfl, rfl⟩

theorem railFault_pending (s : State) (v : Bool) : (railFault v s).pending = s.pending := by
  cases v <;> rfl

theorem powerGood_pending {s : State} (h : s.hard.rails = false) : (powerGood s).pending = s.pending := by
  rw [powerGood_off h]; rfl

/-- Settles O2. -/
theorem powerAndReset : Obligations.PowerAndReset := by
  refine ⟨fun s h => ?powerGood, fun s v => ?railFault, fun s h => ?packageReset, fun s d stat cores at_ _ hd hs =>
    State.doesIf_eq (decide_eq_true hd) (dieResetCmd_service stat cores hd hs)⟩
  case powerGood =>
    have hw := workKept_powerGood h
    have ⟨hfrm, hctxs, hops, hparts⟩ := hw.idle s.cold_idle
    exact ⟨powerGood s, rfl, powerGood_hard h, powerGood_pending h, hfrm, hctxs, hops, hparts, hw.outbox.trans s.cold_outbox⟩
  case railFault =>
    have hw := workKept_railFault s v
    have ⟨hfrm, hctxs, hops, hparts⟩ := hw.idle s.cold_idle
    obtain ⟨hrails, hlock, hsvn, hvalid⟩ := railFault_hard s v
    exact ⟨railFault v s, rfl, hrails, hlock, hsvn, hvalid, railFault_pending s v, hfrm, hctxs, hops, hparts, hw.outbox.trans s.cold_outbox⟩
  case packageReset =>
    have ⟨hfrm, hctxs, hops, hparts⟩ := s.restart_idle
    exact ⟨s.restart, congrArg Host.Outcome.next (if_pos h), rfl, rfl, hfrm, hctxs, hops, hparts⟩

end Sys2Proof.Machine
end

section
/-! SUPPORT. Clocks (R671–R677), and bring-up's later steps, firmware and shells (R667, R670, R679, R680, R695, R753). -/

namespace Sys2Proof.Machine

/-! ### Clocks -/

theorem State.fld_boot (s : State) (b : BootSt) (r : Reg) (f : Fld) : ({ s with boot := b } : State).fld r f = s.fld r f := by
  unfold State.fld
  cases r <;> rfl

theorem State.hard_boot (s : State) (b : BootSt) : ({ s with boot := b } : State).hard = s.hard := rfl

theorem State.pending_boot (s : State) (b : BootSt) : ({ s with boot := b } : State).pending = s.pending := rfl

/-- A window that passes in service, on the crystal: it is counted. -/
theorem crystalWindow_passes {s : State} {count at_ : Nat} (hok : windowOk count false = true) (href : s.fld .clkStatus F.clkStatus_REF = 1) :
    crystalWindow count false at_ s = { ((s.reach at_).setFld .clkXtal F.clkXtal_COUNT count).setFld .clkStatus F.clkStatus_XTAL_OK 1
      with boot := { s.boot with good := s.boot.good + 1 } } := by
  have hboot : (s.reach at_).boot = s.boot := State.reach_boot s at_
  have href' : (s.reach at_).fld .clkStatus F.clkStatus_REF = 1 := (State.reach_fld s at_ _ _).trans href
  unfold crystalWindow
  generalize s.reach at_ = u at hboot href'
  have hset : ((u.setFld .clkXtal F.clkXtal_COUNT count).setFld .clkStatus F.clkStatus_XTAL_OK 1).fld .clkStatus F.clkStatus_REF = 1 := by
    rw [State.fld_setFld_other _ _ _ _ _ rfl (by decide) (by decide), State.fld_setFld_ne _ _ _ _ _ _ (by decide)]
    exact href'
  simp only [hok, if_true]
  rw [← hboot, State.setFld_boot, State.setFld_boot]
  refine if_neg fun h0 => ?_
  rw [State.fld_boot] at h0
  exact absurd (hset.symm.trans h0) (by decide)

theorem clockHoldoverLimit_due {s : State} {t0 at_ : Nat} (ht : s.boot.holdSince = some t0) (href : s.fld .clkStatus F.clkStatus_REF = 4)
    (hdue : t0 + 10000000 ≤ at_) (hs : s.stage ≠ 1) :
    clockHoldoverLimit at_ s = (((s.reach at_).interruptAll 0).setStage 1).lightsOff at_ := by
  have hnow : t0 + 10000000 ≤ (s.reach at_).frm.now := Nat.le_trans hdue (State.le_reach s at_)
  simp only [clockHoldoverLimit, State.reach_boot, ht, State.reach_fld, State.reach_stage]
  exact if_pos ⟨href, hnow, hs⟩

/-- The PLL of a region that has not been withheld before. -/
theorem pllFail_core {s : State} {unit at_ : Nat} (hu : unit < 128) (hw : unit ∉ s.boot.withheld) :
    pllFail 0 unit at_ s =
      ((({ s.reach at_ with boot := { s.boot with safe := insertNew (0, unit) s.boot.safe } } : State).satFld .clkOsc F.clkOsc_PLL_FAIL 1).eventW
        0x0804 753 none none 0 unit).regionFault unit := by
  have hboot : (s.reach at_).boot = s.boot := State.reach_boot s at_
  unfold pllFail
  generalize s.reach at_ = u at hboot
  let v : State := { u with boot := { u.boot with safe := insertNew (0, unit) u.boot.safe } }
  have hev : v.RegsEvt ((v.satFld .clkOsc F.clkOsc_PLL_FAIL 1).eventW 0x0804 753 none none 0 unit) :=
    (regsEvt_satFld v _ _ _).trans (regsEvt_eventW _ _ _ _ _ _ _)
  obtain ⟨-, -, -, -, -, -, -, hkeep, -⟩ := hev.keeps
  have hout : unit ∉ ((v.satFld .clkOsc F.clkOsc_PLL_FAIL 1).eventW 0x0804 753 none none 0 unit).boot.withheld := by
    rw [hkeep, show v.boot.withheld = u.boot.withheld from rfl, hboot]; exact hw
  rw [← hboot]
  exact (if_pos (.inl ⟨rfl, hu⟩)).trans ((if_pos rfl).trans (if_neg hout))

/-- Settles O3. -/
theorem clocks : Obligations.Clocks := by
  refine ⟨fun s count at_ hr hok href => State.does_pure hr (crystalWindow_passes hok href) ?_ ?_,
    fun s t0 at_ _ ht href hdue hs => State.does_eq (clockHoldoverLimit_due ht href hdue hs),
    fun s hr hb hg href => State.does_pure hr (if_pos ⟨hb, hg, href⟩) rfl rfl,
    fun s kind unit hr => State.does_pure hr rfl rfl rfl,
    fun s unit at_ _ hu hw => State.does_eq (pllFail_core hu hw)⟩
  · rw [State.hard_boot, State.setFld_hard, State.setFld_hard, State.reach_hard]
  · rw [State.pending_boot, State.setFld_pending, State.setFld_pending, State.reach_pending]

/-! ### Service -/

theorem harbourModeOpen_due {s : State} (dies cores regions : List Nat) (at_ : Nat) (h : s.stage = 3 ∨ s.stage = 4) :
    harbourModeOpen dies cores regions at_ s = (s.reach at_).openHarbour dies cores regions :=
  if_neg (by rw [State.reach_stage]; omega)

theorem State.reach_settled (s : State) (t : Nat) (dark : List Nat) : (s.reach t).settled dark = s.settled dark := by
  simp only [State.settled, State.strUp, State.fryUp, State.strState, State.fryState, State.reach_bit, State.reach_fld]

theorem fullServiceOpen_settled {s : State} {dark : List Nat} (at_ : Nat) (h5 : s.stage = 5) (hs : s.settled dark = true) :
    fullServiceOpen dark at_ s = if s.bit .frmCtrl F.frmCtrl_ENABLE
      then { s.reach at_ with boot := { s.boot with fullDue := true } } else (s.reach at_).openFull := by
  unfold fullServiceOpen
  rw [← State.reach_bit s at_, ← State.reach_boot s at_]
  exact if_pos ⟨(State.reach_stage s at_).trans h5, (State.reach_settled s at_ dark).trans hs⟩

/-- A write of DEV_FW_CTRL, which no stage keeps out. -/
theorem State.regWrite_devFwCtrl {s : State} (v : Word) (hr : s.hard.rails = true) (hl : bitN s.hard.lock.toNat 5 = false) :
    s.regWrite .devFwCtrl v = s.fwCtrlWrite v := by
  have hearly : Reg.early .devFwCtrl = true := rfl
  have hon : ¬ ((!s.hard.rails) = true ∨ (!s.takes .devFwCtrl) = true) := by simp [hr, State.takes, hearly]
  have hlock : ¬ s.locked .devFwCtrl = true := by rw [show s.locked .devFwCtrl = false from hl]; decide
  exact (if_neg hon).trans (if_neg hlock)

theorem State.fwUpdate_running {s : State} (h3 : 3 ≤ s.stage) (h7 : s.stage ≠ 7) :
    s.fwUpdate = if s.stagedOk
      then (s.storeImage (1 - s.fld .devFw F.devFw_SLOT) s.stagedHead s.stagedBody).setFld .devFwCtrl F.devFwCtrl_RESULT 2
      else s.setFld .devFwCtrl F.devFwCtrl_RESULT 3 :=
  if_neg (by omega)

/-! ### Shells -/

theorem shellRemoved_present {s : State} {k : Nat} (at_ : Nat) (hk : k < 38) (h : s.bit (.devShell k) F.devShell_PRESENT = true) :
    shellRemoved k at_ s =
      ({ (s.reach at_).setReg (.devShell k) (Reg.devShell k).reset with boot := { s.boot with shells := sdel k s.boot.shells } } : State).portGone
        k at_ := by
  unfold shellRemoved
  rw [← State.reach_boot s at_]
  have hon : ¬ (38 ≤ k ∨ (!(s.reach at_).bit (.devShell k) F.devShell_PRESENT) = true) := by
    rw [State.reach_bit, h]
    simp [hk]
  rw [← State.setReg_boot (s.reach at_) (.devShell k) (Reg.devShell k).reset]
  exact if_neg hon

/-- Settles O4. -/
theorem serviceAndFirmware : Obligations.ServiceAndFirmware := by
  refine ⟨fun s dies cores regions at_ _ h => State.does_eq (harbourModeOpen_due dies cores regions at_ h),
    fun s dark at_ _ h5 hs => State.does_eq (fullServiceOpen_settled at_ h5 hs), fun s hr hl h3 h7 => ?update, fun s hr hl h3 h7 => ?commit,
    fun s k image at_ _ hk => State.doesIf_eq (decide_eq_true hk) (if_pos hk),
    fun s k at_ _ hk h => State.doesIf_eq (decide_eq_true hk) (shellRemoved_present at_ hk h)⟩
  case update =>
    have hup : F.devFwCtrl_UPDATE.get (F.devFwCtrl_UPDATE.put 0 1) = 1 := by decide
    have hsvn : F.devFwCtrl_COMMIT_SVN.get (F.devFwCtrl_UPDATE.put 0 1) ≠ 1 := by decide
    refine congrArg Host.Outcome.next ((State.regWrite_devFwCtrl _ hr hl).trans ?_)
    unfold State.fwCtrlWrite
    rw [if_pos hup, if_neg hsvn]
    exact State.onDev_congr (State.fwUpdate_running h3 h7)
  case commit =>
    have hup : F.devFwCtrl_UPDATE.get (F.devFwCtrl_COMMIT_SVN.put 0 1) ≠ 1 := by decide
    have hsvn : F.devFwCtrl_COMMIT_SVN.get (F.devFwCtrl_COMMIT_SVN.put 0 1) = 1 := by decide
    refine congrArg Host.Outcome.next ((State.regWrite_devFwCtrl _ hr hl).trans ?_)
    unfold State.fwCtrlWrite
    rw [if_neg hup, if_pos hsvn]
    exact if_pos ⟨h3, h7⟩

end Sys2Proof.Machine
end

section
/-! SUPPORT. Cells of the management ring that arrive for this package, and its light (R454, R685–R692). -/

namespace Sys2Proof.Machine

/-! ### A cell that is counted -/

section ForMe
variable {s : State} {h : CellHdr} (hme : s.cellForMe h = true)
include hme

theorem State.cellIn_forMe (typ : Nat) (payload : List Byte) : s.cellIn typ h payload = (true, s.cellCounted) := by
  simp only [State.cellForMe, Bool.and_eq_true, Bool.not_eq_true'] at hme
  obtain ⟨⟨⟨hv, hcrc⟩, hsrc⟩, hdst⟩ := hme
  simp only [State.cellIn, hv, hcrc, hsrc, hdst, Bool.not_true, Bool.false_eq_true, if_false, if_true]
  rfl

theorem State.cellForMe_vcsw : s.hard.vcsw = true := by
  simp only [State.cellForMe, Bool.and_eq_true] at hme
  exact hme.1.1.1

theorem State.cellCounted_eq : s.cellCounted = s.wrapFld .cswCnt F.cswCnt_CELLS 1 :=
  State.onCsw_eq _ s (State.cellForMe_vcsw hme) rfl rfl

theorem State.cellCounted_fld {r : Reg} (f : Fld) (hr : r.key ≠ Reg.cswCnt.key) : s.cellCounted.fld r f = s.fld r f := by
  rw [State.cellCounted_eq hme]
  exact State.fld_setFld_ne _ _ _ _ _ _ hr

theorem State.cellCounted_rails (hr : s.hard.rails = true) : s.cellCounted.hard.rails = true := by
  rw [State.cellCounted_eq hme, State.wrapFld_hard, hr]

theorem State.cellCounted_mgmtWrite (hm : s.bit .cswCtrl F.cswCtrl_MGMT_WRITE = true) :
    s.cellCounted.bit .cswCtrl F.cswCtrl_MGMT_WRITE = true := by
  rw [State.bit, State.cellCounted_fld hme _ (by decide)]
  exact hm

/-- The address and data of a mapped register are read without a trace (R689). -/
theorem regReadCell_served {off : Nat} (tag : Nat) (hr : s.hard.rails = true) (hs : cellServes off = true)
    (ho : (Reg.ofAddr off).isSome = true) :
    regReadCell h off tag s = s.cellCounted.regData off tag (s.cellCounted.barRead off 8) 0 := by
  have hfound : ¬ ((Reg.ofAddr off).isNone ∧ !imageAddr off) := by rw [← Option.not_isSome, ho]; simp
  have hmapped : s.cellCounted.onDev (fun s => if (Reg.ofAddr off).isNone ∧ !imageAddr off then s.satFld .devAccess F.devAccess_UNMAPPED 1 else s)
      = s.cellCounted := by
    simp only [hfound, if_false]
    exact State.onDev_same _
  have hnow : s.cellCounted.hard.rails = true ∧ cellServes off = true := ⟨State.cellCounted_rails hme hr, hs⟩
  unfold regReadCell
  rw [State.cellIn_forMe hme]
  exact (if_neg Bool.false_ne_true).trans ((if_pos hnow).trans (congrArg (fun t : State => t.regData off tag (t.barRead off 8) 0) hmapped))

theorem regWriteCell_served {off : Nat} (tag value : Nat) (hr : s.hard.rails = true) (hs : cellServes off = true)
    (hm : s.bit .cswCtrl F.cswCtrl_MGMT_WRITE = true) :
    regWriteCell h off tag value s = (s.cellCounted.barWrite off 8 value).regData off tag value 0 := by
  have hon := State.cellCounted_rails hme hr
  unfold regWriteCell
  rw [State.cellIn_forMe hme]
  dsimp only
  rw [if_neg (by decide), if_neg (by simp [hon, hs]), if_neg (by simp [State.cellCounted_mgmtWrite hme hm])]

theorem flashWriteCell_stage2 {off : Nat} (data : List Byte) (hr : s.hard.rails = true) (h2 : s.stage = 2) (ho : off % 32 = 0)
    (hm : s.bit .cswCtrl F.cswCtrl_MGMT_WRITE = true) :
    flashWriteCell h off data s = (s.cellCounted.onDev (fun s => s.norWr off (data.take 32))).regData off 0 0 0 := by
  have hon := State.cellCounted_rails hme hr
  have hstage : s.cellCounted.stage = 2 := (State.cellCounted_fld hme _ (by decide)).trans h2
  unfold flashWriteCell
  rw [State.cellIn_forMe hme]
  dsimp only
  rw [if_neg (by decide), if_neg (by simp [hon, hstage, ho]), if_neg (by simp [State.cellCounted_mgmtWrite hme hm])]

/-- A reset of the package itself. -/
theorem resetCell_package (n inFifo stat : Nat) (cores : List Nat) (at_ : Nat) (hr : s.hard.rails = true) :
    resetCell h 0 n inFifo stat cores at_ s = s.cellCounted.restart := by
  have hon := State.cellCounted_rails hme hr
  unfold resetCell
  rw [State.cellIn_forMe hme]
  dsimp only
  rw [if_neg (by decide), if_neg (by simp [hon]), if_pos rfl]

/-- A reset of a part of the package. -/
theorem resetCell_part {domain : Nat} (n inFifo stat : Nat) (cores : List Nat) (at_ : Nat) {g : State → State} (hr : s.hard.rails = true)
    (hd : domain ≠ 0) (hg : (if domain = 1 then dieResetCmd n stat cores at_ s.cellCounted
      else if domain = 2 then straitRetrain n at_ s.cellCounted
      else if domain = 3 then ferryReset n inFifo at_ s.cellCounted else s.cellCounted) = g s.cellCounted) :
    resetCell h domain n inFifo stat cores at_ s = s.cellCounted.onDev g := by
  have hon := State.cellCounted_rails hme hr
  unfold resetCell
  rw [State.cellIn_forMe hme]
  dsimp only
  rw [if_neg (by decide), if_neg (by simp [hon]), if_neg hd]
  exact State.onDev_congr hg

theorem wakeCell_forMe (at_ : Nat) : wakeCell h at_ s = s.cellCounted.onDev (fun s => (s.reach at_).wake) := by
  unfold wakeCell
  rw [State.cellIn_forMe hme]
  exact if_pos rfl

/-- What the management ring reports off is lost at once (R692). -/
theorem pkgOff_forMe {pkg : Nat} (at_ : Nat) (hp : pkg < 4096) :
    pkgOff h pkg at_ s = s.cellCounted.onDev (fun s => (s.reach at_).declareLost pkg) := by
  unfold pkgOff
  rw [State.cellIn_forMe hme]
  exact (if_pos rfl).trans (State.onDev_congr (if_pos ⟨hp, .inl rfl⟩))

end ForMe

/-! ### The STATUS cell -/

theorem State.cswDark_boot (s : State) (b : BootSt) : ({ s with boot := b } : State).cswDark = s.cswDark := by
  simp only [State.cswDark, State.stage, State.bit, State.fld_boot]

/-- A package with an address and a lit transmitter originates a cell. -/
theorem State.sendCell_outbox {s : State} (typ : Nat) (payload : List Byte) (hv : s.hard.vcsw = true) (ha : s.hard.cswValid = true)
    (hd : s.cswDark = false) :
    (s.sendCell typ payload).outbox = s.outbox ++ [.cell typ 0x7F (s.hard.cswPos % 64) 0 s.boot.cells payload]
      ∧ (s.sendCell typ payload).boot.statusStage = s.boot.statusStage := by
  unfold State.sendCell
  rw [State.onCsw_on _ _ hv, if_pos ⟨ha, hd⟩]
  generalize (s.boot.cells + 1) % 2 ^ 32 = next
  exact ⟨rfl, rfl⟩

theorem State.reach_statusPayload (s : State) (t power : Nat) : (s.reach t).statusPayload power = s.statusPayload power := by
  unfold State.statusPayload State.ownId
  rw [State.reach_hard]
  simp only [State.reach_stage, State.reach_fld, State.reach_frame]

/-- The STATUS cell goes out, and the stage that it tells is noted. -/
def State.statusSent (s : State) (payload : List Byte) : State :=
  (s.onCsw (fun s => { s with boot := { s.boot with statusAt := s.frm.now, statusStage := some s.stage } })).sendCell 2 payload

theorem State.statusSent_keeps {s : State} (payload : List Byte) (hv : s.hard.vcsw = true) (ha : s.hard.cswValid = true) (hd : s.cswDark = false) :
    (s.statusSent payload).boot.statusStage = some s.stage
      ∧ (s.statusSent payload).outbox = s.outbox ++ [.cell 2 0x7F (s.hard.cswPos % 64) 0 s.boot.cells payload] := by
  have hnote := State.onCsw_eq (fun s => { s with boot := { s.boot with statusAt := s.frm.now, statusStage := some s.stage } }) s hv
    (State.hard_boot s _) (State.pending_boot s _)
  unfold State.statusSent
  rw [hnote]
  obtain ⟨hsent, hkept⟩ := State.sendCell_outbox (s := { s with boot := { s.boot with statusAt := s.frm.now, statusStage := some s.stage } })
    2 payload hv ha ((s.cswDark_boot _).trans hd)
  exact ⟨hkept, hsent⟩

/-- A change of STAGE is due (R691). -/
theorem statusCell_due {s : State} {power at_ : Nat} (hr : s.hard.rails = true) (hv : s.hard.vcsw = true) (ha : s.hard.cswValid = true)
    (hd : s.cswDark = false) (hs : s.boot.statusStage ≠ some s.stage) :
    statusCell power at_ s = (s.reach at_).statusSent (s.statusPayload power) := by
  have hreach : s.onDev (fun s => s.reach at_) = s.reach at_ := State.onDev_eq _ s hr (State.reach_hard s at_) (State.reach_pending s at_)
  have hdark : (s.reach at_).cswDark = false := by
    rw [State.cswDark, State.reach_stage, State.reach_bit]; exact hd
  have htold : ((s.reach at_).boot.statusStage != some (s.reach at_).stage) = true := by
    rw [State.reach_boot, State.reach_stage]; exact bne_iff_ne.mpr hs
  unfold statusCell
  dsimp only
  rw [hreach, State.reach_statusPayload, htold, Bool.or_true, Bool.true_or, State.reach_hard]
  exact if_pos ⟨hv, ha, hdark, rfl⟩

/-- Settles O5. -/
theorem causewayCells : Obligations.CausewayCells := by
  refine ⟨fun s power at_ hr hv ha hd hs => ?status,
    fun s h off tag hme hr hs ho => congrArg Host.Outcome.next (regReadCell_served hme tag hr hs ho),
    fun s h off tag value hme hr hs hm => congrArg Host.Outcome.next (regWriteCell_served hme tag value hr hs hm),
    fun s h n inFifo stat cores at_ hme hr => ?resets,
    fun s h at_ hme _ => congrArg Host.Outcome.next (wakeCell_forMe hme at_),
    fun s h pkg at_ hme _ hp => congrArg Host.Outcome.next (pkgOff_forMe hme at_ hp),
    fun s h off data hme hr h2 ho hm => congrArg Host.Outcome.next (flashWriteCell_stage2 hme data hr h2 ho hm),
    fun s _ hs => congrArg Host.Outcome.next (State.onCsw_congr ?dark),
    fun s _ => rfl⟩
  case status =>
    obtain ⟨htold, hsent⟩ := State.statusSent_keeps (s := s.reach at_) (s.statusPayload power) (by rw [State.reach_hard, hv])
      (by rw [State.reach_hard, ha]) (by rw [State.cswDark, State.reach_stage, State.reach_bit]; exact hd)
    rw [State.reach_stage] at htold
    rw [State.reach_outbox, State.reach_hard, State.reach_boot] at hsent
    exact ⟨_, congrArg Host.Outcome.next (statusCell_due hr hv ha hd hs), htold, hsent⟩
  case resets =>
    exact ⟨congrArg Host.Outcome.next (resetCell_package hme n inFifo stat cores at_ hr),
      congrArg Host.Outcome.next (resetCell_part hme n inFifo stat cores at_ hr (by decide) (if_pos rfl)),
      congrArg Host.Outcome.next (resetCell_part hme n inFifo stat cores at_ hr (by decide) ((if_neg (by decide)).trans (if_pos rfl))),
      congrArg Host.Outcome.next (resetCell_part hme n inFifo stat cores at_ hr (by decide)
        ((if_neg (by decide)).trans ((if_neg (by decide)).trans (if_pos rfl))))⟩
  case dark =>
    have hstage : ((s.setFld .cswStatus F.cswStatus_LIGHT 0).setFld .cswStatus F.cswStatus_LOCKED 0).stage = s.stage := by
      unfold State.stage
      rw [State.fld_setFld_ne _ _ _ _ _ _ (by decide), State.fld_setFld_ne _ _ _ _ _ _ (by decide)]
    have hlit : ¬ ((s.setFld .cswStatus F.cswStatus_LIGHT 0).setFld .cswStatus F.cswStatus_LOCKED 0).stage = 1 := fun h1 => hs (hstage ▸ h1)
    dsimp only
    rw [if_neg hlit]

end Sys2Proof.Machine
end

section
/-! SUPPORT. Straits: training, greeting, retraining, status flits, lanes and light (ch. 14). -/

namespace Sys2Proof.Machine

/-! ### What the state of a strait rests on -/

theorem State.fld_net (s : State) (x : NetSt) (r : Reg) (f : Fld) : ({ s with net := x } : State).fld r f = s.fld r f := by
  unfold State.fld
  cases r <;> rfl

theorem State.fld_emit (s : State) (o : Output) (r : Reg) (f : Fld) : (s.emit o).fld r f = s.fld r f := by
  unfold State.fld
  cases r <;> rfl

theorem State.fld_setStrait (s : State) (n : Nat) (x : Strait) (r : Reg) (f : Fld) : (s.setStrait n x).fld r f = s.fld r f :=
  s.fld_net _ r f

theorem State.strait_setFld (s : State) (r : Reg) (f : Fld) (x n : Nat) : (s.setFld r f x).strait n = s.strait n := by
  rw [State.strait, State.setFld_net, State.strait]

theorem State.strait_regsEvt {s t : State} (h : s.RegsEvt t) (n : Nat) : t.strait n = s.strait n := by
  obtain ⟨-, -, -, -, -, -, -, -, -, hnet, -⟩ := h.keeps
  rw [State.strait, hnet, State.strait]

/-- The status register of a strait is outside the blocks of the event logic. -/
theorem Reg.strStatus_ofEvents {n : Nat} (h : n < 32) : (Reg.strStatus n).ofEvents = false := by
  have hkey : (Reg.strStatus n).key = 0x80008 + 0x1000 * n := rfl
  have hbound : ¬ 0xD0000 ≤ 0x80008 + 0x1000 * n := by omega
  simp [Reg.ofEvents, hkey, hbound]

theorem regsKept_each_mem {α : Type} (f : State → α → State) (l : List α) (hf : ∀ a ∈ l, ∀ s : State, s.RegsKept (f s a)) (s : State) :
    s.RegsKept (s.each l f) := by
  unfold State.each
  induction l generalizing s with
  | nil => exact .refl s
  | cons a l ih => exact (hf a List.mem_cons_self s).trans (ih (fun b hb => hf b (List.mem_cons_of_mem _ hb)) _)

theorem regsKept_perf (s : State) (ev unit n : Nat) : s.RegsKept (s.perf ev unit n) := by
  refine regsKept_each_mem _ _ (fun i hi t => .ite (regsKept_setFld t _ _ ?_) (.refl t)) s
  have hkey : (Reg.evtPerfCnt i).key = 0xD0200 + 0x8 * i := rfl
  have hbounds : 0xD0000 ≤ 0xD0200 + 0x8 * i ∧ 0xD0200 + 0x8 * i < 0xF0000 := by
    have := List.mem_range.mp hi
    omega
  simpa [Reg.ofEvents, hkey] using hbounds

/-- A codeword that goes out leaves the state of every strait. -/
theorem State.strState_sendWord (s : State) (n : Nat) (out : WordAt → Output) {m : Nat} (hm : m < 32) :
    (s.sendWord n out).strState m = s.strState m := by
  unfold State.sendWord State.strState
  dsimp only
  rw [(regsKept_perf _ _ _ _).fld (Reg.strStatus_ofEvents hm), State.fld_emit]
  exact s.fld_setStrait n _ _ _

section Reach
variable (s : State) (t n : Nat)

theorem State.reach_strState : (s.reach t).strState n = s.strState n := State.reach_fld _ _ _ _

theorem State.reach_strUp : (s.reach t).strUp n = s.strUp n := by
  rw [State.strUp, State.reach_strState, State.strUp]

theorem State.reach_hears : (s.reach t).hears n = s.hears n := by
  rw [State.hears, State.reach_strait, State.reach_strUp, State.hears]

theorem State.reach_statusOn : (s.reach t).statusOn n = s.statusOn n := by
  rw [State.statusOn, State.reach_strait, State.reach_strUp, State.reach_strState, State.statusOn]

theorem State.reach_mayTrain (txDown rxDown : Nat) : (s.reach t).mayTrain n txDown rxDown = s.mayTrain n txDown rxDown := by
  rw [State.mayTrain, State.reach_hard, State.reach_fld, State.reach_bit, State.reach_bit, State.mayTrain]

theorem State.reach_miscabled (pkg port : Nat) : (s.reach t).miscabled n pkg port = s.miscabled n pkg port := by
  rw [State.miscabled, State.shellImage, State.reach_boot, State.reach_bit, State.reach_fld, State.miscabled, State.shellImage]

end Reach

/-! ### Training and greeting (R516–R519) -/

section Train
variable {s : State} {n txDown rxDown at_ : Nat}

theorem linkTraining_fresh (hm : s.mayTrain n txDown rxDown = true) (hr : (s.strait n).retrain = none)
    (hs : s.strState n = 0 ∨ s.strState n = 1 ∨ s.strState n = 7) :
    linkTraining n txDown rxDown at_ s = (s.reach at_).freshTraining n txDown rxDown := by
  unfold linkTraining
  dsimp only
  rw [State.reach_mayTrain, hm, State.reach_strait, hr, State.reach_strState]
  exact (if_neg Bool.false_ne_true).trans (if_pos hs)

theorem State.mayTrain_lt (h : s.mayTrain n txDown rxDown = true) : n < 32 := by
  simp only [State.mayTrain, Bool.and_eq_true, decide_eq_true_eq] at h
  exact h.1.1.1.1.1.1

theorem linkTraining_retrain {t : Nat} (hm : s.mayTrain n txDown rxDown = true) (hr : (s.strait n).retrain = some t) :
    linkTraining n txDown rxDown at_ s = ((s.reach at_).setLanes n (s.reg (.strLaneMap n)) txDown rxDown).retrained n := by
  unfold linkTraining
  dsimp only
  rw [State.reach_mayTrain, hm, State.reach_strait, hr, State.reach_reg]
  exact if_neg Bool.false_ne_true

end Train

/-- A HELLO leaves STATE of the strait. -/
theorem State.strState_peerIn (s : State) (n version pkg port : Nat) : (s.peerIn n version pkg port).strState n = s.strState n := by
  unfold State.peerIn State.strState
  dsimp only
  iterate 3 rw [State.fld_setFld_other _ _ _ _ _ rfl (by decide) (by decide)]
  exact s.fld_setStrait n _ _ _

/-- A HELLO leaves the identity memory and what is known of it. -/
theorem State.miscabled_peerIn (s : State) (n version pkg port pkg' port' : Nat) :
    (s.peerIn n version pkg port).miscabled n pkg' port' = s.miscabled n pkg' port' := by
  have hkey : (Reg.devShell n).key ≠ (Reg.strStatus n).key := by
    change 0x100 + 0x8 * n ≠ 0x80008 + 0x1000 * n
    omega
  have hfld : ∀ f, (s.peerIn n version pkg port).fld (.devShell n) f = s.fld (.devShell n) f := by
    intro f
    unfold State.peerIn
    dsimp only
    iterate 3 rw [State.fld_setFld_ne _ _ _ _ _ _ hkey]
    exact s.fld_setStrait n _ _ _
  have hboot : (s.peerIn n version pkg port).boot = s.boot := by
    unfold State.peerIn
    dsimp only
    rw [State.setFld_boot, State.setFld_boot, State.setFld_boot, State.setStrait_boot]
  unfold State.miscabled State.shellImage State.bit
  rw [hfld, hfld, hboot]

section Hello
variable {s : State} {n version pkg port at_ : Nat}

theorem State.hears_lt (h : s.hears n = true) : n < 32 := by
  simp only [State.hears, Bool.and_eq_true, decide_eq_true_eq] at h
  exact h.1

variable (hh : s.hears n = true) (hv : version / 16 = 3)
include hh hv

/-- A HELLO of a taken version: what the cabling makes of it. -/
theorem helloIn_heard : helloIn n version pkg port at_ s =
    let u := (s.reach at_).peerIn n version pkg port
    if s.miscabled n pkg port then if s.strState n = 5 then u else (u.setStrState n 5).strEvent n
    else
      let v := if (s.strait n).hello then u else u.sendHello n
      if v.strState n = 1 ∧ (s.strait n).retrain.isNone ∨ v.strState n = 5 ∨ v.strState n = 6 then (v.setStrState n 1).sendStatus n false
      else v := by
  unfold helloIn
  dsimp only
  rw [State.reach_hears, hh, State.miscabled_peerIn, State.reach_miscabled, State.strState_peerIn, State.reach_strState, State.reach_strait]
  exact (if_neg Bool.false_ne_true).trans (if_neg fun h => h hv)

theorem helloIn_miscabled (hm : s.miscabled n pkg port = true) (h5 : s.strState n ≠ 5) :
    helloIn n version pkg port at_ s = (((s.reach at_).peerIn n version pkg port).setStrState n 5).strEvent n := by
  rw [helloIn_heard hh hv]
  exact (if_pos hm).trans (if_neg h5)

variable (hm : s.miscabled n pkg port = false) (h1 : s.strState n = 1) (hr : (s.strait n).retrain = none)
include hm h1 hr

/-- A greeting that has been answered already. -/
theorem helloIn_greeted (hx : (s.strait n).hello = true) :
    helloIn n version pkg port at_ s = (((s.reach at_).peerIn n version pkg port).setStrState n 1).sendStatus n false := by
  have hstate : ((s.reach at_).peerIn n version pkg port).strState n = 1 := by
    rw [State.strState_peerIn, State.reach_strState, h1]
  rw [helloIn_heard hh hv]
  dsimp only
  rw [hm, hx, if_neg Bool.false_ne_true, if_pos rfl, hr]
  exact if_pos (.inl ⟨hstate, rfl⟩)

/-- A first greeting is answered. -/
theorem helloIn_first (hx : (s.strait n).hello = false) :
    helloIn n version pkg port at_ s
      = ((((s.reach at_).peerIn n version pkg port).sendHello n).setStrState n 1).sendStatus n false := by
  have hstate : (((s.reach at_).peerIn n version pkg port).sendHello n).strState n = 1 := by
    rw [State.sendHello, State.strState_sendWord _ _ _ (State.hears_lt hh), State.strState_peerIn, State.reach_strState, h1]
  rw [helloIn_heard hh hv]
  dsimp only
  rw [hm, hx, if_neg Bool.false_ne_true, if_neg Bool.false_ne_true, hr]
  exact if_pos (.inl ⟨hstate, rfl⟩)

end Hello

/-! ### Status flits (R493, R497) -/

theorem State.strState_setStrait (s : State) (n : Nat) (x : Strait) (m : Nat) : (s.setStrait n x).strState m = s.strState m :=
  s.fld_setStrait n x _ _

/-- A measurement leaves the state of the strait. -/
theorem State.strState_measureDelay (s : State) {n : Nat} (p : StatusFlit) (at_ : Nat) (hn : n < 32) :
    (s.measureDelay n p at_).strState n = s.strState n := by
  have hkey : (Reg.strStatus n).key ≠ (Reg.strDelay n).key := by
    change 0x80008 + 0x1000 * n ≠ 0x80028 + 0x1000 * n
    omega
  have hset : ∀ x y, ((s.setFld (.strDelay n) F.strDelay_MEASURED x).setStrait n y).strState n = s.strState n := fun x y =>
    (State.strState_setStrait _ _ _ _).trans (s.fld_setFld_ne _ _ _ _ _ hkey)
  unfold State.measureDelay
  dsimp only
  split
  · exact ((regsKept_eventW _ _ _ _ _ _ (by omega)).fld (Reg.strStatus_ofEvents hn) _).trans (hset _ _)
  · exact hset _ _

section Status
variable {s : State} {n : Nat} {p : StatusFlit} {at_ : Nat} (hn : n < 32) (hon : s.statusOn n = true) (hl : p.lane = none)
include hn hon hl

/-- A flit without an error and without a lane request. -/
theorem statusFlitIn_plain : statusFlitIn n p at_ 0 s =
    let u := (s.reach at_).setStrait n { (s.reach at_).strait n with echo := some (p.tTx, at_) }
    (if (s.strait n).measure ∧ p.tEcho ≠ 0 then u.measured n p at_ else u).each (p.vcs.zipIdx.take 4) (fun s v => s.statusVc n v.2 v.1) := by
  have hok : ¬ (32 ≤ n ∨ (!(s.reach at_).statusOn n) = true) := by
    rw [State.reach_statusOn, hon]
    simpa using hn
  have hcode : (s.reach at_).rxCode n 0 = (true, s.reach at_) := rfl
  have hmeasure : ((s.reach at_).setStrait n { (s.reach at_).strait n with echo := some (p.tTx, at_) }).strait n
      = { (s.reach at_).strait n with echo := some (p.tTx, at_) } := State.strait_setStrait_same _ _ _
  unfold statusFlitIn
  dsimp only
  rw [if_neg hok, hcode]
  dsimp only
  rw [hmeasure, hl]
  dsimp only
  rw [State.reach_strait]

theorem statusFlitIn_measured (hm : (s.strait n).measure = false) : statusFlitIn n p at_ 0 s =
    ((s.reach at_).setStrait n { (s.reach at_).strait n with echo := some (p.tTx, at_) }).each (p.vcs.zipIdx.take 4)
      (fun s v => s.statusVc n v.2 v.1) := by
  rw [statusFlitIn_plain hn hon hl]
  dsimp only
  rw [hm, if_neg fun h => Bool.false_ne_true h.1]

end Status

/-- The last step of a training (R516). -/
theorem statusFlitIn_opens {s : State} {n at_ : Nat} {p : StatusFlit} (hn : n < 32) (h1 : s.strState n = 1) (hh : (s.strait n).hello = true)
    (hr : (s.strait n).retrain = none) (hm : (s.strait n).measure = true) (he : p.tEcho ≠ 0) (hv : p.vcs = []) (hl : p.lane = none) :
    statusFlitIn n p at_ 0 s =
      (((s.reach at_).setStrait n { (s.reach at_).strait n with echo := some (p.tTx, at_) }).measureDelay n p at_).strOpens n := by
  have hon : s.statusOn n = true := by simp [State.statusOn, h1, hh, hr]
  have hstate : (((s.reach at_).setStrait n { (s.reach at_).strait n with echo := some (p.tTx, at_) }).measureDelay n p at_).strState n = 1 := by
    rw [State.strState_measureDelay _ _ _ hn, State.strState_setStrait, State.reach_strState, h1]
  rw [statusFlitIn_plain hn hon hl]
  dsimp only
  rw [hm, if_pos ⟨rfl, he⟩, hv]
  exact if_pos hstate

/-! ### Writes of STR_CTRL -/

section Ctrl
variable {s : State} {n : Nat}

theorem State.locked_strCtrl (hl : bitN s.hard.lock.toNat 3 = false) : s.locked (.strCtrl n) = false := hl

theorem State.strCtrlWrite_retrain (he : s.bit (.strCtrl n) F.strCtrl_ENABLE = true) :
    s.regSet (.strCtrl n) (F.strCtrl_RETRAIN.put (s.reg (.strCtrl n)) 1)
      = (s.plainWrite (.strCtrl n) (F.strCtrl_RETRAIN.put (s.reg (.strCtrl n)) 1)).startRetrain n := by
  have hon : F.strCtrl_ENABLE.get (F.strCtrl_RETRAIN.put (s.reg (.strCtrl n)) 1) = 1 := by
    rw [Fld.get_put_ne _ _ _ _ (by decide) (by decide)]
    exact beq_iff_eq.mp he
  have hre : F.strCtrl_RETRAIN.get (F.strCtrl_RETRAIN.put (s.reg (.strCtrl n)) 1) = 1 := Fld.get_put _ _ _ (by decide)
  change s.strCtrlWrite n _ = _
  unfold State.strCtrlWrite
  dsimp only
  rw [if_pos hre, if_neg fun h => absurd (hon.symm.trans h.2) (by decide)]

theorem State.strCtrlWrite_disable (he : s.bit (.strCtrl n) F.strCtrl_ENABLE = true) (hr : F.strCtrl_RETRAIN.get (s.reg (.strCtrl n)) = 0) :
    s.regSet (.strCtrl n) (F.strCtrl_ENABLE.put (s.reg (.strCtrl n)) 0)
      = (s.plainWrite (.strCtrl n) (F.strCtrl_ENABLE.put (s.reg (.strCtrl n)) 0)).strDisable n := by
  have hoff : F.strCtrl_ENABLE.get (F.strCtrl_ENABLE.put (s.reg (.strCtrl n)) 0) = 0 := Fld.get_put _ _ _ (by decide)
  have hre : F.strCtrl_RETRAIN.get (F.strCtrl_ENABLE.put (s.reg (.strCtrl n)) 0) = 0 := by
    rw [Fld.get_put_ne _ _ _ _ (by decide) (by decide), hr]
  change s.strCtrlWrite n _ = _
  unfold State.strCtrlWrite
  dsimp only
  rw [if_neg fun h => absurd (hre.symm.trans h) (by decide), if_pos ⟨he, hoff⟩]

end Ctrl

theorem retrainTimeout_due {s : State} {n t at_ : Nat} (hn : n < 32) (hr : (s.strait n).retrain = some t) (ht : t + 1000000 ≤ at_) :
    retrainTimeout n at_ s = (s.reach at_).strDown n := by
  have hnow := Nat.le_trans ht (State.le_reach s at_)
  unfold retrainTimeout
  dsimp only
  rw [State.reach_strait, hr]
  exact if_pos ⟨hn, hnow⟩

theorem keepaliveWake_awake {s : State} {n at_ : Nat} (hn : n < 32) (h4 : s.strState n = 4) (h0 : s.fld .pwrStatus F.pwrStatus_STATE = 0) :
    keepaliveWake n at_ s = ((s.reach at_).lineStart n).strOpens n :=
  if_pos ⟨hn, (State.reach_strState s at_ n).trans h4, (State.reach_fld s at_ _ _).trans h0⟩

/-- Settles O31. -/
theorem straitsOpen : Obligations.StraitsOpen := by
  refine ⟨fun s n txDown rxDown at_ _ hm hr hs => ?_, fun s n txDown rxDown t at_ _ hm hr => ?_,
    fun s n version pkg port at_ _ hh hv hm h1 hr => ?_, fun s n at_ p _ hn h1 hh hr hm he hv hl => ?_,
    fun s n version pkg port at_ _ hh hv hm h5 => ?_, fun s n hr ho hn hl he _ => ?_, fun s n hr ho hn hl he h0 => ?_,
    fun s n t at_ _ hn hr ht => ?_, fun s n at_ _ hn h4 h0 => ?_⟩
  · exact State.doesIf_eq (decide_eq_true (State.mayTrain_lt hm)) (linkTraining_fresh hm hr hs)
  · exact State.doesIf_eq (decide_eq_true (State.mayTrain_lt hm)) (linkTraining_retrain hm hr)
  · exact ⟨fun hx => State.doesIf_eq (decide_eq_true (State.hears_lt hh)) (helloIn_greeted hh hv hm h1 hr hx),
      fun hx => State.doesIf_eq (decide_eq_true (State.hears_lt hh)) (helloIn_first hh hv hm h1 hr hx)⟩
  · exact State.doesIf_eq (decide_eq_true hn) (statusFlitIn_opens hn h1 hh hr hm he hv hl)
  · exact State.doesIf_eq (decide_eq_true (State.hears_lt hh)) (helloIn_miscabled hh hv hm h5)
  · exact State.writes_open (decide_eq_true hn) hr ho (State.locked_strCtrl hl) nofun nofun nofun (State.strCtrlWrite_retrain he)
  · exact State.writes_open (decide_eq_true hn) hr ho (State.locked_strCtrl hl) nofun nofun nofun (State.strCtrlWrite_disable he h0)
  · exact State.doesIf_eq (decide_eq_true hn) (retrainTimeout_due hn hr ht)
  · exact State.doesIf_eq (decide_eq_true hn) (keepaliveWake_awake hn h4 h0)

end Sys2Proof.Machine
end

section
/-! SUPPORT. A working strait: status flits, resends, lanes, light, and posted writes sent again (R493–R515). -/

namespace Sys2Proof.Machine

section Switch
variable {s : State} {n : Nat}

/-- The receiving direction of a switch: the wavelength that was asked for is excluded, and nothing else waits (R511). -/
theorem State.laneSwitchRx_asked {f w c : Nat} (ha : (s.strait n).laneAsked = some (f, w, c % 4096)) (hk : (s.strait n).laneOk = true)
    (hx : (s.strait n).laneNext = []) : s.laneSwitchRx n c =
      (((s.setFld (.strLaneMap n) F.strLaneMap_RX_EXCL03 (putN (s.fld (.strLaneMap n) F.strLaneMap_RX_EXCL03) (3 * f) 3 w)).setStrait n
        { s.strait n with laneAsked := none, laneOk := false }).satFld (.strSpare n) F.strSpare_SWAPS 1).eventW 0x0501 (648 + n) none none f w := by
  unfold State.laneSwitchRx
  dsimp only
  rw [ha, hk, hx]
  exact if_pos ⟨rfl, rfl⟩

/-- The transmitting direction of a switch, with no request accepted. -/
theorem State.laneSwitchTx_none (c : Nat) (h : (s.strait n).laneTaken = none) : s.laneSwitchTx n c = s := by
  rw [State.laneSwitchTx, h]

end Switch

section Working
variable {s : State} {n at_ : Nat} (hn : n < 32)
include hn

theorem statusFlitDue_on (h : s.statusOn n = true)
    (hdue : 128 ≤ (s.strait n).got ∨ (s.strait n).gap = true ∨ (s.strait n).statusAt + 500 ≤ at_) :
    statusFlitDue n at_ s = (s.reach at_).sendStatus n false := by
  unfold statusFlitDue
  dsimp only
  rw [State.reach_strait]
  exact if_pos ⟨hn, (State.reach_statusOn s at_ n).trans h, hdue.imp_right (.imp_right fun ht => Nat.le_trans ht (State.le_reach s at_))⟩

theorem flitRetryTimeout_carries {v : Nat} (hv : v < 4) (h : s.carries n v = true) :
    flitRetryTimeout n v at_ s = (s.reach at_).resend n v (fun u => decide (u.at_ + 2000 ≤ (s.reach at_).frm.now)) :=
  if_pos ⟨hn, hv, (State.reach_carries s at_ n v).trans h⟩

theorem lightLoss_lit (h7 : s.strState n ≠ 7) (h0 : s.strState n ≠ 0) : lightLoss n at_ s = ((s.reach at_).strDown n).strEvent n := by
  rw [← State.reach_strState s at_] at h7 h0
  exact if_pos ⟨hn, h7, h0⟩

/-- The first faulty wavelength of a fiber whose spare is free (R511). -/
theorem laneFault_asks {f w : Nat} (c : Nat) (hf : f < 4) (hw : w < 5) (hup : s.strUp n = true) (h4 : w ≠ 4)
    (he : exclOf (s.fld (.strLaneMap n) F.strLaneMap_RX_EXCL03) f = 4) (ha : (s.strait n).laneAsked = none)
    (hx : (s.strait n).laneNext = []) : laneFault n f w c at_ s =
      ((s.reach at_).setStrait n { (s.reach at_).strait n with
        counter := c % 4096, laneAsked := some (f, w, (c + 1024) % 4096), laneOk := false }).sendStatus n false := by
  have hok : ¬ (32 ≤ n ∨ 4 ≤ f ∨ 5 ≤ w ∨ (!s.strUp n) = true) := by
    rw [hup]
    simp only [Bool.not_true, Bool.false_eq_true, or_false]
    omega
  have hrep : (s.strait n).replacing f = none := by
    rw [Strait.replacing, ha, hx]
    rfl
  unfold laneFault
  dsimp only
  rw [State.reach_strUp, if_neg hok, State.reach_strait, State.reach_fld, he, hrep, ha]
  have hnew : ¬ (4 = 7 ∨ 4 = w ∨ none = some w) := by
    rintro (h | h | h)
    · exact absurd h (by decide)
    · exact h4 h.symm
    · cases h
  refine (if_neg hnew).trans ((if_pos ⟨rfl, rfl⟩).trans ?_)
  dsimp only [State.askLane]
  rw [State.reach_strait]

theorem recalibration_up (hup : s.strUp n = true) (hr : (s.strait n).retrain = none) : recalibration n at_ s =
    ((s.reach at_).wrapFld (.strSpare n) F.strSpare_RECALS 1).setStrait n { s.strait n with measure := true } := by
  have hwrap : ((s.reach at_).wrapFld (.strSpare n) F.strSpare_RECALS 1).strait n = s.strait n :=
    (State.strait_setFld _ _ _ _ _).trans (State.reach_strait s at_ n)
  unfold recalibration
  dsimp only
  rw [State.reach_strUp, State.reach_strait]
  exact if_pos ⟨hn, hup, by rw [hr]; rfl⟩

theorem laneSwitch_asked {f w c : Nat} (ha : (s.strait n).laneAsked = some (f, w, c % 4096)) (hk : (s.strait n).laneOk = true)
    (ht : (s.strait n).laneTaken = none) (hx : (s.strait n).laneNext = []) : laneSwitch n c at_ s =
      ((((s.reach at_).setFld (.strLaneMap n) F.strLaneMap_RX_EXCL03 (putN (s.fld (.strLaneMap n) F.strLaneMap_RX_EXCL03) (3 * f) 3 w)).setStrait n
        { s.strait n with laneAsked := none, laneOk := false }).satFld (.strSpare n) F.strSpare_SWAPS 1).eventW 0x0501 (648 + n) none none f w := by
  rw [← State.reach_strait s at_] at ha hk ht hx
  rw [← State.reach_strait s at_, ← State.reach_fld s at_]
  unfold laneSwitch
  dsimp only
  rw [if_neg (by omega), State.laneSwitchRx_asked ha hk hx]
  refine State.laneSwitchTx_none c ?_
  rw [State.strait_regsEvt ((regsEvt_satFld _ _ _ _).trans (regsEvt_eventW _ _ _ _ _ _ _)), State.strait_setStrait_same]
  exact ht

end Working

theorem postedWriteResend_held {s : State} {dst at_ : Nat} {t : E2eTx} (h : sget dst s.net.tx = some t) :
    postedWriteResend dst at_ s =
      ({ s.reach at_ with net := { s.net with tx := sput dst { t with
            unacked := t.unacked.map (fun w => if w.at_ + 20000 ≤ (s.reach at_).frm.now then { w with at_ := (s.reach at_).frm.now } else w) } s.net.tx } } : State).each
        (t.unacked.filter (fun w => decide (w.at_ + 20000 ≤ (s.reach at_).frm.now))) (fun s w => s.send dst 0 0 w.msg) := by
  unfold postedWriteResend
  dsimp only
  rw [State.reach_net, h]
  dsimp only
  simp only [decide_eq_true_eq]

/-- Settles O32. -/
theorem straitsWork : Obligations.StraitsWork := by
  refine ⟨fun s n at_ p _ hn hon hm hl => ?_, fun s n at_ _ hn hon hdue => ?_, fun s n v at_ _ hn hv hc => ?_, fun s n at_ _ hn => ?_,
    fun s n at_ _ hn h7 h0 => ?_, fun s n f w c at_ _ hn hf hw hup h4 he ha hx => ?_, fun s n f w c at_ _ hn ha hk ht hx => ?_,
    fun s n at_ _ hn hup hr => ?_, fun s dst at_ t _ h => State.does_eq (postedWriteResend_held h)⟩
  all_goals refine State.doesIf_eq (decide_eq_true hn) ?_
  · exact statusFlitIn_measured hn hon hl hm
  · exact statusFlitDue_on hn hon hdue
  · exact flitRetryTimeout_carries hn hv hc
  · exact if_pos hn
  · exact lightLoss_lit hn h7 h0
  · exact laneFault_asks hn c hf hw hup h4 he ha hx
  · exact laneSwitch_asked hn ha hk ht hx
  · exact recalibration_up hn hup hr

end Sys2Proof.Machine
end

section
/-! SUPPORT. Stream ports: frames that arrive, timeouts, resets, lanes and channels (ch. 17). -/

namespace Sys2Proof.Machine

/-! ### What reaching a time leaves of a port -/

section Reach
variable (s : State) (t f c : Nat)

theorem State.reach_fch : (s.reach t).fch f c = s.fch f c := by
  rw [State.fch, State.reach_ferry, State.fch]

theorem State.reach_fryState : (s.reach t).fryState f = s.fryState f := State.reach_fld _ _ _ _

theorem State.reach_fryUp : (s.reach t).fryUp f = s.fryUp f := by
  rw [State.fryUp, State.reach_fryState, State.fryUp]

theorem State.reach_checkOf (bs : List Byte) : (s.reach t).checkOf f c bs = s.checkOf f c bs := by
  simp only [State.checkOf, State.reach_fld, State.reach_bit]

end Reach

theorem State.fch_setFld (s : State) (r : Reg) (g : Fld) (x f c : Nat) : (s.setFld r g x).fch f c = s.fch f c := by
  rw [State.fch, State.ferry, State.setFld_ferries, State.fch, State.ferry]

/-! ### Frames that arrive (R603–R616, R620–R623) -/

section Frames
variable {s : State} {r : FRx}

/-- A sequenced frame in order is accepted. -/
theorem State.fryRecv_inOrder {typ : Nat} {payload : List Byte} (h : s.frameInOrder r typ payload) :
    s.fryRecv r typ payload = (true, s.frameTaken r) := by
  obtain ⟨-, hf, hc, hup, hlen, hcode, hen, htyp, hnext, hcheck, hack⟩ := h
  have hport : ¬ (4 ≤ r.ferry ∨ 64 ≤ r.channel ∨ (!s.fryUp r.ferry) = true ∨ 4064 < payload.length) := by
    rw [hup]
    simp only [Bool.not_true, Bool.false_eq_true, false_or]
    omega
  have hchan : ¬ ((!s.bit (.fryChCfg r.ferry r.channel) F.fryChCfg_ENABLE) = true ∨ (r.channel = 63) = (typ = 1)) := by
    rintro (h | h)
    · rw [hen] at h; cases h
    · by_cases h63 : r.channel = 63
      · exact htyp.mp (h ▸ h63) h63
      · exact h63 (h ▸ htyp.mpr h63)
  have hfew : ¬ 32 ≤ (s.fch r.ferry r.channel).ackSince + 1 := Nat.not_le.mpr hack
  unfold State.fryRecv
  dsimp only
  rw [State.reach_fryUp, if_neg hport, if_neg (fun h => h hcode), State.reach_bit, if_neg hchan]
  unfold State.frySequenced
  dsimp only
  rw [State.reach_fld, State.reach_checkOf, if_pos hnext, if_pos hcheck, State.fch_setFld, State.reach_fch, if_neg hfew]
  unfold State.frameTaken
  dsimp only
  rw [State.reach_fld, State.fch_setFld, State.reach_fch]

theorem dataFrame_inOrder {payload : List Byte} (h : s.frameInOrder r 1 payload) : dataFrame r payload s =
    ((s.frameTaken r).setFch r.ferry r.channel { (s.frameTaken r).fch r.ferry r.channel with
        buf := ((s.frameTaken r).fch r.ferry r.channel).buf ++ [⟨r.alive, r.end_, payload⟩] }).fryBuffered r.ferry r.channel := by
  unfold dataFrame
  rw [State.fryRecv_inOrder h]

/-- The last bytes of a flash read. -/
theorem readData_completes {payload : List Byte} {q : FlashReq} (h : s.frameInOrder r 6 payload)
    (hq : (((s.frameTaken r).fryFree r.ferry 63 (frameBlocks payload.length)).ferry r.ferry).reqs.find? (fun q => q.tag == r.tag % 4096) = some q)
    (hw : q.what.writes = false) (h0 : r.status = 0) (ha : r.arg % 2 ^ 42 = (q.off + q.come) % 2 ^ 42)
    (hdone : ({ q with got := q.got ++ [(r.arg % 2 ^ 42, payload)] } : FlashReq).complete = true) :
    readData r payload s = (((s.frameTaken r).fryFree r.ferry 63 (frameBlocks payload.length)).flashDone r.ferry q.tag).flashGot q.what
        ({ q with got := q.got ++ [(r.arg % 2 ^ 42, payload)] } : FlashReq).data := by
  unfold readData
  rw [State.fryRecv_inOrder h]
  dsimp only
  rw [hq]
  dsimp only
  rw [if_neg (by rw [hw]; exact Bool.false_ne_true), if_neg (fun h => h h0), if_neg (fun h => h ha), if_pos hdone]

/-- The answer of a flash write. -/
theorem writeAck_found {q : FlashReq} (h : s.frameInOrder r 8 [])
    (hq : (((s.frameTaken r).fryFree r.ferry 63 (frameBlocks 0)).ferry r.ferry).reqs.find? (fun q => q.tag == r.tag % 4096) = some q)
    (hw : q.what.writes = true) :
    writeAck r s =
      if r.status = 0 then (((s.frameTaken r).fryFree r.ferry 63 (frameBlocks 0)).flashDone r.ferry q.tag).flashWritten q.what
      else (((s.frameTaken r).fryFree r.ferry 63 (frameBlocks 0)).flashDone r.ferry q.tag).flashWriteFails (flashOff r.ferry q.off) q.what := by
  unfold writeAck
  rw [State.fryRecv_inOrder h]
  dsimp only
  rw [hq]
  exact if_pos hw

/-- A port that is up hears a frame without a number. -/
theorem State.frameHeard_port (h : s.frameHeard r) : ¬ (4 ≤ r.ferry ∨ 64 ≤ r.channel ∨ (!(s.reach r.at_).fryUp r.ferry) = true) := by
  obtain ⟨-, hf, hc, hup, -⟩ := h
  rw [State.reach_fryUp, hup]
  simp only [Bool.not_true, Bool.false_eq_true, or_false]
  omega

theorem fryCreditIn_heard (h : s.frameHeard r) : fryCreditIn r s =
    ((s.reach r.at_).setFch r.ferry r.channel { s.fch r.ferry r.channel with peerFreed := r.arg % 2 ^ 32 }).fryPump r.ferry r.channel := by
  have hport := State.frameHeard_port h
  obtain ⟨-, -, -, -, hcode⟩ := h
  unfold fryCreditIn
  dsimp only
  rw [if_neg hport, if_neg (fun h => h hcode), State.reach_fch]

theorem fryAckIn_heard (nak : Bool) (h : s.frameHeard r) : fryAckIn r nak s =
    (if nak then ((s.reach r.at_).fryRelease r.ferry r.channel (r.arg % 65536)).fryResend r.ferry r.channel (fun _ => true)
      else (s.reach r.at_).fryRelease r.ferry r.channel (r.arg % 65536)).fryPump r.ferry r.channel := by
  have hport := State.frameHeard_port h
  obtain ⟨-, -, -, -, hcode⟩ := h
  unfold fryAckIn
  dsimp only
  rw [if_neg hport, if_neg (fun h => h hcode)]

theorem helloFrame_greets {version : Nat} (nexts allots : List Nat) (hf : r.ferry < 4) (hcode : r.code = 0) (hv : version / 16 = 3)
    (hs : s.fryState r.ferry ∉ [0, 5, 6]) : helloFrame r version nexts allots s =
      ((s.reach r.at_).setFld (.fryStatus r.ferry) F.fryStatus_VERSION version).fryGreet r.ferry (r.arg % 2 == 1) nexts allots := by
  have hport : ¬ (4 ≤ r.ferry ∨ s.fryState r.ferry = 0 ∨ s.fryState r.ferry = 5 ∨ s.fryState r.ferry = 6) := by
    simp only [List.mem_cons, List.not_mem_nil, or_false] at hs
    exact fun h => h.elim (Nat.not_le.mpr hf) hs
  unfold helloFrame
  dsimp only
  rw [State.reach_fryState, if_neg hport, if_neg (fun h => h hcode), if_neg (fun h => h hv)]

end Frames

/-- Settles O33. -/
theorem ferryFrames : Obligations.FerryFrames := by
  refine ⟨fun s r payload h => ?data, fun s r payload q h hq hw h0 ha hdone => ?read, fun s r q h hq hw => ?ack, fun s r h => ?heard,
    fun s r version nexts allots _ hf hcode hv hs => State.doesIf_eq (decide_eq_true hf) (helloFrame_greets nexts allots hf hcode hv hs)⟩
  case data => exact State.doesIf_eq (decide_eq_true h.2.1) (dataFrame_inOrder h)
  case read => exact State.doesIf_eq (decide_eq_true h.2.1) (readData_completes h hq hw h0 ha hdone)
  case ack =>
    exact ⟨fun h0 => State.doesIf_eq (decide_eq_true h.2.1) ((writeAck_found h hq hw).trans (if_pos h0)),
      fun h0 => State.doesIf_eq (decide_eq_true h.2.1) ((writeAck_found h hq hw).trans (if_neg h0))⟩
  case heard =>
    have hf := decide_eq_true h.2.1
    refine ⟨State.doesIf_eq hf (fryCreditIn_heard h), State.doesIf_eq hf ?_, State.doesIf_eq hf ?_⟩
    · rw [fryAckIn_heard false h, if_neg Bool.false_ne_true]
    · rw [fryAckIn_heard true h, if_pos rfl]

end Sys2Proof.Machine
end

section
/-! SUPPORT. Timeouts, resets, lanes, training and channels of a stream port (R599, R605, R608, R613, R616, R622, R625). -/

namespace Sys2Proof.Machine

section Port
variable {s : State} {f at_ : Nat} (hf : f < 4)
include hf

theorem frameResendTimeout_port {c : Nat} (hc : c < 64) :
    frameResendTimeout f c at_ s = (s.reach at_).fryResend f c (fun x => decide (x.2 + 10000 ≤ (s.reach at_).frm.now)) :=
  if_pos ⟨hf, hc⟩

/-- A flash request without a complete answer in time fails (R622, R623). -/
theorem flashTimeout_due {tag : Nat} {q : FlashReq} (hq : (s.ferry f).reqs.find? (fun q => q.tag == tag) = some q)
    (ht : q.at_ + 1000 * s.fld (.fryCtrl f) F.fryCtrl_FLASH_TIMEOUT ≤ at_) :
    flashTimeout f tag at_ s =
      if q.what.writes then
        ((((s.reach at_).satFld (.fryFlash f) F.fryFlash_TIMEOUTS 1).eventW 0x0504 (680 + f) none none tag q.off).flashDone f tag).flashWriteFails
          (flashOff f q.off) q.what
      else ((((s.reach at_).satFld (.fryFlash f) F.fryFlash_TIMEOUTS 1).eventW 0x0504 (680 + f) none none tag q.off).flashDone f tag).flashReadFails
        q.what false := by
  have hdue := Nat.not_lt.mpr (Nat.le_trans ht (State.le_reach s at_))
  unfold flashTimeout
  dsimp only
  rw [if_neg (Nat.not_le.mpr hf), State.reach_ferry, hq, State.reach_fld]
  exact if_neg hdue

theorem ferryReset_port (n : Nat) : ferryReset f n at_ s = (s.reach at_).ferryOut f n 5 := if_pos hf

/-- A port at full width goes on at half rate (R599). -/
theorem ferryLaneLoss_full (hup : s.fryUp f = true) (h8 : s.fld (.fryStatus f) F.fryStatus_LANES = 8) :
    ferryLaneLoss f at_ s = (((s.reach at_).setFld (.fryStatus f) F.fryStatus_LANES 4).setFryState f 3).fryLineStart f := by
  unfold ferryLaneLoss
  dsimp only
  rw [State.reach_fryUp, if_pos ⟨hf, hup⟩, State.reach_fld, if_pos h8]

theorem ferryTraining_locked {lanes : Nat} (hst : s.fld .devStatus F.devStatus_STAGE ∈ [5, 6]) (he : s.bit (.fryCtrl f) F.fryCtrl_ENABLE = true)
    (hup : s.fryUp f = false) (hmis : s.bit (.devShell (ferryShell f)) F.devShell_TYPE_MISMATCH = false) (hl : lanes = 8 ∨ lanes = 4) :
    ferryTraining f lanes at_ s =
      (((((s.reach at_).setFerry f { s.ferry f with hello := false }).fryLineStart f).setFld (.fryStatus f) F.fryStatus_LANES lanes).setFryState f 1).sendFryHello f := by
  unfold ferryTraining
  dsimp only
  rw [State.reach_fld, State.reach_bit, State.reach_bit, State.reach_fryUp, State.reach_ferry]
  exact if_pos ⟨hf, hst, he, by rw [hup]; rfl, by rw [hmis]; rfl, hl⟩

end Port

/-- ENABLE of a channel that is off goes through the checks of R625. -/
theorem State.regSet_fryChCfg {s : State} {f c : Nat} {v : Word} (he : s.bit (.fryChCfg f c) F.fryChCfg_ENABLE = false)
    (hv : F.fryChCfg_ENABLE.get v = 1) :
    s.regSet (.fryChCfg f c) v = (s.plainWrite (.fryChCfg f c) (F.fryChCfg_ENABLE.put v 0)).channelEnable f c := by
  change s.chCfgWrite f c v = _
  unfold State.chCfgWrite
  dsimp only
  rw [he, if_neg Bool.false_ne_true, if_pos hv]

/-- Settles O34. -/
theorem ferryEvents : Obligations.FerryEvents := by
  refine ⟨fun s f c at_ _ hf hc => State.doesIf_eq (decide_eq_true ⟨hf, hc⟩) (frameResendTimeout_port hf hc),
    fun s f tag at_ q _ hf hq ht => ⟨fun hw => ?writes, fun hw => ?reads⟩,
    fun s f n at_ _ hf => State.doesIf_eq (decide_eq_true hf) (ferryReset_port hf n),
    fun s f at_ _ hf hup h8 => State.doesIf_eq (decide_eq_true hf) (ferryLaneLoss_full hf hup h8),
    fun s f lanes at_ _ hf hst he hup hmis hl => State.doesIf_eq (decide_eq_true hf) (ferryTraining_locked hf hst he hup hmis hl),
    fun s f c v hr ho hf hc he hv =>
      State.writes_open (decide_eq_true ⟨hf, hc⟩) hr ho rfl nofun nofun nofun (State.regSet_fryChCfg he hv)⟩
  case writes => exact State.doesIf_eq (decide_eq_true hf) ((flashTimeout_due hf hq ht).trans (if_pos hw))
  case reads =>
    exact State.doesIf_eq (decide_eq_true hf) ((flashTimeout_due hf hq ht).trans (if_neg (by rw [hw]; exact Bool.false_ne_true)))

end Sys2Proof.Machine
end

section
/-! SUPPORT. Doorbells and the moderation of interrupts (R584–R590); contexts and partitions in and out of service (R566–R576, R592). -/

namespace Sys2Proof.Machine

/-! ### Doorbells -/

section Reach
variable (s : State) (t : Nat)

theorem State.reach_ctx? (c : Nat) : (s.reach t).ctx? c = s.ctx? c := by
  rw [State.ctx?, State.reach_ctxs, State.ctx?]

theorem State.reach_fnOf (c : Nat) : (s.reach t).fnOf c = s.fnOf c := by
  simp only [State.fnOf, State.reach_fld]

theorem State.reach_pageCtx (fn page : Nat) : (s.reach t).pageCtx fn page = s.pageCtx fn page := by
  unfold State.pageCtx
  rw [State.reach_ctxs]
  simp only [State.reach_fnOf, State.reach_fld]

theorem State.reach_doorbellsOn (c : Nat) : (s.reach t).doorbellsOn c = s.doorbellsOn c := by
  rw [State.doorbellsOn, State.reach_bit, State.reach_bit, State.doorbellsOn]

theorem State.reach_modTimer (fn vec : Nat) : (s.reach t).modTimer fn vec = s.modTimer fn vec := by
  rw [State.modTimer, State.reach_fld, State.reach_fld, State.modTimer]

theorem State.reach_modHeld (fn vec : Nat) : (s.reach t).modHeld fn vec = s.modHeld fn vec := by
  unfold State.modHeld
  rw [State.reach_evt, State.reach_bit, State.reach_fld]

end Reach

section Doorbell
variable {s : State} {fn page v at_ c : Nat} {x : Ctx} (hp : s.pageCtx fn page = some c)
include hp

theorem doorbellReset_asked : doorbellReset fn page 1 at_ s = (s.reach at_).contextReset c := by
  unfold doorbellReset
  dsimp only
  rw [State.reach_pageCtx, hp]
  exact if_pos rfl

variable (hx : s.ctx? c = some x) (hon : s.doorbellsOn c = true)
include hx hon

/-- A tail below the ring size is kept, one at or above it is ignored (R587). -/
theorem sqTail_on : sqTail fn page v at_ s =
    if v < 2 ^ x.sqLog2 then ((s.reach at_).setCtx (x.expose v (s.reach at_).frm.now)).doorbellWake
    else (s.reach at_).doorbellIgnored c v := by
  unfold sqTail
  dsimp only
  rw [State.reach_pageCtx, hp]
  dsimp only
  rw [State.reach_ctx?, hx]
  dsimp only
  rw [State.reach_doorbellsOn, if_pos hon]

theorem cqHead_below (hv : v < 2 ^ x.cqLog2) : cqHead fn page v at_ s =
    ((s.reach at_).setCtx { x with
        cqHead := v
        unread := (s.fld (.ctxStatus c) F.ctxStatus_CQ_TAIL + 2 ^ x.cqLog2 - v) % 2 ^ x.cqLog2 }).doorbellWake := by
  unfold cqHead
  dsimp only
  rw [State.reach_pageCtx, hp]
  dsimp only
  rw [State.reach_ctx?, hx]
  dsimp only
  rw [State.reach_doorbellsOn, if_pos hon, if_pos hv, State.reach_fld]

end Doorbell

theorem moderationTimer_due {s : State} {fn vec at_ : Nat} (h0 : 0 < (sgetD (vecKey fn vec) ({} : Moder) s.evt.moder).pend)
    (ht : (sgetD (vecKey fn vec) ({} : Moder) s.evt.moder).since + 1000 * s.modTimer fn vec ≤ at_) (hh : s.modHeld fn vec = false) :
    moderationTimer fn vec at_ s = (s.reach at_).flushVector fn vec := by
  have hnow := Nat.le_trans ht (State.le_reach s at_)
  unfold moderationTimer
  dsimp only
  rw [State.reach_evt, State.reach_modTimer, State.reach_modHeld]
  exact if_pos ⟨h0, hnow, hh⟩

/-- Settles O35. -/
theorem doorbells : Obligations.Doorbells := by
  refine ⟨fun s fn page v at_ c x _ hp hx hon => ⟨fun hv => ?below, fun hv => ?above, fun hv => State.does_eq (cqHead_below hp hx hon hv)⟩,
    fun s fn page at_ c _ hp => State.does_eq (doorbellReset_asked hp),
    fun s fn vec at_ _ h0 ht hh => State.does_eq (moderationTimer_due h0 ht hh)⟩
  case below => exact State.does_eq ((sqTail_on hp hx hon).trans (if_pos hv))
  case above => exact State.does_eq ((sqTail_on hp hx hon).trans (if_neg (Nat.not_lt.mpr hv)))

/-! ### Contexts -/

section Context
variable {s : State} {c : Nat}

/-- A write that enables a context applies its other fields first (R571). -/
theorem State.regSet_ctxEnable {v : Word} (he : s.bit (.ctxCtrl c) F.ctxCtrl_ENABLE = false) (hv : F.ctxCtrl_ENABLE.get v = 1) :
    s.regSet (.ctxCtrl c) v = ((s.plainWrite (.ctxCtrl c) (F.ctxCtrl_ENABLE.put v 0)).setFld (.ctxCtrl c) F.ctxCtrl_ENABLE 1).enableCheck c := by
  change s.ctxCtrlWrite c v = _
  unfold State.ctxCtrlWrite
  dsimp only
  rw [he, if_neg Bool.false_ne_true, if_pos hv]

theorem State.regSet_ctxReset (he : s.bit (.ctxCtrl c) F.ctxCtrl_ENABLE = true) :
    s.regSet (.ctxCtrl c) (F.ctxCtrl_RESET.put (s.reg (.ctxCtrl c)) 1) = s.contextReset c := by
  have hre : F.ctxCtrl_RESET.get (F.ctxCtrl_RESET.put (s.reg (.ctxCtrl c)) 1) = 1 := Fld.get_put _ _ _ (by decide)
  change s.ctxCtrlWrite c _ = _
  unfold State.ctxCtrlWrite
  dsimp only
  rw [if_pos he, if_pos (.inl hre)]

theorem State.regSet_segReload (he : s.bit (.ctxCtrl c) F.ctxCtrl_ENABLE = true) (h0 : F.ctxCtrl_RESET.get (s.reg (.ctxCtrl c)) = 0) :
    s.regSet (.ctxCtrl c) (F.ctxCtrl_SEG_RELOAD.put (s.reg (.ctxCtrl c)) 1) = s.segReload c := by
  have hre : F.ctxCtrl_RESET.get (F.ctxCtrl_SEG_RELOAD.put (s.reg (.ctxCtrl c)) 1) = 0 := by
    rw [Fld.get_put_ne _ _ _ _ (by decide) (by decide), h0]
  have hon : F.ctxCtrl_ENABLE.get (F.ctxCtrl_SEG_RELOAD.put (s.reg (.ctxCtrl c)) 1) = 1 := by
    rw [Fld.get_put_ne _ _ _ _ (by decide) (by decide)]
    exact beq_iff_eq.mp he
  have hseg : F.ctxCtrl_SEG_RELOAD.get (F.ctxCtrl_SEG_RELOAD.put (s.reg (.ctxCtrl c)) 1) = 1 := Fld.get_put _ _ _ (by decide)
  change s.ctxCtrlWrite c _ = _
  unfold State.ctxCtrlWrite
  dsimp only
  rw [if_pos he, hre, hon, if_neg (by decide), if_pos hseg]

theorem State.segReload_good {x : Ctx} (hx : s.ctx? c = some x) (he : s.segErr c = 0) :
    s.segReload c = s.setCtx { x with staged := some ((s.readSegs c).map Prod.fst) } := by
  unfold State.segReload
  rw [hx]
  exact if_pos he

/-- No lock covers CTX_CTRL. -/
theorem State.regWrite_ctxCtrl {v : Word} {f : State → State} (hr : s.hard.rails = true) (ho : s.open_ = true)
    (hf : s.regSet (.ctxCtrl c) v = f s) : s.regWrite (.ctxCtrl c) v = s.onDev f :=
  (State.regWrite_open s (.ctxCtrl c) v hr (State.takes_open s _ ho) rfl nofun nofun nofun).trans (State.onDev_congr hf)

theorem contextResetDone_ends (h2 : (s.ctx c).resetStep = 2) :
    contextResetDone c s = if s.host.flr ∧ (sdel c s.ctxs).isEmpty then (s.contextOut c).flrEnd else s.contextOut c :=
  if_pos h2

end Context

/-! ### Partitions -/

section Partition
variable {s : State} {p : Nat}

theorem State.regSet_partSetUp (v : Word) (ha : s.bit (.hstPartCtrl p) F.hstPartCtrl_ACTIVE = false) :
    s.regSet (.hstPartCtrl p) v =
      (({ s.setFld (.hstPartCtrl p) F.hstPartCtrl_ENABLE (F.hstPartCtrl_ENABLE.get v) with
        host := { s.host with setUps := insertNew p s.host.setUps } } : State).setFld (.hstPartCtrl p) F.hstPartCtrl_VIEW
        (F.hstPartCtrl_VIEW.get v)).setFld (.hstPartCtrl p) F.hstPartCtrl_PRIMARY (F.hstPartCtrl_PRIMARY.get v) := by
  change s.partCtrlWrite p v = _
  unfold State.partCtrlWrite
  dsimp only
  rw [ha, if_neg (fun h => Bool.false_ne_true h.1), if_neg Bool.false_ne_true, if_neg Bool.false_ne_true, State.setFld_host]

section Down
variable (ha : s.bit (.hstPartCtrl p) F.hstPartCtrl_ACTIVE = true)
include ha

/-- A write that clears ENABLE of an active partition (R567). -/
theorem State.regSet_partDown : s.regSet (.hstPartCtrl p) (F.hstPartCtrl_ENABLE.put (s.reg (.hstPartCtrl p)) 0) =
    if s.partInUse p then s.setFld (.hstPartCtrl p) F.hstPartCtrl_ERR 4
    else (s.setFld (.hstPartCtrl p) F.hstPartCtrl_ENABLE 0).setFld (.hstPartCtrl p) F.hstPartCtrl_PRIMARY
      (s.fld (.hstPartCtrl p) F.hstPartCtrl_PRIMARY) := by
  have hen : F.hstPartCtrl_ENABLE.get (F.hstPartCtrl_ENABLE.put (s.reg (.hstPartCtrl p)) 0) = 0 := Fld.get_put _ _ _ (by decide)
  have hprim : F.hstPartCtrl_PRIMARY.get (F.hstPartCtrl_ENABLE.put (s.reg (.hstPartCtrl p)) 0) = s.fld (.hstPartCtrl p) F.hstPartCtrl_PRIMARY :=
    Fld.get_put_ne _ _ _ _ (by decide) (by decide)
  change s.partCtrlWrite p _ = _
  unfold State.partCtrlWrite
  dsimp only
  rw [ha, hen, hprim, if_pos rfl, if_pos rfl]
  by_cases hu : s.partInUse p = true
  · rw [if_pos ⟨rfl, rfl, hu⟩, if_pos hu]
  · rw [if_neg (fun h => hu h.2.2), if_neg hu]

end Down

end Partition

/-- Settles O36. -/
theorem contextsAndPartitions : Obligations.ContextsAndPartitions := by
  refine ⟨fun s c v hr ho hc he hv => State.writes_open (decide_eq_true hc) hr ho rfl nofun nofun nofun (State.regSet_ctxEnable he hv),
    fun s c hr ho hc he => ?reset, fun s c _ hc h2 => ⟨fun hf => ?out, fun hf hl => ?last⟩, fun s c x hr ho hc he h0 hx hg => ?seg,
    fun s p v hr ho hp hl ha => State.writes_open (decide_eq_true hp) hr ho hl nofun nofun nofun (State.regSet_partSetUp v ha),
    fun s p hr ho hp hl ha => ⟨fun hu => ?down, fun hu => ?used⟩⟩
  case reset =>
    exact congrArg Host.Outcome.next ((if_pos hc).trans (State.regWrite_ctxCtrl hr ho (State.regSet_ctxReset he)))
  case out =>
    exact State.doesIf_eq (decide_eq_true hc) ((contextResetDone_ends h2).trans (if_neg (fun h => Bool.false_ne_true (hf.symm.trans h.1))))
  case last =>
    exact State.doesIf_eq (decide_eq_true hc) ((contextResetDone_ends h2).trans (if_pos ⟨hf, by rw [hl]; rfl⟩))
  case seg =>
    exact congrArg Host.Outcome.next ((if_pos hc).trans
      (State.regWrite_ctxCtrl hr ho ((State.regSet_segReload he h0).trans (State.segReload_good hx hg))))
  case down =>
    exact State.writes_open (decide_eq_true hp) hr ho hl nofun nofun nofun
      ((State.regSet_partDown ha).trans (if_neg (by rw [hu]; exact Bool.false_ne_true)))
  case used => exact State.writes_open (decide_eq_true hp) hr ho hl nofun nofun nofun ((State.regSet_partDown ha).trans (if_pos hu))

end Sys2Proof.Machine
end

section
/-! SUPPORT. The host link, its functions, translations and window (R561–R564, R580, R594), and SPDM with IDE keys (R595, R596). -/

namespace Sys2Proof.Machine

/-! ### Functions -/

section Function
variable {s : State} {at_ : Nat}

theorem flrVf_function {fn : Nat} (h0 : fn ≠ 0) (h255 : fn ≤ 255) : flrVf fn at_ s =
    ((s.reach at_).each ((s.ctxs.map Prod.fst).filter (fun c => s.fnOf c == fn)) State.contextReset).msixReset fn := by
  unfold flrVf
  dsimp only
  rw [if_neg (by omega), State.reach_ctxs]
  simp only [State.reach_fnOf]

/-- The state once every context has been told to reset. -/
theorem flrPf_cases : flrPf at_ s =
    if ((s.reach at_).each (s.ctxs.map Prod.fst) State.contextReset).ctxs.isEmpty
    then ((s.reach at_).each (s.ctxs.map Prod.fst) State.contextReset).flrEnd
    else { (s.reach at_).each (s.ctxs.map Prod.fst) State.contextReset with
      host := { ((s.reach at_).each (s.ctxs.map Prod.fst) State.contextReset).host with flr := true } } := by
  unfold flrPf
  dsimp only
  rw [State.reach_ctxs]

theorem flrPf_idle (h : s.ctxs = []) : flrPf at_ s = (s.reach at_).flrEnd := by
  rw [flrPf_cases, h]
  exact if_pos (by rw [List.map_nil, State.each, List.foldl_nil, State.reach_ctxs, h]; rfl)

theorem flrPf_busy (h : ((s.reach at_).each (s.ctxs.map Prod.fst) State.contextReset).ctxs ≠ []) : flrPf at_ s =
    { (s.reach at_).each (s.ctxs.map Prod.fst) State.contextReset with
      host := { ((s.reach at_).each (s.ctxs.map Prod.fst) State.contextReset).host with flr := true } } := by
  rw [flrPf_cases]
  exact if_neg fun he => h (List.isEmpty_iff.mp he)

end Function

/-! ### The link -/

theorem hostLinkDown_first {s : State} {at_ : Nat} (hc : s.ctxs ≠ []) (hd : s.host.downAt = none) : hostLinkDown at_ s =
    (({ s.reach at_ with host := { s.host with downAt := some (s.reach at_).frm.now, ide := [] } } : State).setReg .hstLink 0).relevel 684 := by
  have hfirst : ¬ (s.ctxs.isEmpty = true ∨ s.host.downAt.isSome = true) := by
    rw [List.isEmpty_iff, hd]
    exact fun h => h.elim hc nofun
  unfold hostLinkDown
  dsimp only
  rw [State.reach_ctxs, State.reach_host, if_neg hfirst]

theorem hostLinkUp_up {s : State} {rate width : Nat} (flit rev vf : Bool) (n at_ : Nat) (h1 : 1 ≤ rate) (h6 : rate ≤ 6) (hd : s.host.downAt = none) :
    hostLinkUp rate width flit rev vf n at_ s =
      ({ ((((s.reach at_).setFld .hstLink F.hstLink_RATE rate).setFld .hstLink F.hstLink_WIDTH width).setFld .hstLink F.hstLink_FLIT
          (if flit then 1 else 0)).setFld .hstLink F.hstLink_REVERSED (if rev then 1 else 0) with
        host := { s.host with vfEnable := vf, numVfs := min n 255, downAt := none } } : State).relevel 684 := by
  unfold hostLinkUp
  dsimp only
  rw [if_pos ⟨h1, h6⟩]
  iterate 4 rw [State.setFld_host]
  rw [State.reach_host, hd]
  dsimp only
  iterate 4 rw [State.setFld_host]
  rw [State.reach_host]

theorem hostAccessFailure_user {s : State} {ctx slot : Nat} {o : Op} (h : s.hostUser ctx slot = some o) :
    hostAccessFailure ctx slot s = s.hostFails o slot := by
  rw [hostAccessFailure, h]

/-! ### The window -/

theorem bar4Read_some {s : State} {off n k : Nat} (h : s.bar4 off n = some k) :
    bar4Read off n s = (s.takeTokens 64 k n).emit (.bar4Data off (s.kRd k n)) := by
  rw [bar4Read, h]

theorem bar4Read_none {s : State} {off n : Nat} (h : s.bar4 off n = none) :
    bar4Read off n s = (s.satFld .hstErr F.hstErr_BAR4_MISS 1).emit (.bar4Data off (List.replicate n 0)) := by
  rw [bar4Read, h]

/-- Settles O37. -/
theorem hostEvents : Obligations.HostEvents :=
  ⟨fun _ _ _ _ h0 h255 => State.does_eq (flrVf_function h0 h255), fun _ _ _ h => State.does_eq (flrPf_idle h),
    fun _ _ _ h => State.does_eq (flrPf_busy h), fun _ _ _ _ _ _ => rfl, fun _ _ _ hc hd => State.does_eq (hostLinkDown_first hc hd),
    fun _ _ _ flit rev vf n at_ _ h1 h6 hd => State.does_eq (hostLinkUp_up flit rev vf n at_ h1 h6 hd),
    fun _ _ _ _ _ h => State.does_eq (hostAccessFailure_user h), fun _ _ _ _ _ h => State.does_eq (bar4Read_some h),
    fun _ _ _ _ h => State.does_eq (bar4Read_none h), fun _ _ _ _ _ h => State.does_eq (bar4Write_some h)⟩

/-! ### SPDM (R595) -/

theorem State.outbox_emit (s : State) (o : Output) : (s.emit o).outbox = s.outbox ++ [o] := rfl

theorem State.host_emit (s : State) (o : Output) : (s.emit o).host = s.host := rfl

/-- A request that is answered: what it leaves of the connection and of the outbox. -/
theorem State.does_answers {s : State} {f : State → State} {o : Output} {n : Nat} (hr : s.hard.rails = true) (hn : (f s).host.spdm = n)
    (ho : (f s).outbox = s.outbox ++ [o]) : ∃ t, s.does f = .next t ∧ t.host.spdm = n ∧ t.outbox = s.outbox ++ [o] :=
  ⟨{ f s with hard := s.hard, pending := s.pending }, congrArg Host.Outcome.next (State.onDev_on f s hr), hn, ho⟩

theorem State.spdmStep_ok {s : State} {ok : Bool} (code : Nat) (req : List Byte) (upd : State → State) (hd : s.doe = true) (hok : ok = true) :
    s.spdmStep code req ok upd = ({ upd s with fresh := s.fresh + 1 } : State).emit (.spdm code (Config.spdmAnswer code req s.fresh)) := by
  unfold State.spdmStep
  rw [if_neg (by rw [hd]; exact Bool.false_ne_true), if_pos hok]

/-- A request in turn is answered, and takes the connection to where `upd` takes it. -/
theorem State.spdm_inTurn {s : State} {f : State → State} {code n : Nat} {req : List Byte} {ok : Bool} {upd : State → State}
    (hf : f s = s.spdmStep code req ok upd) (hr : s.hard.rails = true) (hd : s.doe = true) (hok : ok = true) (hn : (upd s).host.spdm = n)
    (ho : (upd s).outbox = s.outbox) : ∃ t a, s.does f = .next t ∧ t.host.spdm = n ∧ t.outbox = s.outbox ++ [.spdm code a] := by
  have h := hf.trans (State.spdmStep_ok code req upd hd hok)
  obtain ⟨t, ht⟩ := State.does_answers (f := f) (n := n) hr (by rw [h, State.host_emit]; exact hn) (by rw [h, State.outbox_emit, ← ho])
  exact ⟨t, _, ht⟩

/-- One block of measurements. -/
theorem spdmMeasurements_block {s : State} {i : Nat} (req : List Byte) (hd : s.doe = true) (h3 : 3 ≤ s.host.spdm) (h6 : i ≤ 6) (h0 : i ≠ 0) :
    spdmMeasurements i req s =
      ({ s with fresh := s.fresh + 1 } : State).emit (.spdm 0x60 (s.measurement i ++ Config.spdmAnswer 0x60 req s.fresh)) := by
  unfold spdmMeasurements
  dsimp only
  rw [if_pos ⟨hd, h3, .inl h6⟩, if_neg h0, if_neg (by omega)]

theorem insertNew_ne_nil {α : Type} [DecidableEq α] (a : α) (l : List α) : insertNew a l ≠ [] := by
  unfold insertNew
  split
  next h => exact List.ne_nil_of_mem h
  · simp

theorem ideKeys_set {s : State} {stream : Nat} (hd : s.doe = true) (h5 : s.host.spdm = 5) (h8 : stream ≤ 8) : ideKeys stream true s =
    ({ s with host := { s.host with ide := insertNew stream s.host.ide } } : State).setFld .hstLink F.hstLink_IDE 1 := by
  have hne : ¬ (insertNew stream s.host.ide).isEmpty = true := by
    rw [List.isEmpty_iff]
    exact insertNew_ne_nil _ _
  unfold ideKeys
  dsimp only
  rw [if_pos ⟨hd, h5, h8⟩, if_pos rfl, if_neg hne]

/-- Settles O39. -/
theorem attestation : Obligations.Attestation := by
  refine ⟨fun s req hr hd => ⟨State.spdm_inTurn rfl hr hd rfl rfl rfl, fun h => State.spdm_inTurn rfl hr hd (beq_iff_eq.mpr h) rfl rfl,
      fun h => State.spdm_inTurn rfl hr hd (beq_iff_eq.mpr h) rfl rfl, fun h => State.spdm_inTurn rfl hr hd (decide_eq_true h) rfl rfl,
      fun h => State.spdm_inTurn rfl hr hd (decide_eq_true h) rfl rfl, fun h => State.spdm_inTurn rfl hr hd (decide_eq_true h) rfl rfl,
      fun h3 i h6 h0 => ?block, fun h => State.spdm_inTurn rfl hr hd (beq_iff_eq.mpr h) rfl rfl,
      fun h => State.spdm_inTurn rfl hr hd (beq_iff_eq.mpr h) rfl rfl, fun h => State.spdm_inTurn rfl hr hd (beq_iff_eq.mpr h) rfl rfl⟩,
    fun s stream _ hd h5 h8 => State.does_eq (ideKeys_set hd h5 h8)⟩
  case block =>
    have h := spdmMeasurements_block req hd h3 h6 h0
    obtain ⟨t, ht⟩ := State.does_answers (f := spdmMeasurements i req) hr (by rw [h, State.host_emit]) (by rw [h, State.outbox_emit])
    exact ⟨t, _, ht⟩

end Sys2Proof.Machine
end

section
/-! SUPPORT. Interrupts of the control processors and host vectors (R710–R714), the event ring and the counters (R702–R707, R723). -/

namespace Sys2Proof.Machine

/-! ### Interrupts -/

theorem cpEoi_cons {s : State} {c : Nat} {p : Nat × Nat} {rest : List (Nat × Nat)} (h : nthD s.evt.cpStacks c [] = p :: rest) :
    cpEoi c s = (({ s with evt := { s.evt with cpStacks := s.evt.cpStacks.set c rest } } : State).cpRegs c).resample p.2 := by
  rw [cpEoi, h]

theorem irqDelivery_cp {s : State} {c at_ : Nat} (h : c < 4) : irqDelivery c at_ s = (s.reach at_).cpTry c := if_pos h

theorem irqDelivery_host (s : State) (at_ : Nat) : irqDelivery 4 at_ s = (s.reach at_).hostTry := by
  unfold irqDelivery
  dsimp only
  rw [if_neg (by decide), if_pos rfl]

theorem cpHoldTimer_due {s : State} {c at_ t0 b : Nat} (h : nthD s.evt.hold c none = some t0)
    (ht : t0 + 1000 * s.fld (.irqCp c) F.irqCp_TIMER ≤ at_) (hb : ((s.reach at_).holdEnd c).cpBest c = some b) :
    cpHoldTimer c at_ s = ((s.reach at_).holdEnd c).cpDeliver c b := by
  have hnow := Nat.le_trans ht (State.le_reach s at_)
  unfold cpHoldTimer
  dsimp only
  rw [State.reach_evt, h]
  dsimp only
  rw [State.reach_fld, if_pos hnow, hb]

/-- Settles O41. -/
theorem interruptCommands : Obligations.InterruptCommands := by
  refine ⟨fun s c p rest hr ho hc h => State.writes_open (decide_eq_true hc) hr ho rfl nofun nofun nofun (cpEoi_cons h),
    fun s v hr ho _ => State.writes_open rfl hr ho rfl nofun nofun nofun rfl,
    fun s c at_ _ hc => ⟨State.doesIf_eq (decide_eq_true (by omega)) (irqDelivery_cp hc), State.doesIf_eq rfl (irqDelivery_host s at_)⟩,
    fun s c at_ t0 b _ hc h ht hb => State.doesIf_eq (decide_eq_true hc) (cpHoldTimer_due h ht hb)⟩

/-! ### The event ring -/

section Reach
variable (s : State) (t : Nat)

theorem State.reach_evtSize : (s.reach t).evtSize = s.evtSize := by
  rw [State.evtSize, State.reach_fld, State.evtSize]

theorem State.reach_evtBase : (s.reach t).evtBase = s.evtBase := by
  rw [State.evtBase, State.reach_fld, State.evtBase]

theorem State.reach_evtFull : (s.reach t).evtFull = s.evtFull := by
  simp only [State.evtFull, State.reach_bit, State.reach_fld, State.reach_evtSize]

end Reach

/-- The oldest entry goes to a ring that is enabled, has room, and lies in this package's memory. -/
theorem eventRecordWrite_writes {s : State} {at_ : Nat} {e : Event} {rest : List Event} (hp : s.evt.pend = e :: rest)
    (he : s.bit .evtRingCtrl F.evtRingCtrl_ENABLE = true) (hf : s.evtFull = false) (hb : spaceOf s.evtBase ≠ 2) :
    eventRecordWrite true at_ s = (s.reach at_).writeRecord e rest := by
  unfold eventRecordWrite
  dsimp only
  rw [State.reach_evt, hp]
  dsimp only
  rw [State.reach_bit, he, State.reach_evtFull, hf, State.reach_evtBase]
  exact (if_neg Bool.false_ne_true).trans ((if_neg Bool.false_ne_true).trans (if_neg fun h => hb h.1))

theorem eventsLost_emptied {s : State} {c : Coalesce} (hc : s.evt.coal = some c) (hp : s.evt.pend = []) : eventsLost s = s.endCoalescing c := by
  rw [eventsLost, hc]
  exact if_neg fun h => h hp

/-- A head within the ring frees what lies before it (R704). -/
theorem evtHeadWrite_below {s : State} {v : Nat} (h : v < s.evtSize) : evtHeadWrite v s =
    ({ s.setFld .evtRingHead F.evtRingHead_HEAD v with evt := { s.evt with
        unread := (s.fld .evtRingTail F.evtRingTail_TAIL + s.evtSize - v) % s.evtSize } } : State).evtLevels := by
  have hsize : (s.setFld .evtRingHead F.evtRingHead_HEAD v).evtSize = s.evtSize := by
    unfold State.evtSize
    rw [State.fld_setFld_ne _ _ _ _ _ _ (by decide)]
  unfold evtHeadWrite
  dsimp only
  rw [if_pos h, hsize, State.fld_setFld_ne _ _ _ _ _ _ (by decide), State.setFld_evt]

/-! ### The counters (R723) -/

/-- One counter is copied. -/
def State.snapCount (s : State) (i : Nat) : State :=
  s.setFld (.evtPerfSnap i) F.evtPerfSnap_COUNT (s.fld (.evtPerfCnt i) F.evtPerfCnt_COUNT)

/-- Copies leave every register outside the snapshot. -/
theorem State.fld_snapCounts {q : Reg} (f : Fld) (hq : ∀ i, q.key ≠ (Reg.evtPerfSnap i).key) (l : List Nat) (s : State) :
    (s.each l State.snapCount).fld q f = s.fld q f := by
  induction l generalizing s with
  | nil => rfl
  | cons i l ih => exact (ih _).trans (s.fld_setFld_ne _ _ _ _ _ (hq i))

theorem Reg.evtPerfCnt_ne_snap {i : Nat} (h : i < 32) (j : Nat) : (Reg.evtPerfCnt i).key ≠ (Reg.evtPerfSnap j).key := by
  change 0xD0200 + 0x8 * i ≠ 0xD0300 + 0x8 * j
  omega

/-- A copy that has been made stays, since its counter does. -/
theorem State.snapCount_mem {i : Nat} (hi : i < 32) (l : List Nat) (s : State)
    (h : i ∈ l ∨ s.fld (.evtPerfSnap i) F.evtPerfSnap_COUNT = s.fld (.evtPerfCnt i) F.evtPerfCnt_COUNT) :
    (s.each l State.snapCount).fld (.evtPerfSnap i) F.evtPerfSnap_COUNT = s.fld (.evtPerfCnt i) F.evtPerfCnt_COUNT := by
  induction l generalizing s with
  | nil => exact h.resolve_left List.not_mem_nil
  | cons j l ih =>
    have hcnt : (s.snapCount j).fld (.evtPerfCnt i) F.evtPerfCnt_COUNT = s.fld (.evtPerfCnt i) F.evtPerfCnt_COUNT :=
      s.fld_setFld_ne _ _ _ _ _ (Reg.evtPerfCnt_ne_snap hi j)
    refine (ih (s.snapCount j) ?_).trans hcnt
    rw [hcnt]
    by_cases hj : i = j
    · subst hj
      refine .inr ((s.fld_setFld _ _ _ rfl (by decide)).trans (Nat.mod_eq_of_lt (Fld.get_lt _ _)))
    · have hkey : (Reg.evtPerfSnap i).key ≠ (Reg.evtPerfSnap j).key := by
        change 0xD0300 + 0x8 * i ≠ 0xD0300 + 0x8 * j
        omega
      refine h.imp (fun hm => (List.mem_cons.mp hm).resolve_left hj) fun hs => ?_
      exact (s.fld_setFld_ne _ _ _ _ _ hkey).trans hs

/-- The counters are copied, with the frame. -/
def State.snapped (s : State) : State := (s.each (List.range 32) State.snapCount).setFld .evtSnapFrame F.evtSnapFrame_FRAME s.frame

theorem telemetrySnapshot_asked {s : State} (h : s.evt.snap = true) :
    telemetrySnapshot s = { s.snapped with evt := { s.snapped.evt with snap := false, telem := true } } := by
  have hframe : (s.each (List.range 32) State.snapCount).frame = s.frame :=
    State.fld_snapCounts _ (fun i => by change 0x30020 ≠ 0xD0300 + 0x8 * i; omega) _ s
  unfold State.snapped
  rw [← hframe]
  exact if_pos (.inl h)

theorem State.fld_evt (s : State) (e : EvtSt) (r : Reg) (f : Fld) : ({ s with evt := e } : State).fld r f = s.fld r f := by
  unfold State.fld
  cases r <;> rfl

theorem State.snapped_frame (s : State) : s.snapped.fld .evtSnapFrame F.evtSnapFrame_FRAME = s.frame :=
  (State.fld_setFld _ _ _ _ rfl (by decide)).trans (Nat.mod_eq_of_lt (Fld.get_lt F.frmNumber_FRAME _))

theorem State.snapped_count (s : State) {i : Nat} (hi : i < 32) :
    s.snapped.fld (.evtPerfSnap i) F.evtPerfSnap_COUNT = s.fld (.evtPerfCnt i) F.evtPerfCnt_COUNT := by
  have hkey : (Reg.evtPerfSnap i).key ≠ Reg.evtSnapFrame.key := by
    change 0xD0300 + 0x8 * i ≠ 0xD0040
    omega
  exact (State.fld_setFld_ne _ _ _ _ _ _ hkey).trans (State.snapCount_mem hi _ s (.inl (List.mem_range.mpr hi)))

theorem State.snapped_keeps (s : State) : s.snapped.hard = s.hard ∧ s.snapped.pending = s.pending := by
  have h : s.RegsEvt s.snapped := (regsEvt_each State.snapCount (fun _ _ => regsEvt_setFld _ _ _ _) s _).trans (regsEvt_setFld _ _ _ _)
  obtain ⟨-, hpend, hhard, -⟩ := h.keeps
  exact ⟨hhard, hpend⟩

/-- Settles O42. -/
theorem eventCommands : Obligations.EventCommands := by
  refine ⟨fun s at_ e rest _ hp he hf hb => State.does_eq (eventRecordWrite_writes hp he hf hb),
    fun s typ src d _ hs => State.doesIf_eq (decide_eq_true hs) (if_pos (by omega)),
    fun s c _ hc hp => State.does_eq (eventsLost_emptied hc hp),
    fun s v hr ho hv => State.writes_open rfl hr ho rfl nofun nofun nofun (evtHeadWrite_below hv),
    fun s v hr ho => State.writes_open rfl hr ho rfl nofun nofun nofun rfl, fun s hr hs => ?snapshot⟩
  case snapshot =>
    have hasked := telemetrySnapshot_asked hs
    have hframe := s.snapped_frame
    have hcount : ∀ i, i < 32 → s.snapped.fld (.evtPerfSnap i) F.evtPerfSnap_COUNT = s.fld (.evtPerfCnt i) F.evtPerfCnt_COUNT :=
      fun i hi => s.snapped_count hi
    obtain ⟨hhard, hpend⟩ := s.snapped_keeps
    generalize s.snapped = u at hasked hframe hcount hhard hpend
    exact ⟨_, State.does_pure hr hasked hhard hpend, rfl, rfl, (u.fld_evt _ _ _).trans hframe, fun i hi => (u.fld_evt _ _ _).trans (hcount i hi)⟩

end Sys2Proof.Machine
end

section
/-! SUPPORT. S states and overheating dies. -/

namespace Sys2Proof.Machine

theorem State.each_none {α : Type} (s : State) (f : State → α → State) : s.each [] f = s := rfl

section
variable {s : State} {at_ : Nat}

theorem State.reach_sPending : (s.reach at_).sPending = s.sPending := by
  rw [State.sPending, State.reach_fld, State.reach_bit, State.sPending]

theorem State.reach_idleNow : (s.reach at_).idleNow = s.idleNow := by
  rw [State.idleNow, State.reach_ops, State.reach_parts, State.idleNow]

/-! ### S states (R453, R454) -/

theorem State.strUp_pwrStatus {n : Nat} (f : Fld) (x : Nat) : (s.setFld .pwrStatus f x).strUp n = s.strUp n := by
  have hkey : (Reg.strStatus n).key ≠ Reg.pwrStatus.key := by
    change 0x80008 + 0x1000 * n ≠ 0x20008
    omega
  rw [State.strUp, State.strState, State.fld_setFld_ne _ _ _ _ _ _ hkey, State.strUp, State.strState]

theorem State.fryUp_pwrStatus {n : Nat} (f : Fld) (x : Nat) : (s.setFld .pwrStatus f x).fryUp n = s.fryUp n := by
  have hkey : (Reg.fryStatus n).key ≠ Reg.pwrStatus.key := by
    change 0xA0008 + 0x1000 * n ≠ 0x20008
    omega
  rw [State.fryUp, State.fryState, State.fld_setFld_ne _ _ _ _ _ _ hkey, State.fryUp, State.fryState]

/-- The power state entered: STATE holds it, and BUSY is 0. -/
def State.inSState (s : State) (st : Nat) : State := (s.setFld .pwrStatus F.pwrStatus_STATE st).setFld .pwrStatus F.pwrStatus_BUSY 0

theorem State.strUp_inSState (st : Nat) : (s.inSState st).strUp = s.strUp := by
  funext n
  rw [State.inSState, State.strUp_pwrStatus, State.strUp_pwrStatus]

theorem State.fryUp_inSState (st : Nat) : (s.inSState st).fryUp = s.fryUp := by
  funext n
  rw [State.inSState, State.fryUp_pwrStatus, State.fryUp_pwrStatus]

theorem sStateEntry_dark (hp : s.sPending = true) (he : s.bit .frmCtrl F.frmCtrl_ENABLE = false) (hi : s.idleNow = true)
    (hs : (List.range 32).filter s.strUp = []) (hf : (List.range 4).filter s.fryUp = []) :
    sStateEntry at_ s = ((s.reach at_).inSState (s.fld .pwrCtrl F.pwrCtrl_REQ)).eventW 0x0204 756 none none (s.fld .pwrCtrl F.pwrCtrl_REQ) 0 := by
  have hreq : (s.reach at_).fld .pwrCtrl F.pwrCtrl_REQ = s.fld .pwrCtrl F.pwrCtrl_REQ := s.reach_fld _ _ _
  have hstr : (s.reach at_).strUp = s.strUp := funext (s.reach_strUp at_)
  have hfry : (s.reach at_).fryUp = s.fryUp := funext (s.reach_fryUp at_)
  unfold sStateEntry
  dsimp only
  rw [State.reach_sPending, State.reach_bit, State.reach_idleNow, he, hreq, ← State.inSState]
  generalize s.reach at_ = u at hstr hfry ⊢
  rw [State.strUp_inSState, hstr, hs, State.each_none, State.fryUp_inSState, hfry, hf, State.each_none]
  exact if_pos ⟨hp, .inr rfl, hi⟩

end

/-- Settles O43. -/
theorem powerCommands : Obligations.PowerCommands := by
  refine ⟨fun s v hr ho => State.writes_open rfl hr ho rfl nofun nofun nofun rfl,
    fun s hr ho => State.writes_open rfl hr ho rfl nofun nofun nofun rfl, ?entry, ?overtemp⟩
  case entry =>
    rintro s at_ _ - hp he hi rfl hs hf
    exact State.does_eq (sStateEntry_dark hp he hi hs hf)
  case overtemp =>
    intro s d t at_ _ hd ht hm
    refine State.doesIf_eq (decide_eq_true hd) ?_
    unfold dieOvertemp
    dsimp only
    rw [State.setFld_pwr, State.reach_pwr]
    exact if_pos ⟨hd, ht, hm⟩

end Sys2Proof.Machine
end

section
/-! SUPPORT. Maintenance of the HBM stacks: scrubbing, the verdict of the code, bounded slots and map-outs. -/

namespace Sys2Proof.Machine

theorem State.RegsEvt.hbm {s t : State} (h : s.RegsEvt t) : t.hbm = s.hbm := by
  unfold State.RegsEvt at h
  rw [h]

theorem State.reach_burstPlace (s : State) (t b : Nat) : (s.reach t).burstPlace b = s.burstPlace b := by
  rw [State.burstPlace, State.reach_hbm, State.burstPlace]

theorem State.reach_burstCh (s : State) (t b : Nat) : (s.reach t).burstCh b = s.burstCh b := by
  rw [State.burstCh, State.channelOf, State.reach_hbm, State.burstCh, State.channelOf]

theorem State.reach_codeFinds (s : State) (t : Nat) (e : BurstErr) : (s.reach t).codeFinds e = s.codeFinds e := by
  rw [State.codeFinds, State.reach_burstPlace, State.codeFinds]

theorem State.reach_mapoutOk (s : State) (t d : Nat) : (s.reach t).mapoutOk d = s.mapoutOk d := by
  rw [State.mapoutOk, State.reach_hbm, State.reach_bit, State.mapoutOk]

/-! ### The verdict of the code (R398, R400, R401) -/

section
variable {s : State} {e : BurstErr}

theorem State.codeApply_corrected (h : s.codeFinds e = .corrected) : s.codeApply e = s.corrected e.burst := by
  rw [State.codeApply, h]

theorem State.codeApply_uncorrectable (h : s.codeFinds e = .uncorrectable) : s.codeApply e = s.uncorrectable e.burst := by
  rw [State.codeApply, h]

theorem State.codeFinds_one {b : Nat} {l : List Nat} (hb : 64 * b < 2 ^ 44) (h : l.eraseDups.length = 1) :
    s.codeFinds ⟨b, l, none⟩ = .corrected := by
  refine (if_neg (Nat.not_le.mpr hb)).trans ((if_neg Bool.false_ne_true).trans ?_)
  dsimp only
  split
  · omega
  · rfl
  · rename_i h0 h1
    exact absurd h h1

theorem State.codeFinds_more {b : Nat} {l : List Nat} (hb : 64 * b < 2 ^ 44) (h : 2 ≤ l.eraseDups.length) :
    s.codeFinds ⟨b, l, none⟩ = .uncorrectable := by
  refine (if_neg (Nat.not_le.mpr hb)).trans ((if_neg Bool.false_ne_true).trans ?_)
  dsimp only
  split
  · omega
  · omega
  · rfl

variable {at_ : Nat}

theorem uncorrectableBurst_read {p : Nat} (hp : p < 64) (h : s.codeFinds e = .uncorrectable) :
    uncorrectableBurst e (some p) at_ s = (s.reach at_).frameFault p e.burst :=
  if_pos ⟨hp, (s.reach_codeFinds at_ e).trans h⟩

theorem uncorrectableBurst_repaired (p : Nat) (h : s.codeFinds e = .corrected) :
    uncorrectableBurst e (some p) at_ s = (s.reach at_).codeApply e :=
  if_neg fun hbad => by
    obtain ⟨-, hbad⟩ := hbad
    rw [State.reach_codeFinds, h] at hbad
    cases hbad

/-! ### Scrubbing and bounded slots (R402–R404, R449) -/

theorem scrub_one {stack b : Nat} {l : List Nat} (hb : 64 * b < 2 ^ 44) (hc : s.burstCh b / 32 = stack) :
    scrub stack [⟨b, l, none⟩] at_ s = ((s.reach at_).codeApply ⟨b, l, none⟩).satFld .memScrubStatus F.memScrubStatus_PASSES 1 := by
  have hmine : [(⟨b, l, none⟩ : BurstErr)].filter (fun e => decide (64 * e.burst < 2 ^ 44) && (s.reach at_).burstCh e.burst / 32 == stack)
      = [⟨b, l, none⟩] := by
    have hkeep : (decide (64 * b < 2 ^ 44) && (s.reach at_).burstCh b / 32 == stack) = true := by
      rw [State.reach_burstCh, hc, decide_eq_true hb, beq_self_eq_true, Bool.and_self]
    refine List.filter_eq_self.mpr fun e he => ?_
    rw [List.mem_singleton.mp he]
    exact hkeep
  unfold scrub
  dsimp only at hmine ⊢
  rw [hmine]
  rfl

theorem boundedSlot_first {src : Nat} (h : s.hbm.slots.find? (fun x => x.1 == 0 && x.2.1 == src) = none) :
    boundedSlot 0 src at_ s = { (s.reach at_).satFld .memScrubStatus F.memScrubStatus_STARVED 1 with
      hbm := { s.hbm with slots := s.hbm.slots ++ [(0, src, (s.reach at_).frm.now, 1)] } } := by
  unfold boundedSlot
  dsimp only
  rw [State.reach_hbm, h, if_pos rfl]
  dsimp only
  have hkeep := regsEvt_satFld (s.reach at_) .memScrubStatus F.memScrubStatus_STARVED 1
  obtain ⟨-, -, -, hfrm, -⟩ := hkeep.keeps
  rw [hkeep.hbm, hfrm, State.reach_hbm]

/-! ### Map-outs (R405, R408–R410) -/

theorem ceWindowEnd_past {c : Nat} (h0 : s.fld .memCtrl F.memCtrl_CE_THRESH ≠ 0)
    (h : s.fld .memCtrl F.memCtrl_CE_THRESH < sgetD c 0 s.hbm.ceCount) :
    ceWindowEnd c s = { s with hbm := { s.hbm with ceCount := sdel c s.hbm.ceCount, cand := insertNew (c, false) s.hbm.cand } } := by
  unfold ceWindowEnd
  dsimp only
  rw [if_pos ⟨h0, h⟩]

theorem regsEvt_stackStatus (s : State) (k : Nat) : s.RegsEvt (s.stackStatus k) :=
  (regsEvt_setFld _ _ _ _).trans (regsEvt_setFld _ _ _ _)

theorem regsEvt_dieStatus (s : State) (d : Nat) : s.RegsEvt (s.dieStatus d) := by
  unfold State.dieStatus
  extract_lets m f s1 s2 s3 s4 s5 s6
  have hfields : s.RegsEvt s4 :=
    (regsEvt_setFld s _ _ _).trans ((regsEvt_setFld s1 _ _ _).trans ((regsEvt_setFld s2 _ _ _).trans (regsEvt_setFld s3 _ _ _)))
  have hmasks : s4.RegsEvt s6 := (regsEvt_setReg s4 _ _).trans (regsEvt_setReg s5 _ _)
  exact (hfields.trans hmasks).trans ((regsEvt_stackStatus _ _).trans (regsEvt_stackStatus _ _))

theorem immediateMapout_done {c : Nat} (hc : c < 512) (hm : (c, true) ∈ s.hbm.cand) (hok : s.mapoutOk (c / 64) = true) :
    immediateMapout c at_ s = ((((s.reach at_).interruptAll 8).mapOutNow c).each (List.range 8) State.dieStatus).reefStore := by
  have hcand : (c, true) ∈ (s.reach at_).hbm.cand ∧ c < 512 := ⟨by rwa [State.reach_hbm], hc⟩
  exact (if_pos hcand).trans (if_pos (.inl ((s.reach_mapoutOk at_ _).trans hok)))

/-- MEM_MAPOUT while the lines of channel `c` are copied, `lines` of them done. -/
def State.copyBegun (s : State) (c lines : Nat) : State :=
  (((s.setFld .memMapout F.memMapout_CHANNEL c).setFld .memMapout F.memMapout_ACTIVE 1).setFld .memMapout F.memMapout_IMMEDIATE 0).setFld
    .memMapout F.memMapout_LINES_LEFT (copyLines - lines)

theorem State.copyBegun_hbm (s : State) (c lines : Nat) : (s.copyBegun c lines).hbm = s.hbm := by
  rw [State.copyBegun, State.setFld_hbm, State.setFld_hbm, State.setFld_hbm, State.setFld_hbm]

theorem plannedMapout_begins {c lines : Nat} (hcopy : s.hbm.copy = none) (hm : (c, false) ∈ s.hbm.cand)
    (hok : s.mapoutOk (c / 64) = true) (hl : lines < copyLines) :
    plannedMapout c lines s =
      ({ s.copyBegun c lines with hbm := { s.hbm with copy := some (c, lines), ready := none } } : State).each (List.range 8) State.dieStatus := by
  have hmin : min lines copyLines = lines := Nat.min_eq_left (Nat.le_of_lt hl)
  unfold plannedMapout
  rw [hcopy]
  dsimp only
  rw [if_pos hm, if_pos hok, hmin, if_neg (Nat.ne_of_lt hl), if_neg (Nat.ne_of_lt hl), ← State.copyBegun, State.copyBegun_hbm]

theorem plannedMapoutCmd_begins {c lines : Nat} (hc : c < 512) (hcopy : s.hbm.copy = none) (hm : (c, false) ∈ s.hbm.cand)
    (hok : s.mapoutOk (c / 64) = true) (hl : lines < copyLines) :
    plannedMapoutCmd c lines at_ s = ({ (s.reach at_).copyBegun c lines with
      hbm := { s.hbm with copy := some (c, lines), ready := none } } : State).each (List.range 8) State.dieStatus := by
  have hbegin := plannedMapout_begins (s := s.reach at_) (by rwa [State.reach_hbm]) (by rwa [State.reach_hbm])
    ((s.reach_mapoutOk at_ _).trans hok) hl
  rw [State.reach_hbm] at hbegin
  have hfenced : (plannedMapout c lines (s.reach at_)).hbm.fenced = (s.reach at_).hbm.fenced := by
    rw [hbegin, (regsEvt_each _ regsEvt_dieStatus _ _).hbm, State.reach_hbm]
  refine (if_neg (Nat.not_le.mpr hc)).trans ((if_neg ?_).trans hbegin)
  rw [hfenced]
  exact Nat.lt_irrefl _

end

/-- Settles O44. -/
theorem memoryCommands : Obligations.MemoryCommands := by
  refine ⟨fun s stack at_ _ hs => State.doesIf_eq (decide_eq_true hs) rfl, ?scrub,
    fun s src at_ _ h => State.does_eq (boundedSlot_first h), ?burst, ?window,
    fun s c lines at_ _ hc hcopy hm hok hl => State.doesIf_eq (decide_eq_true hc) (plannedMapoutCmd_begins hc hcopy hm hok hl),
    fun s c at_ _ hc hm hok => State.doesIf_eq (decide_eq_true hc) (immediateMapout_done hc hm hok)⟩
  case scrub =>
    intro s stack b at_ l _ hs hb hc
    refine ⟨fun hl => State.doesIf_eq (decide_eq_true hs) ((scrub_one hb hc).trans ?_),
      fun hl => State.doesIf_eq (decide_eq_true hs) ((scrub_one hb hc).trans ?_)⟩
    · rw [State.codeApply_corrected (State.codeFinds_one hb hl)]
    · rw [State.codeApply_uncorrectable (State.codeFinds_more hb hl)]
  case burst =>
    intro s e p at_ _ hp
    have hfinds := s.reach_codeFinds at_ e
    refine ⟨fun h => ⟨State.does_eq ?_, State.does_eq (uncorrectableBurst_read hp h)⟩, fun h => ⟨State.does_eq ?_, State.does_eq ?_⟩⟩
    · exact State.codeApply_uncorrectable (hfinds.trans h)
    · exact State.codeApply_corrected (hfinds.trans h)
    · exact (uncorrectableBurst_repaired p h).trans (State.codeApply_corrected (hfinds.trans h))
  case window =>
    rintro s c th hr hc rfl h0 h
    exact State.doesIf_pure (decide_eq_true hc) hr (ceWindowEnd_past h0 h) rfl rfl

end Sys2Proof.Machine
end

section
/-! SUPPORT. Faults of cores, regions, dies, processors and packages. -/

namespace Sys2Proof.Machine

theorem State.reach_logicalOf (s : State) (t pid : Nat) : (s.reach t).logicalOf pid = s.logicalOf pid := by
  rw [State.logicalOf, State.reach_outCores, State.logicalOf]

theorem State.reach_lostIn (s : State) (t g : Nat) : (s.reach t).lostIn g = s.lostIn g := by
  rw [State.lostIn, State.reach_outCores, State.reach_boot, State.reach_absent, State.lostIn]

/-- A core that still works fails, in a cluster that has lost fewer than two (R15, R18, R628). -/
theorem coreFault_lost {s : State} {pid l at_ : Nat} {bad : List Nat} (hp : pid < 32768) (hslot : pid % 32 ≤ 16)
    (hl : s.logicalOf pid = some l) (hdue : pid ∉ s.boot.coresDue.map Prod.fst) (habs : l ∉ s.absent) (hlost : s.lostIn (pid / 32) < 2) :
    coreFault pid bad at_ s = (s.reach at_).coreLost pid l bad := by
  have hcore : ¬ (32768 ≤ pid ∨ 16 < pid % 32) := by omega
  have hworks : ¬ (pid ∈ s.boot.coresDue.map Prod.fst ∨ l ∈ s.absent) := fun h => h.elim hdue habs
  unfold coreFault
  dsimp only
  rw [if_neg hcore, State.reach_logicalOf, hl]
  dsimp only
  rw [State.reach_boot, State.reach_absent, if_neg hworks, State.reach_lostIn]
  exact if_neg (Nat.not_le.mpr hlost)

theorem regionFaultCmd_used {s : State} {r at_ : Nat} (hr : r < 128) (hw : r ∉ s.boot.withheld) :
    regionFaultCmd r at_ s = (s.reach at_).regionFault r := by
  unfold regionFaultCmd
  dsimp only
  rw [State.reach_boot]
  exact if_pos ⟨hr, hw⟩

theorem recoveryEnd_recovering {s : State} {p took at_ : Nat} (h : (s.part p).recovering = true) :
    recoveryEnd p took at_ s =
      ((s.reach at_).modPart p (fun x => { x with recovering := false })).wrapFld .rasUnavail F.rasUnavail_NS took := by
  unfold recoveryEnd
  dsimp only
  rw [State.reach_part]
  exact if_pos h

/-- Settles O45. -/
theorem faultCommands : Obligations.FaultCommands :=
  ⟨fun _ _ _ _ _ _ hp hslot hl hdue habs hlost => State.doesIf_eq (decide_eq_true hp) (coreFault_lost hp hslot hl hdue habs hlost),
    fun _ _ _ _ hr hw => State.doesIf_eq (decide_eq_true hr) (regionFaultCmd_used hr hw),
    fun _ _ _ _ hd => State.doesIf_eq (decide_eq_true hd) (if_pos hd),
    fun _ _ _ _ _ hp h => State.doesIf_eq (decide_eq_true hp) (recoveryEnd_recovering h),
    fun _ _ _ _ hc => State.doesIf_eq (decide_eq_true hc) (if_pos hc),
    fun _ _ _ _ hx => State.does_eq (if_pos ⟨hx, .inl rfl⟩)⟩

end Sys2Proof.Machine
end

section
/-! SUPPORT. The state after reset, and the spec's worked examples. -/

namespace Sys2Proof.Machine

/-- After a reset no register is listed; the three that read from elsewhere read there what the table states. -/
theorem State.reset_reg (r : Reg) : State.reset.reg r = r.reset := by
  cases r
  case devLock => exact (by decide : (State.reset.hard.lock : Word) = Reg.reset .devLock)
  case cswAddr => exact (by decide : State.reset.hard.cswAddr = Reg.reset .cswAddr)
  case devFw => exact (by decide : F.devFw_SVN_FUSE.put (Reg.reset .devFw) State.reset.hard.svn = Reg.reset .devFw)
  all_goals rfl

theorem State.reset_fld (r : Reg) (f : Fld) : State.reset.fld r f = f.get r.reset := by
  rw [State.fld, State.reset_reg]

theorem State.reset_bit (r : Reg) (f : Fld) : State.reset.bit r f = (f.get r.reset == 1) := by
  rw [State.bit, State.reset_fld]

/-- Settles O47. -/
theorem resetState : Obligations.ResetState :=
  ⟨rfl, rfl, rfl, rfl, State.reset_reg, (State.reset_fld _ _).trans (by decide), (State.reset_bit _ _).trans (by decide),
    (State.reset_bit _ _).trans (by decide), rfl, rfl, rfl, rfl, rfl⟩

/-- R56: with the reset values tick 3 is at 3 periods of 500 µs. -/
theorem State.reset_tickTime : State.reset.tickTime 3 = 1500000 := by
  have hperiod : State.reset.period = 50000 := (State.reset_fld _ _).trans (by decide)
  rw [State.tickTime, hperiod]
  rfl

/-- Settles O60, by evaluation: the statement is about literal inputs. -/
theorem workedExamples : Obligations.WorkedExamples :=
  ⟨by decide, by decide, by decide, State.reset_tickTime⟩

end Sys2Proof.Machine
end
